-- ==== Sys2Proof/Word.lean ====
section
/-! DEFINITION. Sys2Proof/Word.lean: the word types of 00_scope.md (R1 to R5) and their plainest arithmetic. -/

namespace Sys2Proof

/-- A byte of memory (R2). -/
abbrev Byte := BitVec 8
/-- A halfword, the unit of the code stream (R3, R30). -/
abbrev Half := BitVec 16
/-- A word: a scalar register, or one lane of a vector register (R3). -/
abbrev Word := BitVec 32
/-- A dword (R3). -/
abbrev Dword := BitVec 64
/-- A virtual address: window bits [79:64] over a 64-bit offset (R56). -/
abbrev VAddr := BitVec 80
/-- A physical address (R14, R401). -/
abbrev PAddr := BitVec 56

/-- Who sends a signal store (R397): its context, its core, and the number of its operation in flight on P7. -/
structure Sender where
  ctx : Nat
  core : Nat
  op : Nat
deriving DecidableEq, Repr

/-- The values of the 32 lanes of a vector operand while an instruction computes; never held in the state. -/
abbrev Lanes := Nat → Word
/-- The same for 64-bit operands, named by an even pair (R44). -/
abbrev Lanes64 := Nat → Dword

/-- The number of lanes of a group (R111). -/
def lanes : Nat := 32

/-- The lane numbers in ascending order (R10). -/
def laneList : List Nat := List.range 32

/-- Whether lane `l` is in mask `m`. -/
def bitOf (m : Word) (l : Nat) : Bool := m.getLsbD l

/-- The mask of one lane. -/
def laneBit (l : Nat) : Word := 1#32 <<< l

/-- The mask of the lanes that satisfy `f`. -/
def maskOf (f : Nat → Bool) : Word :=
  laneList.foldl (fun m l => if f l then m ||| laneBit l else m) 0#32

/-- The low and the high word of a dword, and their joining (R5). -/
def lo32 (d : Dword) : Word := d.setWidth 32
def hi32 (d : Dword) : Word := (d >>> 32).setWidth 32
def pair32 (lo hi : Word) : Dword := hi ++ lo

/-- A value cut to `n` bits of a word, as a number. -/
def field (w : Word) (hi lo : Nat) : Nat := (w.toNat >>> lo) % 2 ^ (hi - lo + 1)

/-- The same of any natural number. -/
def nfield (w hi lo : Nat) : Nat := (w >>> lo) % 2 ^ (hi - lo + 1)

end Sys2Proof
end

