-- ==== Sys2Proof/Config.lean ====
section
/-! DEFINITION. Sys2Proof/Config.lean: what the spec leaves to an implementation. Each is a constant without a body: nothing can be
proved about its values, and what is proved holds whatever they are. -/

namespace Sys2Proof.Config

/-- Bytes whose contents the spec leaves to the module: the header of a spill-ring entry (R266), the spill blocks of a traversal
(R334), the layout of a save block (R431). Read at a number that the machine draws anew each time (log 18). -/
opaque freeByte : Nat → Byte

/-- Which of the f32 values that R336 allows a capsule test gives for a ray and a capsule: the spec names the sequence of operations fixed,
and bounds its result (log 5). The first chooses the entry distance, the second which neighbour of the second coordinate. -/
opaque capsuleUlp : List Word → Nat
opaque capsuleS : List Word → Nat

/-- What a capsule test gives where the spec defines no solid: a point that is not finite, an open end of an axis of length 0 (R336,
log 5): a distance and a second coordinate, or no hit. -/
opaque capsuleOpen : List Word → Option (Word × Word)

/-- The boot images: each a stage's bytes, as the ROM, the flash and the later stages hold them (R443). -/
opaque bootImage : Nat → List Byte

/-- What the checks of a stage look at (R443): the signature and the version that its image carries, the public key that it is verified
against, the SHA-256 digest of that key and the least version in the fuses. -/
opaque bootSignature : Nat → List Byte
opaque bootVersion : Nat → Nat
opaque bootKey : Nat → List Byte
opaque fusedDigest : BitVec 256
opaque fusedMinimum : Nat → Nat

/-- Whether a signature of bytes is one under a public key, by SLH-DSA-SHA2-128s (R443, FIPS 205, log 29). -/
opaque slhDsaVerify : List Byte → List Byte → List Byte → Bool

/-- What the header of the supervisor image names (R444): the supervisor's code base, sys.tvec, and the physical address that the image
is loaded at. -/
opaque supervisorHeader : Nat × Nat × Nat

/-- The public part of the key that identifies the device (R445). -/
opaque identityKey : List Byte

/-- The signature of a report, 7,856 bytes, by the device identity key (R445): of the nonce, the measurements, the versions and the public
key. -/
opaque signature : BitVec 256 → List (BitVec 256) → List Nat → List Byte → BitVec (8 * 7856)

/-- Whether a scrub of a line that a slice holds finds an uncorrectable error in it (R448, log 30); read at a number drawn anew. -/
opaque sramError : Nat → Bool

end Sys2Proof.Config
end

