-- ==== Sys2Proof/Machine/Event.lean ====
section
/-! DEFINITION. Sys2Proof/Machine/Event.lean: the names of the steps that no instruction encodes (95_what_each_step_holds.md), as plain
data that the state can hold in its agenda. Step.lean turns each into the constructor of Instr of the same name. -/

namespace Sys2Proof.Machine

/-- A step of the module other than an instruction, named with what it is about. -/
inductive Event where
  /-- PREEMPT_REQUEST (R430). -/
  | preemptRequest (core : Nat) (mask : BitVec 8)
  /-- CONTEXT_SUSPEND (R434). -/
  | contextSuspend (ctx : Nat)
  /-- CONTEXT_RESUME (R434). -/
  | contextResume (ctx : Nat)
  /-- CONTEXT_MARK_FAILED (R427). -/
  | contextMarkFailed (ctx : Nat)
  /-- SPLIT_PROMOTION (R115). -/
  | splitPromotion (core : Nat) (slot : Nat) (split : Nat)
  /-- SLEEP_EXPIRY (R132). -/
  | sleepExpiry (core : Nat) (slot : Nat) (split : Nat)
  /-- FLAG_OPERATION_COMPLETE (R39). -/
  | flagOperationComplete (core : Nat) (slot : Nat) (op : Nat)
  /-- GLOBAL_LOAD_RETURN (R40). -/
  | globalLoadReturn (core : Nat) (slot : Nat) (op : Nat)
  /-- REGION_COMMIT (R221). -/
  | regionCommit (core : Nat) (slot : Nat)
  /-- RESERVATION_LAPSE (R225). -/
  | reservationLapse (line : Nat)
  /-- CAPACITY_COMMIT (R224). -/
  | capacityCommit (core : Nat) (slot : Nat)
  /-- ATOMIC_COMMIT (R238). -/
  | atomicCommit (core : Nat) (slot : Nat) (op : Nat)
  /-- LINE_FILL (R198). -/
  | lineFill (team : Nat) (map : Nat) (line : Nat)
  /-- PEER_SCRATCHPAD_ACCESS (R194). -/
  | peerScratchpadAccess (msg : Nat)
  /-- COPY_COMMAND_START (R276). -/
  | copyCommandStart (core : Nat) (cmd : Nat)
  /-- COPY_ROW_COMPLETE (R285). -/
  | copyRowComplete (core : Nat) (cmd : Nat)
  /-- COPY_FAULT (R297). -/
  | copyFault (core : Nat) (cmd : Nat)
  /-- COPY_RESTART (R298). -/
  | copyRestart (core : Nat) (cmd : Nat)
  /-- COPY_RESUME (R298). -/
  | copyResume (core : Nat) (cmd : Nat) (terminate : Bool)
  /-- MMA_START (R318). -/
  | mmaStart (core : Nat) (mma : Nat)
  /-- MMA_COMPLETE (R318). -/
  | mmaComplete (core : Nat) (mma : Nat)
  /-- SIGNAL_STORE (R397). -/
  | signalStore (sender : Sender) (die : Nat) (box : Nat) (value : BitVec 32)
  /-- FULLING_OPERAND_ARRIVAL (R259). -/
  | fullingOperandArrival (msg : Nat)
  /-- FULLING_SPILL_REFILL (R266). -/
  | fullingSpillRefill (ctx : Nat) (capacity : BitVec 32)
  /-- FULLING_RELOAD (R267). -/
  | fullingReload (node : Nat)
  /-- FSEND_RETRY (R269). -/
  | fsendRetry (msg : Nat)
  /-- FSEND_OVERFLOW (R270). -/
  | fsendOverflow (msg : Nat)
  /-- ORPHAN_EXPIRY (R271). -/
  | orphanExpiry (msg : Nat)
  /-- SPILL_SWEEP (R271). -/
  | spillSweep (node : Nat)
  /-- FULLING_DELIVERY (R264). -/
  | fullingDelivery (msg : Nat)
  /-- HELD_DELIVERY_EXPIRY (R264). -/
  | heldDeliveryExpiry (msg : Nat)
  /-- TEAM_PLACEMENT (R391). -/
  | teamPlacement (die : Nat)
  /-- LAUNCH_MESSAGE (R394). -/
  | launchMessage (block : Nat)
  /-- TEAM_END (R300). -/
  | teamEnd (team : Nat)
  /-- GRID_END (R384). -/
  | gridEnd (grid : Nat)
  /-- PAGE_WALK (R401). -/
  | pageWalk (core : Nat) (ctx : Nat) (va : BitVec 80) (kind : Nat)
  /-- MIGRATING_RETRY (R401). -/
  | migratingRetry (core : Nat) (ctx : Nat) (va : BitVec 80) (kind : Nat)
  /-- INVALIDATION_ACK (R411). -/
  | invalidationAck (req : Nat)
  /-- SUPERVISOR_ENTRY (R420). -/
  | supervisorEntry (core : Nat)
  /-- HOST_TRAP_ACTION (R417). -/
  | hostTrapAction (core : Nat) (slot : Nat) (action : BitVec 32) (hwm : BitVec 32)
  /-- PREEMPT_SAVE (R431). -/
  | preemptSave (core : Nat) (tslot : Nat)
  /-- PREEMPT_LIMIT_EXPIRY (R433). -/
  | preemptLimitExpiry (core : Nat) (tslot : Nat)
  /-- WATCHDOG (R429). -/
  | watchdog (team : Nat)
  /-- DEBUG_HALT (R435). -/
  | debugHalt (core : Nat)
  /-- DEBUG_RESUME (R435). -/
  | debugResume (core : Nat)
  /-- PEER_LINK_DOWN (R409). -/
  | peerLinkDown (port : Nat)
  /-- PEER_LINK_UP (R409). -/
  | peerLinkUp (port : Nat)
  /-- FLIT_REPLAY (R437). -/
  | flitReplay (link : Nat)
  /-- UNCORRECTABLE_FLIT (R428). -/
  | uncorrectableFlit (link : Nat) (line : Nat) (core : Nat) (slot : Nat) (control : Bool)
  /-- MODULE_LANE_FAILURE (R437). -/
  | moduleLaneFailure (link : Nat)
  /-- POWER_THROTTLE (R22). -/
  | powerThrottle (die : Nat)
  /-- THERMAL_THROTTLE (R447). -/
  | thermalThrottle (die : Nat)
  /-- THERMTRIP (R447). -/
  | thermtrip
  /-- RESET (R443). -/
  | reset
  /-- ATTESTATION_REQUEST (R445). -/
  | attestationRequest (nonce : BitVec 256)
  /-- SL_PIN (R446). -/
  | slPin (line : Nat)
  /-- SL_UNPIN (R446). -/
  | slUnpin (line : Nat)
  /-- SL_BYPASS_CLEAR (R446). -/
  | slBypassClear (slice : Nat) (mask : BitVec 32)
  /-- CONTEXT_BINDING_WRITE (R442). -/
  | contextBindingWrite (index : Nat) (ctx : Nat) (port : Nat) (remote : Nat)
  /-- CONTROL_NODE_MEMORY_ACCESS (R440). -/
  | controlNodeMemoryAccess (pa : Nat) (msg : Nat) (write : Bool)
  /-- SHOOTDOWN_REQUEST (R449). -/
  | shootdownRequest (ctx : Nat) (va : BitVec 80) (pages : Nat)
  /-- HARVEST_REQUEST (R449). -/
  | harvestRequest (ctx : Nat) (va : BitVec 80) (pages : Nat)
  /-- CARDING_SPILL_ALLOCATION (R201). -/
  | cardingSpillAllocation (team : Nat) (table : Nat) (base : BitVec 64) (refuse : Bool)
  /-- DRAM_SCRUB (R448). -/
  | dramScrub (line : Nat)
  /-- SRAM_SCRUB (R448). -/
  | sramScrub (line : Nat)
  /-- SCRUBLATE (R449). -/
  | scrublate
  /-- UCIE_RETRAINING (R448). -/
  | ucieRetraining (link : Nat)
  /-- GDDR7_RETRAINING (R448). -/
  | gddr7Retraining (device : Nat)
  /-- AGING_MONITOR (R448). -/
  | agingMonitor
  /-- FLASH_WEAR_LEVELLING (R448). -/
  | flashWearLevelling
  /-- TELEMETRY (R448). -/
  | telemetry
  /-- RAY_UNIT_COMPLETE (R323). -/
  | rayUnitComplete (core : Nat) (op : Nat)
  /-- RAY_LANE_RESTART (R325). -/
  | rayLaneRestart (core : Nat) (op : Nat) (lane : Nat)
  /-- REUSE_JOB_START (R372). -/
  | reuseJobStart (core : Nat) (job : Nat)
  /-- REUSE_BATCH (R376). -/
  | reuseBatch (core : Nat) (job : Nat)
  /-- REUSE_MERGE (R375). -/
  | reuseMerge (core : Nat) (job : Nat)
  /-- REUSE_JOB_COMPLETE (R379). -/
  | reuseJobComplete (core : Nat) (job : Nat)
  /-- BRIM_ARRIVAL (R370). -/
  | brimArrival (core : Nat) (op : Nat)
  /-- TAG_NODE_ACKNOWLEDGEMENT (R255). -/
  | tagNodeAcknowledgement (req : Nat)
  /-- DIRTY_HARVEST_COMPLETE (R414). -/
  | dirtyHarvestComplete (req : Nat)
  /-- ZEROING_COMPLETE (R304). -/
  | zeroingComplete (core : Nat) (slot : Nat)
  /-- TASK_QUEUE_ACCEPTANCE (R388). -/
  | taskQueueAcceptance (msg : Nat)
  /-- THERMAL_THROTTLE_END (R447). -/
  | thermalThrottleEnd (die : Nat)
  /-- PEER_PORT_REQUEST (R442). -/
  | peerPortRequest (port : Nat) (pa : Nat) (msg : Nat) (write : Bool)
deriving DecidableEq, Repr

/-- The fulling message that an event brings to its node, sent or tried again (R259, R269). -/
def Event.arrival : Event → Option Nat
  | .fullingOperandArrival msg => some msg
  | .fsendRetry msg => some msg
  | _ => none

end Sys2Proof.Machine
end

