-- ==== Sys2Proof/Machine/Store.lean ====
section
/-! DEFINITION. Sys2Proof/Machine/Store.lean: sparse data in one canonical form. A keyed list has strictly rising keys; a store of
words is a keyed list that lists no zero, so that equal contents are equal data. What an unlisted address reads as is zero
(log 1). -/

namespace Sys2Proof.Machine

/-- Records by number, in rising order of their numbers. -/
abbrev Keyed (α : Type) := List (Nat × α)

/-- Words of `w` bits by address; an unlisted address reads as 0. -/
abbrev Store (w : Nat) := List (Nat × BitVec w)

/-- Memory: bytes by address (Host.Cell). -/
abbrev Memory := Store 8

/-- The record numbered `a`, if there is one. -/
def keyFind {α : Type} : Keyed α → Nat → Option α
  | [], _ => none
  | (k, v) :: r, a => if a = k then some v else keyFind r a

/-- The list with `v` as the record numbered `a`. -/
def keyPut {α : Type} : Keyed α → Nat → α → Keyed α
  | [], a, v => [(a, v)]
  | (k, u) :: r, a, v =>
    if a < k then (a, v) :: (k, u) :: r else if a = k then (k, v) :: r else (k, u) :: keyPut r a v

/-- The list without a record numbered `a`. -/
def keyDrop {α : Type} : Keyed α → Nat → Keyed α
  | [], _ => []
  | (k, u) :: r, a => if a = k then keyDrop r a else (k, u) :: keyDrop r a

/-- The list with the record numbered `a`, if there is one, changed by `f`. -/
def keyModify {α : Type} (m : Keyed α) (a : Nat) (f : α → α) : Keyed α :=
  match keyFind m a with
  | some v => keyPut m a (f v)
  | none => m

/-- The keys rise strictly from above `lo`. -/
def keySortedFrom {α : Type} : Keyed α → Nat → Bool
  | [], _ => true
  | (k, _) :: r, lo => decide (lo ≤ k) && keySortedFrom r (k + 1)

/-- The keys rise strictly. -/
def keySorted {α : Type} (m : Keyed α) : Bool := keySortedFrom m 0

/-- What address `a` reads as. -/
def storeRead {w : Nat} (m : Store w) (a : Nat) : BitVec w := (keyFind m a).getD 0#w

/-- The store after `v` is written at `a`. -/
def storeWrite {w : Nat} (m : Store w) (a : Nat) (v : BitVec w) : Store w :=
  if v = 0#w then keyDrop m a else keyPut m a v

/-- The canonical form of a store: rising addresses and no listed zero. -/
def storeWf {w : Nat} (m : Store w) : Bool := keySorted m && m.all (fun e => e.2 != 0#w)

/-- The canonical form of memory. -/
def Memory.wf (m : Memory) : Bool := storeWf m

/-- The list written to `f` at every address of `as`, in their order. -/
def storeFill {w : Nat} (m : Store w) (as : List Nat) (f : Nat → BitVec w) : Store w :=
  as.foldl (fun m a => storeWrite m a (f a)) m

/-- `n` bytes from `a` on, as one little-endian number (R2). -/
def readBytes (m : Memory) (a : Nat) : Nat → Nat
  | 0 => 0
  | n + 1 => (storeRead m a).toNat + 256 * readBytes m (a + 1) n

/-- The low `n` bytes of `v`, stored little-endian from `a` on (R2). -/
def writeBytes (m : Memory) (a : Nat) : Nat → Nat → Memory
  | 0, _ => m
  | n + 1, v => writeBytes (storeWrite m a (BitVec.ofNat 8 v)) (a + 1) n (v / 256)

/-- The addresses `a`, `a + 1`, … `a + n - 1`. -/
def span (a n : Nat) : List Nat := (List.range n).map (a + ·)

/-- The bytes from `a` on, `n` of them. -/
def bytesAt (m : Memory) (a n : Nat) : List Byte := (span a n).map (storeRead m)

/-- The low `n` bytes of a number, least first (R2). -/
def leBytes : Nat → Nat → List Byte
  | 0, _ => []
  | n + 1, v => BitVec.ofNat 8 v :: leBytes n (v / 256)

/-- The number that bytes make, least first (R2). -/
def leNat : List Byte → Nat
  | [] => 0
  | b :: r => b.toNat + 256 * leNat r

/-- Bytes stored one after another from `a` on. -/
def putBytes (m : Memory) (a : Nat) : List Byte → Memory
  | [] => m
  | b :: r => putBytes (storeWrite m a b) (a + 1) r

/-- The entries whose addresses lie from `a` to `a + n - 1`, dropped: those addresses read as 0 after. -/
def storeClear {w : Nat} (m : Store w) (a n : Nat) : Store w := m.filter (fun e => !(decide (a ≤ e.1) && decide (e.1 < a + n)))

/-- The entries whose addresses lie from `a` to `a + n - 1`, moved to start at 0. -/
def storeCut {w : Nat} (m : Store w) (a n : Nat) : Store w :=
  (m.filter (fun e => decide (a ≤ e.1) && decide (e.1 < a + n))).map (fun e => (e.1 - a, e.2))

/-- A list of stored entries written over `m` from `a` on, the range of `n` addresses cleared first. -/
def storePaste {w : Nat} (m : Store w) (a n : Nat) (x : Store w) : Store w :=
  x.foldl (fun m e => storeWrite m (a + e.1) e.2) (storeClear m a n)

end Sys2Proof.Machine
end

