-- ==== Sys2Proof/Syntax.lean ====
section
/-! DEFINITION. Sys2Proof/Syntax.lean: the steps of the module as syntax, one constructor per row of spec/opcode_table.json.
An encoded row carries the fields of its encoding, at the widths of Tables 2.5 to 2.7 (02_instruction_formats.md); the literal word
of R31 is not a field (the step reads it from the code stream). An event row has no encoding: it carries the names (numbers of
cores, groups, operations, messages) of what the step is about. -/

namespace Sys2Proof

/-- One step of the module: an instruction, a prefix, a clause header, or an event (95_what_each_step_holds.md). -/
inductive Instr where
  /-- CLAUSE_HEADER (R32): Clause header: waits until its WAIT flags are clear, sets the SETA/SETB flag targets and the safe-point and yield marks, and clears y0 and y1 for the clause that follows. -/
  | clauseHeader (y : BitVec 1) (s : BitVec 1) (b : BitVec 4) (a : BitVec 4) (w : BitVec 12)
  /-- MODX_LANE_SELECT (R54): MODX kind 0 prefix: the next 32-bit instruction reads the selected vector operand from another lane (broadcast, XOR, rotate, shift or quad). -/
  | modxLaneSelect (p : BitVec 18)
  /-- MODX_NEGATE_ABS (R55): MODX kind 1 prefix: the next instruction takes the negation or absolute value of its float operands. -/
  | modxNegateAbs (p : BitVec 6)
  /-- MODX_ADDRESS (R56): MODX kind 2 prefix: sets access size, sign extension, 64-bit offsets, window and offset scale for the next M-format or AT-format access. -/
  | modxAddress (p : BitVec 10)
  /-- MODX_ROUNDING (R55): MODX kind 3 prefix: the next instruction rounds in the named mode instead of RNE. -/
  | modxRounding (p : BitVec 3)
  /-- MODX_SETB (R39): MODX kind 4 prefix: the next flag-class operation is assigned to the clause's SETB flag. -/
  | modxSetb
  /-- MODX_SATURATE (R55): MODX kind 5 prefix: the next instruction's result is clamped to the signed or natural range, or for floats to [+0, 1]. -/
  | modxSaturate (n : BitVec 1)
  /-- NOP (R51): Canonical 16-bit NOP (MOV v0, v0): changes no state, reads and writes no register and never raises HAZARD. -/
  | nop
  /-- MOV_16 (R51): 16-bit MOV: D := B on active lanes; result-forming. -/
  | mov16 (b : BitVec 5) (d : BitVec 6)
  /-- IADD_16 (R51): 16-bit IADD: D := D + B in i32, wrapping. -/
  | iadd16 (b : BitVec 5) (d : BitVec 6)
  /-- ISUB_16 (R51): 16-bit ISUB: D := D - B in i32, wrapping. -/
  | isub16 (b : BitVec 5) (d : BitVec 6)
  /-- AND_16 (R51): 16-bit AND: D := D and B. -/
  | and16 (b : BitVec 5) (d : BitVec 6)
  /-- OR_16 (R51): 16-bit OR: D := D or B. -/
  | or16 (b : BitVec 5) (d : BitVec 6)
  /-- XOR_16 (R51): 16-bit XOR: D := D xor B. -/
  | xor16 (b : BitVec 5) (d : BitVec 6)
  /-- SHL_16 (R51): 16-bit SHL: D := D << B[4:0]. -/
  | shl16 (b : BitVec 5) (d : BitVec 6)
  /-- SHR_16 (R51): 16-bit SHR: D := D >> B[4:0], shifting in zeros. -/
  | shr16 (b : BitVec 5) (d : BitVec 6)
  /-- SAR_16 (R51): 16-bit SAR: arithmetic right shift of D by B[4:0]. -/
  | sar16 (b : BitVec 5) (d : BitVec 6)
  /-- IMIN_I_16 (R51): 16-bit IMIN.I: signed minimum of D and B. -/
  | iminI16 (b : BitVec 5) (d : BitVec 6)
  /-- IMAX_I_16 (R51): 16-bit IMAX.I: signed maximum of D and B. -/
  | imaxI16 (b : BitVec 5) (d : BitVec 6)
  /-- FADD_16 (R51): 16-bit FADD: D := D + B in f32, RNE. -/
  | fadd16 (b : BitVec 5) (d : BitVec 6)
  /-- FSUB_16 (R51): 16-bit FSUB: D := D - B in f32, RNE. -/
  | fsub16 (b : BitVec 5) (d : BitVec 6)
  /-- FMUL_16 (R51): 16-bit FMUL: D := D × B in f32, RNE. -/
  | fmul16 (b : BitVec 5) (d : BitVec 6)
  /-- FMIN_16 (R51): 16-bit FMIN: minimumNumber of D and B. -/
  | fmin16 (b : BitVec 5) (d : BitVec 6)
  /-- FMAX_16 (R51): 16-bit FMAX: maximumNumber of D and B. -/
  | fmax16 (b : BitVec 5) (d : BitVec 6)
  /-- BRA (R121): Unconditional branch to a clause header; ends the clause. -/
  | bra (o : BitVec 15)
  /-- BREZ (R121): Branch when the split's exec is 0. -/
  | brez (o : BitVec 15)
  /-- BRNEZ (R121): Branch when the split's exec is nonzero. -/
  | brnez (o : BitVec 15)
  /-- BRZ_S (R121): Branch when the scalar source is 0. -/
  | brzS (o : BitVec 15) (s : BitVec 7)
  /-- BRNZ_S (R121): Branch when the scalar source is nonzero. -/
  | brnzS (o : BitVec 15) (s : BitVec 7)
  /-- BRNEG_S (R121): Branch when bit 31 of the scalar source is 1. -/
  | brnegS (o : BitVec 15) (s : BitVec 7)
  /-- CALL (R122): Branch that writes the code address of the following clause header to the scalar destination as the link. -/
  | call (o : BitVec 15) (s : BitVec 7)
  /-- NOP_W (R123): 32-bit no-operation of major 0x03. -/
  | nopW
  /-- RET (R124): Sets the split's program counter to the scalar value after the target checks; ends the clause. -/
  | ret (s : BitVec 7)
  /-- JMPI (R124): Indirect jump to the scalar value after the target checks; ends the clause. -/
  | jmpi (s : BitVec 7)
  /-- EXIT (R124): Ends the issuing split; the group's last split commits the region as task exit. -/
  | exit
  /-- SPLIT (R125): Partitions the active lanes by path index into up to four child splits and suspends the parent on the split-set stack. -/
  | split (j : BitVec 2) (b : BitVec 7) (a : BitVec 7)
  /-- JOIN (R127): Parks the issuing child at the join; when every live child is parked the set joins and the parent resumes. -/
  | join (j : BitVec 2)
  /-- YIELD (R131): Sets the split's ready time to the current clk and excludes it from continued issue for one clk. -/
  | yield
  /-- SLEEP (R132): Makes the split not ready for value(s) + n clk. -/
  | sleep (n : BitVec 6) (s : BitVec 7)
  /-- WAITP (R133): Stalls the split until path counter k is at or below the threshold; on P1 it first commits the region. -/
  | waitp (p : BitVec 3) (s : BitVec 7)
  /-- BAR_TEAM (R138): Commits the region and arrives at team barrier b; the barrier releases when its expected count of groups has arrived. -/
  | barTeam (b : BitVec 4) (s : BitVec 7)
  /-- BAR_CLU (R138): Commits the region and arrives at cluster barrier b. -/
  | barClu (b : BitVec 2) (s : BitVec 7)
  /-- BAR_SCOPE (R138): Commits the region, waits as FENCE on scope c, then arrives at the per-die scope barrier keyed by value(k). -/
  | barScope (c : BitVec 5) (k : BitVec 7) (s : BitVec 7)
  /-- WAITX (R398): Commits and arrives team-wide; the team is released once all live groups have arrived and the mailbox condition holds. -/
  | waitx (m : BitVec 4) (s : BitVec 7)
  /-- GANGSET (R135): Writes sys.gang after the gang checks, or raises GANGMIS. -/
  | gangset (s : BitVec 7)
  /-- TRAP (R422): Raises cause TRAP with INFO A = n. -/
  | trap (n : BitVec 6)
  /-- ERET (R421): Applies the ACTION of the selected trap record, releases the record and parks the supervisor; privileged. -/
  | eret
  /-- HALT (R422): Puts the issuing core into debug halt; privileged. -/
  | halt
  /-- BKPT (R422): Raises cause BKPT with INFO A = n. -/
  | bkpt (n : BitVec 6)
  /-- RCOMMIT (R219): Explicit commit point: commits the group's region. -/
  | rcommit
  /-- TXBEGIN (R241): Commits the region and opens a per-lane transaction on the active lanes. -/
  | txbegin
  /-- TXEND (R244): Closes the transaction: aborts conflicting and invalid lanes, publishes the survivors' writes in one commit and writes the abort mask and cause word. -/
  | txend (d : BitVec 7)
  /-- TXABORT (R243): Aborts the active member lanes of the transaction with cause EXPLICIT and code n. -/
  | txabort (n : BitVec 6)
  /-- FENCE (R234): Commits the region, then stalls until every earlier engine command to agents within scope c has completed. -/
  | fence (c : BitVec 5)
  /-- SADD (R147): Scalar add, wrapping. -/
  | sadd (b : BitVec 7) (a : BitVec 7) (d : BitVec 7)
  /-- SSUB (R147): Scalar subtract, wrapping. -/
  | ssub (b : BitVec 7) (a : BitVec 7) (d : BitVec 7)
  /-- SMUL (R147): Scalar multiply, low 32 bits. -/
  | smul (b : BitVec 7) (a : BitVec 7) (d : BitVec 7)
  /-- SMULH_I (R147): Scalar signed multiply, high 32 bits. -/
  | smulhI (b : BitVec 7) (a : BitVec 7) (d : BitVec 7)
  /-- SMULH_N (R147): Scalar natural multiply, high 32 bits. -/
  | smulhN (b : BitVec 7) (a : BitVec 7) (d : BitVec 7)
  /-- SMIN_I (R147): Scalar signed minimum. -/
  | sminI (b : BitVec 7) (a : BitVec 7) (d : BitVec 7)
  /-- SMAX_I (R147): Scalar signed maximum. -/
  | smaxI (b : BitVec 7) (a : BitVec 7) (d : BitVec 7)
  /-- SMIN_N (R147): Scalar natural minimum. -/
  | sminN (b : BitVec 7) (a : BitVec 7) (d : BitVec 7)
  /-- SMAX_N (R147): Scalar natural maximum. -/
  | smaxN (b : BitVec 7) (a : BitVec 7) (d : BitVec 7)
  /-- SAND (R147): Scalar bitwise AND. -/
  | sand (b : BitVec 7) (a : BitVec 7) (d : BitVec 7)
  /-- SOR (R147): Scalar bitwise OR. -/
  | sor (b : BitVec 7) (a : BitVec 7) (d : BitVec 7)
  /-- SXOR (R147): Scalar bitwise XOR. -/
  | sxor (b : BitVec 7) (a : BitVec 7) (d : BitVec 7)
  /-- SANDN (R147): Scalar a and not b. -/
  | sandn (b : BitVec 7) (a : BitVec 7) (d : BitVec 7)
  /-- SSHL (R147): Scalar shift left by b[4:0]. -/
  | sshl (b : BitVec 7) (a : BitVec 7) (d : BitVec 7)
  /-- SSHR (R147): Scalar logical shift right by b[4:0]. -/
  | sshr (b : BitVec 7) (a : BitVec 7) (d : BitVec 7)
  /-- SSAR (R147): Scalar arithmetic shift right by b[4:0]. -/
  | ssar (b : BitVec 7) (a : BitVec 7) (d : BitVec 7)
  /-- SCMP_EQ (R147): Scalar compare equal, writing 1 or 0. -/
  | scmpEq (b : BitVec 7) (a : BitVec 7) (d : BitVec 7)
  /-- SCMP_NE (R147): Scalar compare not equal. -/
  | scmpNe (b : BitVec 7) (a : BitVec 7) (d : BitVec 7)
  /-- SCMP_LT_I (R147): Scalar signed less-than. -/
  | scmpLtI (b : BitVec 7) (a : BitVec 7) (d : BitVec 7)
  /-- SCMP_LE_I (R147): Scalar signed less-or-equal. -/
  | scmpLeI (b : BitVec 7) (a : BitVec 7) (d : BitVec 7)
  /-- SCMP_LT_N (R147): Scalar natural less-than. -/
  | scmpLtN (b : BitVec 7) (a : BitVec 7) (d : BitVec 7)
  /-- SCMP_LE_N (R147): Scalar natural less-or-equal. -/
  | scmpLeN (b : BitVec 7) (a : BitVec 7) (d : BitVec 7)
  /-- SSEL (R148): Scalar select: writes a if the old value of D is nonzero, else b. -/
  | ssel (b : BitVec 7) (a : BitVec 7) (d : BitVec 7)
  /-- SCLZ (R147): Scalar count of leading zeros. -/
  | sclz (a : BitVec 7) (d : BitVec 7)
  /-- SPOPC (R147): Scalar population count. -/
  | spopc (a : BitVec 7) (d : BitVec 7)
  /-- SBREV (R147): Scalar bit reverse. -/
  | sbrev (a : BitVec 7) (d : BitVec 7)
  /-- SCTZ (R147): Scalar count of trailing zeros. -/
  | sctz (a : BitVec 7) (d : BitVec 7)
  /-- SADD64 (R149): Scalar 64-bit add of register pairs. -/
  | sadd64 (b : BitVec 7) (a : BitVec 7) (d : BitVec 7)
  /-- SSUB64 (R149): Scalar 64-bit subtract of register pairs. -/
  | ssub64 (b : BitVec 7) (a : BitVec 7) (d : BitVec 7)
  /-- SSHL64 (R149): Scalar 64-bit shift left by b[5:0]. -/
  | sshl64 (b : BitVec 7) (a : BitVec 7) (d : BitVec 7)
  /-- SSHR64 (R149): Scalar 64-bit logical shift right by b[5:0]. -/
  | sshr64 (b : BitVec 7) (a : BitVec 7) (d : BitVec 7)
  /-- SMUL64 (R149): Scalar 64-bit multiply, low 64 bits. -/
  | smul64 (b : BitVec 7) (a : BitVec 7) (d : BitVec 7)
  /-- SADDI (R150): Scalar add of a sign-extended 11-bit immediate. -/
  | saddi (i : BitVec 11) (a : BitVec 7) (d : BitVec 7)
  /-- SANDI (R150): Scalar AND with a sign-extended 11-bit immediate. -/
  | sandi (i : BitVec 11) (a : BitVec 7) (d : BitVec 7)
  /-- SSHLI (R150): Scalar shift left by an immediate count. -/
  | sshli (i : BitVec 5) (a : BitVec 7) (d : BitVec 7)
  /-- SSHRI (R150): Scalar logical shift right by an immediate count. -/
  | sshri (i : BitVec 5) (a : BitVec 7) (d : BitVec 7)
  /-- SLTI (R150): Scalar signed less-than against an immediate. -/
  | slti (i : BitVec 11) (a : BitVec 7) (d : BitVec 7)
  /-- SRD (R153): Reads system register number n into a scalar destination. -/
  | srd (n : BitVec 7) (d : BitVec 7)
  /-- SWR (R153): Writes a scalar value to a system register that has no row of its own, under its Access column; protected registers raise PRIV in program mode. -/
  | swr (n : BitVec 7) (a : BitVec 7)
  /-- SYS_CLOCK_READ (R156): A read of sys.clock returns the low 32 bits of the count and latches the high 32 bits into the group's sys.clockhi. -/
  | sysClockRead (d : BitVec 7)
  /-- SYS_GANG_WRITE (R135): An SWR to sys.gang makes the gang checks and either writes the mask or raises GANGMIS. -/
  | sysGangWrite (a : BitVec 7)
  /-- SYS_FPFLAGS_WRITE (R155): An SWR to sys.fpflags stores its value first, with flags of operations completing in the same clk ORed in. -/
  | sysFpflagsWrite (a : BitVec 7)
  /-- SYS_FAULTMASK_CLEAR (R188): A write to sys.faultmask clears each bit written as 1. -/
  | sysFaultmaskClear (a : BitVec 7)
  /-- CONTEXT_REGISTER_WRITE (R157): An SWR to a context-scoped register (scope masks, lease, orphan, windows, page-table root and the like) holds the group until every core running the context holds the new value. -/
  | contextRegisterWrite (n : BitVec 7) (a : BitVec 7)
  /-- PREEMPT_REQUEST (R430): Setting bit t of sys.preempt requests pre-emption of team slot t and its cluster, each group stopping at its next safe point. -/
  | preemptRequest (core : Nat) (mask : BitVec 8)
  /-- CONTEXT_SUSPEND (R434): sys.ctxstate op 1 broadcasts a suspend to every fulling node, stopping the context's orphan clocks, and stops placement of its entries. -/
  | contextSuspend (ctx : Nat)
  /-- CONTEXT_RESUME (R434): sys.ctxstate op 2 reverses a suspend. -/
  | contextResume (ctx : Nat)
  /-- CONTEXT_MARK_FAILED (R427): The context is marked failed: its teams stop, regions are discarded, engines stop writing, queued cards are dropped and grids complete FAILED. -/
  | contextMarkFailed (ctx : Nat)
  /-- TLBINV_RANGE (R410): Removes every translation of the context, and every global one, overlapping n 64 KiB pages, and writes the status once acknowledged; privileged. -/
  | tlbinvRange (b : BitVec 7) (a : BitVec 7) (d : BitVec 7)
  /-- TLBINV_CTX (R410): Removes every non-global translation of a context, or of every context with ALL; privileged. -/
  | tlbinvCtx (a : BitVec 7) (d : BitVec 7)
  /-- DHARV (R414): Walks a range, reads and clears slice write records and sets leaf D bits, returning the count of leaves newly marked dirty; privileged. -/
  | dharv (b : BitVec 7) (a : BitVec 7) (d : BitVec 7)
  /-- TAGPURGE (R255): Removes every fulling entry of a context from all nodes, frees its tag table and raises generations; privileged. -/
  | tagpurge (a : BitVec 7)
  /-- IADD (R165): Vector i32 add, wrapping. -/
  | iadd (b : BitVec 8) (a : BitVec 8) (d : BitVec 8)
  /-- ISUB (R165): Vector i32 subtract, wrapping. -/
  | isub (b : BitVec 8) (a : BitVec 8) (d : BitVec 8)
  /-- IMUL (R165): Vector multiply, low 32 bits. -/
  | imul (b : BitVec 8) (a : BitVec 8) (d : BitVec 8)
  /-- IMULH_I (R165): Vector signed multiply, high 32 bits. -/
  | imulhI (b : BitVec 8) (a : BitVec 8) (d : BitVec 8)
  /-- IMULH_N (R165): Vector natural multiply, high 32 bits. -/
  | imulhN (b : BitVec 8) (a : BitVec 8) (d : BitVec 8)
  /-- IMAD (R165): Vector a × b + c, low 32 bits; three-source. -/
  | imad (b : BitVec 8) (a : BitVec 8) (d : BitVec 8)
  /-- IMIN_I (R165): Vector signed minimum. -/
  | iminI (b : BitVec 8) (a : BitVec 8) (d : BitVec 8)
  /-- IMAX_I (R165): Vector signed maximum. -/
  | imaxI (b : BitVec 8) (a : BitVec 8) (d : BitVec 8)
  /-- IMIN_N (R165): Vector natural minimum. -/
  | iminN (b : BitVec 8) (a : BitVec 8) (d : BitVec 8)
  /-- IMAX_N (R165): Vector natural maximum. -/
  | imaxN (b : BitVec 8) (a : BitVec 8) (d : BitVec 8)
  /-- AND (R165): Vector bitwise AND. -/
  | and (b : BitVec 8) (a : BitVec 8) (d : BitVec 8)
  /-- OR (R165): Vector bitwise OR. -/
  | or (b : BitVec 8) (a : BitVec 8) (d : BitVec 8)
  /-- XOR (R165): Vector bitwise XOR. -/
  | xor (b : BitVec 8) (a : BitVec 8) (d : BitVec 8)
  /-- ANDN (R165): Vector a and not b. -/
  | andn (b : BitVec 8) (a : BitVec 8) (d : BitVec 8)
  /-- SHL (R165): Vector shift left by b[4:0]. -/
  | shl (b : BitVec 8) (a : BitVec 8) (d : BitVec 8)
  /-- SHR (R165): Vector logical shift right by b[4:0]. -/
  | shr (b : BitVec 8) (a : BitVec 8) (d : BitVec 8)
  /-- SAR (R165): Vector arithmetic shift right by b[4:0]. -/
  | sar (b : BitVec 8) (a : BitVec 8) (d : BitVec 8)
  /-- ROL (R165): Vector rotate left by b[4:0]. -/
  | rol (b : BitVec 8) (a : BitVec 8) (d : BitVec 8)
  /-- CLZ (R166): Vector count of leading zeros. -/
  | clz (a : BitVec 8) (d : BitVec 8)
  /-- POPC (R166): Vector population count. -/
  | popc (a : BitVec 8) (d : BitVec 8)
  /-- BREV (R166): Vector bit reverse. -/
  | brev (a : BitVec 8) (d : BitVec 8)
  /-- CTZ (R166): Vector count of trailing zeros. -/
  | ctz (a : BitVec 8) (d : BitVec 8)
  /-- IABS (R166): Vector absolute value, wrapping. -/
  | iabs (a : BitVec 8) (d : BitVec 8)
  /-- INEG (R166): Vector negate, wrapping. -/
  | ineg (a : BitVec 8) (d : BitVec 8)
  /-- FRCP (R171): Flag-class f32 reciprocal, correctly rounded RNE. -/
  | frcp (a : BitVec 8) (d : BitVec 8)
  /-- FRSQ (R171): Flag-class f32 reciprocal square root. -/
  | frsq (a : BitVec 8) (d : BitVec 8)
  /-- FSQRT (R171): Flag-class f32 square root in the mode in force. -/
  | fsqrt (a : BitVec 8) (d : BitVec 8)
  /-- FEXP2 (R171): Flag-class f32 2^a. -/
  | fexp2 (a : BitVec 8) (d : BitVec 8)
  /-- FLOG2 (R171): Flag-class f32 log2 a. -/
  | flog2 (a : BitVec 8) (d : BitVec 8)
  /-- FSIN (R171): Flag-class f32 sin(2πa). -/
  | fsin (a : BitVec 8) (d : BitVec 8)
  /-- FCOS (R171): Flag-class f32 cos(2πa). -/
  | fcos (a : BitVec 8) (d : BitVec 8)
  /-- FFRACT (R171): f32 a − floor(a), rounded RTZ. -/
  | ffract (a : BitVec 8) (d : BitVec 8)
  /-- FRINT_RNE (R171): Rounds to an integral f32 value, nearest-even. -/
  | frintRne (a : BitVec 8) (d : BitVec 8)
  /-- FRINT_RTZ (R171): Rounds to an integral f32 value toward zero. -/
  | frintRtz (a : BitVec 8) (d : BitVec 8)
  /-- FRINT_RDN (R171): Rounds to an integral f32 value toward −∞. -/
  | frintRdn (a : BitVec 8) (d : BitVec 8)
  /-- FRINT_RUP (R171): Rounds to an integral f32 value toward +∞. -/
  | frintRup (a : BitVec 8) (d : BitVec 8)
  /-- BFE (R167): Bit-field extract with offset, width and sign bit from b. -/
  | bfe (b : BitVec 8) (a : BitVec 8) (d : BitVec 8)
  /-- BFI (R167): Bit-field insert into the old D; three-source. -/
  | bfi (b : BitVec 8) (a : BitVec 8) (d : BitVec 8)
  /-- ILV2 (R168): Interleaves two 16-bit fields into a Morton code. -/
  | ilv2 (b : BitVec 8) (a : BitVec 8) (d : BitVec 8)
  /-- ILV3 (R168): Interleaves three 10-bit fields into a 30-bit Morton code; three-source. -/
  | ilv3 (b : BitVec 8) (a : BitVec 8) (d : BitVec 8)
  /-- DILV2 (R168): Extracts one of two interleaved fields. -/
  | dilv2 (b : BitVec 8) (a : BitVec 8) (d : BitVec 8)
  /-- DILV3 (R168): Extracts one of three interleaved fields. -/
  | dilv3 (b : BitVec 8) (a : BitVec 8) (d : BitVec 8)
  /-- FADD (R170): f32 add. -/
  | fadd (b : BitVec 8) (a : BitVec 8) (d : BitVec 8)
  /-- FSUB (R170): f32 subtract. -/
  | fsub (b : BitVec 8) (a : BitVec 8) (d : BitVec 8)
  /-- FMUL (R170): f32 multiply. -/
  | fmul (b : BitVec 8) (a : BitVec 8) (d : BitVec 8)
  /-- FFMA (R170): f32 fused multiply-add with one rounding; three-source. -/
  | ffma (b : BitVec 8) (a : BitVec 8) (d : BitVec 8)
  /-- FMIN (R170): f32 minimumNumber. -/
  | fmin (b : BitVec 8) (a : BitVec 8) (d : BitVec 8)
  /-- FMAX (R170): f32 maximumNumber. -/
  | fmax (b : BitVec 8) (a : BitVec 8) (d : BitVec 8)
  /-- FDIV (R170): Flag-class f32 division. -/
  | fdiv (b : BitVec 8) (a : BitVec 8) (d : BitVec 8)
  /-- FCPYS (R170): Copies a with the sign bit of b. -/
  | fcpys (b : BitVec 8) (a : BitVec 8) (d : BitVec 8)
  /-- HADD2 (R172): Packed f16 add. -/
  | hadd2 (b : BitVec 8) (a : BitVec 8) (d : BitVec 8)
  /-- HMUL2 (R172): Packed f16 multiply. -/
  | hmul2 (b : BitVec 8) (a : BitVec 8) (d : BitVec 8)
  /-- HFMA2 (R172): Packed f16 fused multiply-add; three-source. -/
  | hfma2 (b : BitVec 8) (a : BitVec 8) (d : BitVec 8)
  /-- BFMA2 (R172): Packed bf16 fused multiply-add; three-source. -/
  | bfma2 (b : BitVec 8) (a : BitVec 8) (d : BitVec 8)
  /-- DADD (R173): Flag-class f64 add on register pairs. -/
  | dadd (b : BitVec 8) (a : BitVec 8) (d : BitVec 8)
  /-- DMUL (R173): Flag-class f64 multiply. -/
  | dmul (b : BitVec 8) (a : BitVec 8) (d : BitVec 8)
  /-- DFMA (R173): Flag-class f64 fused multiply-add. -/
  | dfma (b : BitVec 8) (a : BitVec 8) (d : BitVec 8)
  /-- DDIV (R173): Flag-class f64 division, correctly rounded. -/
  | ddiv (b : BitVec 8) (a : BitVec 8) (d : BitVec 8)
  /-- ICMP_EQ (R175): Compares lanes for bit equality into a scalar lane mask. -/
  | icmpEq (b : BitVec 8) (a : BitVec 8) (d : BitVec 7)
  /-- ICMP_NE (R175): Compares lanes for inequality into a scalar mask. -/
  | icmpNe (b : BitVec 8) (a : BitVec 8) (d : BitVec 7)
  /-- ICMP_LT_I (R175): Signed less-than into a scalar mask. -/
  | icmpLtI (b : BitVec 8) (a : BitVec 8) (d : BitVec 7)
  /-- ICMP_LE_I (R175): Signed less-or-equal into a scalar mask. -/
  | icmpLeI (b : BitVec 8) (a : BitVec 8) (d : BitVec 7)
  /-- ICMP_LT_N (R175): Natural less-than into a scalar mask. -/
  | icmpLtN (b : BitVec 8) (a : BitVec 8) (d : BitVec 7)
  /-- ICMP_LE_N (R175): Natural less-or-equal into a scalar mask. -/
  | icmpLeN (b : BitVec 8) (a : BitVec 8) (d : BitVec 7)
  /-- FCMP_EQ (R175): Ordered f32 equality into a scalar mask. -/
  | fcmpEq (b : BitVec 8) (a : BitVec 8) (d : BitVec 7)
  /-- FCMP_NE (R175): f32 not-equal (true for NaN) into a scalar mask. -/
  | fcmpNe (b : BitVec 8) (a : BitVec 8) (d : BitVec 7)
  /-- FCMP_LT (R175): Ordered f32 less-than, signalling on NaN. -/
  | fcmpLt (b : BitVec 8) (a : BitVec 8) (d : BitVec 7)
  /-- FCMP_LE (R175): Ordered f32 less-or-equal, signalling on NaN. -/
  | fcmpLe (b : BitVec 8) (a : BitVec 8) (d : BitVec 7)
  /-- FCMP_UN (R175): f32 unordered test into a scalar mask. -/
  | fcmpUn (b : BitVec 8) (a : BitVec 8) (d : BitVec 7)
  /-- VOTE (R176): Sets bit L of a scalar for each active lane whose value is nonzero. -/
  | vote (a : BitVec 8) (d : BitVec 7)
  /-- SEL (R177): Per lane selects A where the scalar mask bit is 1, otherwise keeps the old D; three-source. -/
  | sel (s : BitVec 7) (a : BitVec 8) (d : BitVec 8)
  /-- MOVS (R177): Broadcasts a scalar value into the active lanes of D. -/
  | movs (s : BitVec 7) (d : BitVec 8)
  /-- LEA (R177): Per lane forms a 64-bit address: scalar pair plus the zero-extended lane offset. -/
  | lea (s : BitVec 7) (a : BitVec 8) (d : BitVec 8)
  /-- READLANE (R177): Copies one lane of A, chosen by the scalar index, into a scalar register. -/
  | readlane (s : BitVec 7) (a : BitVec 8) (d : BitVec 7)
  /-- IADDI (R169): Vector add of a signed 8-bit immediate. -/
  | iaddi (i : BitVec 8) (a : BitVec 8) (d : BitVec 8)
  /-- SHLI (R169): Vector shift left by an immediate count. -/
  | shli (n : BitVec 5) (a : BitVec 8) (d : BitVec 8)
  /-- SHRI (R169): Vector logical shift right by an immediate count. -/
  | shri (n : BitVec 5) (a : BitVec 8) (d : BitVec 8)
  /-- SARI (R169): Vector arithmetic shift right by an immediate count. -/
  | sari (n : BitVec 5) (a : BitVec 8) (d : BitVec 8)
  /-- SHFL_XOR (R178): Flag-class shuffle reading lane L xor k. -/
  | shflXor (k : BitVec 5) (a : BitVec 8) (d : BitVec 8)
  /-- SHFL_UP (R178): Flag-class shuffle reading lane L − n, with zero or own-value fill. -/
  | shflUp (f : BitVec 1) (n : BitVec 5) (a : BitVec 8) (d : BitVec 8)
  /-- SHFL_DN (R178): Flag-class shuffle reading lane L + n, with zero or own-value fill. -/
  | shflDn (f : BitVec 1) (n : BitVec 5) (a : BitVec 8) (d : BitVec 8)
  /-- SEXT (R169): Sign-extends the low w bits of each lane. -/
  | sext (w : BitVec 8) (a : BitVec 8) (d : BitVec 8)
  /-- SHFL_IDX (R178): Flag-class shuffle reading the lane named by B. -/
  | shflIdx (b : BitVec 8) (a : BitVec 8) (d : BitVec 8)
  /-- FCLASS (R174): Writes a one-hot 10-bit class mask of each f32 value. -/
  | fclass (a : BitVec 8) (d : BitVec 8)
  /-- REDX (R179): Flag-class reduction of the active lanes over the fixed lane-pair tree; the result goes to every active lane. -/
  | redx (o : BitVec 4) (a : BitVec 8) (d : BitVec 8)
  /-- SCANX (R179): Flag-class inclusive prefix of the active lanes from the reduction tree. -/
  | scanx (o : BitVec 4) (a : BitVec 8) (d : BitVec 8)
  /-- CVT_F32_I32 (R69): Converts i32 to f32 in the chosen rounding mode. -/
  | cvtF32I32 (r : BitVec 3) (a : BitVec 8) (d : BitVec 8)
  /-- CVT_F32_N32 (R69): Converts n32 to f32. -/
  | cvtF32N32 (r : BitVec 3) (a : BitVec 8) (d : BitVec 8)
  /-- CVT_I32_F32 (R92): Converts f32 to i32, optionally saturating. -/
  | cvtI32F32 (s : BitVec 1) (r : BitVec 3) (a : BitVec 8) (d : BitVec 8)
  /-- CVT_N32_F32 (R92): Converts f32 to n32, optionally saturating. -/
  | cvtN32F32 (s : BitVec 1) (r : BitVec 3) (a : BitVec 8) (d : BitVec 8)
  /-- CVT_F64_F32 (R90): Widens f32 to f64 exactly. -/
  | cvtF64F32 (a : BitVec 8) (d : BitVec 8)
  /-- CVT_F32_F64 (R90): Narrows f64 to f32, optionally saturating. -/
  | cvtF32F64 (s : BitVec 1) (r : BitVec 3) (a : BitVec 8) (d : BitVec 8)
  /-- CVT_F64_I32 (R90): Converts i32 to f64 exactly. -/
  | cvtF64I32 (a : BitVec 8) (d : BitVec 8)
  /-- CVT_F64_N32 (R90): Converts n32 to f64 exactly. -/
  | cvtF64N32 (a : BitVec 8) (d : BitVec 8)
  /-- CVT_I32_F64 (R92): Converts f64 to i32, optionally saturating. -/
  | cvtI32F64 (s : BitVec 1) (r : BitVec 3) (a : BitVec 8) (d : BitVec 8)
  /-- CVT_N32_F64 (R92): Converts f64 to n32, optionally saturating. -/
  | cvtN32F64 (s : BitVec 1) (r : BitVec 3) (a : BitVec 8) (d : BitVec 8)
  /-- CVT_F16_F32 (R90): Narrows f32 to f16, optionally saturating. -/
  | cvtF16F32 (s : BitVec 1) (r : BitVec 3) (a : BitVec 8) (d : BitVec 8)
  /-- CVT_F32_F16 (R90): Widens f16 to f32 exactly. -/
  | cvtF32F16 (a : BitVec 8) (d : BitVec 8)
  /-- CVT_BF16_F32 (R90): Narrows f32 to bf16, optionally saturating. -/
  | cvtBf16F32 (s : BitVec 1) (r : BitVec 3) (a : BitVec 8) (d : BitVec 8)
  /-- CVT_F32_BF16 (R90): Widens bf16 to f32 exactly. -/
  | cvtF32Bf16 (a : BitVec 8) (d : BitVec 8)
  /-- CVT_I64_F64 (R92): Converts f64 to i64, optionally saturating. -/
  | cvtI64F64 (s : BitVec 1) (r : BitVec 3) (a : BitVec 8) (d : BitVec 8)
  /-- CVT_N64_F64 (R92): Converts f64 to n64, optionally saturating. -/
  | cvtN64F64 (s : BitVec 1) (r : BitVec 3) (a : BitVec 8) (d : BitVec 8)
  /-- CVT_F64_I64 (R91): Converts i64 to f64 in the chosen mode. -/
  | cvtF64I64 (r : BitVec 3) (a : BitVec 8) (d : BitVec 8)
  /-- CVT_F64_N64 (R91): Converts n64 to f64 in the chosen mode. -/
  | cvtF64N64 (r : BitVec 3) (a : BitVec 8) (d : BitVec 8)
  /-- CVT_I16_I32 (R69): Narrows i32 to i16, keeping low bits or clamping, sign-extended. -/
  | cvtI16I32 (s : BitVec 1) (a : BitVec 8) (d : BitVec 8)
  /-- CVT_N16_N32 (R69): Narrows n32 to n16, zero-extended. -/
  | cvtN16N32 (s : BitVec 1) (a : BitVec 8) (d : BitVec 8)
  /-- CVT_I8_I32 (R69): Narrows i32 to i8, sign-extended. -/
  | cvtI8I32 (s : BitVec 1) (a : BitVec 8) (d : BitVec 8)
  /-- CVT_N8_N32 (R69): Narrows n32 to n8, zero-extended. -/
  | cvtN8N32 (s : BitVec 1) (a : BitVec 8) (d : BitVec 8)
  /-- CVT_FP19_F32 (R90): Rounds f32 to FP19 with bits [12:0] cleared. -/
  | cvtFp19F32 (s : BitVec 1) (r : BitVec 3) (a : BitVec 8) (d : BitVec 8)
  /-- CVT_F32_FP19 (R69): Reads FP19 as f32 by clearing bits [12:0]. -/
  | cvtF32Fp19 (a : BitVec 8) (d : BitVec 8)
  /-- CULLBF (R181): Back-face and zero-area cull test into a scalar mask. -/
  | cullbf (b : BitVec 8) (a : BitVec 8) (d : BitVec 7)
  /-- CULLFR (R181): Frustum-rectangle cull test into a scalar mask. -/
  | cullfr (b : BitVec 8) (a : BitVec 8) (d : BitVec 7)
  /-- CULLSZ (R181): Small-primitive cull test (no pixel centre covered). -/
  | cullsz (a : BitVec 8) (d : BitVec 7)
  /-- BARY (R182): Computes screen-space barycentric weights u and v for a point. -/
  | bary (b : BitVec 8) (a : BitVec 8) (d : BitVec 8)
  /-- SPLD (R189): Flag-class scratchpad load per lane, checked for bounds and alignment. -/
  | spld (s : BitVec 7) (a : BitVec 8) (d : BitVec 8) (z : BitVec 2)
  /-- SPST (R189): Flag-class scratchpad store per lane, lanes in ascending order. -/
  | spst (s : BitVec 7) (a : BitVec 8) (d : BitVec 8) (z : BitVec 2)
  /-- SPAT_XCHG (R190): Scratchpad atomic exchange. -/
  | spatXchg (s : BitVec 5) (a : BitVec 8) (d : BitVec 8)
  /-- SPAT_CAS (R190): Scratchpad atomic compare-and-swap. -/
  | spatCas (s : BitVec 5) (a : BitVec 8) (d : BitVec 8)
  /-- SPAT_IADD (R190): Scratchpad atomic integer add. -/
  | spatIadd (s : BitVec 5) (a : BitVec 8) (d : BitVec 8)
  /-- SPAT_IMIN_I (R190): Scratchpad atomic signed minimum. -/
  | spatIminI (s : BitVec 5) (a : BitVec 8) (d : BitVec 8)
  /-- SPAT_IMAX_I (R190): Scratchpad atomic signed maximum. -/
  | spatImaxI (s : BitVec 5) (a : BitVec 8) (d : BitVec 8)
  /-- SPAT_IMIN_N (R190): Scratchpad atomic natural minimum. -/
  | spatIminN (s : BitVec 5) (a : BitVec 8) (d : BitVec 8)
  /-- SPAT_IMAX_N (R190): Scratchpad atomic natural maximum. -/
  | spatImaxN (s : BitVec 5) (a : BitVec 8) (d : BitVec 8)
  /-- SPAT_AND (R190): Scratchpad atomic AND. -/
  | spatAnd (s : BitVec 5) (a : BitVec 8) (d : BitVec 8)
  /-- SPAT_OR (R190): Scratchpad atomic OR. -/
  | spatOr (s : BitVec 5) (a : BitVec 8) (d : BitVec 8)
  /-- SPAT_XOR (R190): Scratchpad atomic XOR. -/
  | spatXor (s : BitVec 5) (a : BitVec 8) (d : BitVec 8)
  /-- SPAT_FADD (R190): Scratchpad atomic f32 add. -/
  | spatFadd (s : BitVec 5) (a : BitVec 8) (d : BitVec 8)
  /-- SPAT_FMIN (R190): Scratchpad atomic f32 minimumNumber. -/
  | spatFmin (s : BitVec 5) (a : BitVec 8) (d : BitVec 8)
  /-- SPAT_FMAX (R190): Scratchpad atomic f32 maximumNumber. -/
  | spatFmax (s : BitVec 5) (a : BitVec 8) (d : BitVec 8)
  /-- CTINS (R207): Inserts keys into a carding table, optionally replacing found values. -/
  | ctins (f : BitVec 2) (t : BitVec 2) (a : BitVec 8) (d : BitVec 8)
  /-- CTPRB (R207): Probes a carding table for keys. -/
  | ctprb (f : BitVec 1) (t : BitVec 2) (a : BitVec 8) (d : BitVec 8)
  /-- CTDEL (R207): Deletes keys from a carding table, leaving tombstones. -/
  | ctdel (f : BitVec 1) (t : BitVec 2) (a : BitVec 8) (d : BitVec 8)
  /-- CTACC (R209): Folds lane values per key and accumulates them into a carding table, inserting absent keys unless NOINS. -/
  | ctacc (f : BitVec 2) (t : BitVec 2) (a : BitVec 8) (d : BitVec 8)
  /-- CTINIT (R201): Reads a carding configuration and claims a table, writing a status code at completion. -/
  | ctinit (d : BitVec 7) (a : BitVec 7)
  /-- CTFREE (R212): Unclaims a carding table and releases its metadata and spill area after earlier carding instructions. -/
  | ctfree (a : BitVec 7)
  /-- CTSTAT (R212): Writes a table's live, spilled and dead entry counts. -/
  | ctstat (d : BitVec 7) (a : BitVec 7)
  /-- CTDRAIN (R211): Writes table entries in drain order to scratchpad from a cursor, up to a limit. -/
  | ctdrain (cur : BitVec 7) (out : BitVec 7) (ctl : BitVec 7)
  /-- SPMAP (R196): Arms a mapped scratchpad region as a window onto a global range. -/
  | spmap (size : BitVec 7) (va : BitVec 7) (ctl : BitVec 7)
  /-- SPUNMAP (R200): Stops serving a mapped region, writes back its dirty words and disarms it. -/
  | spunmap (m : BitVec 7)
  /-- SPWB (R199): Writes back the dirty words of a mapped region, one commit per line. -/
  | spwb (m : BitVec 7)
  /-- LD_G (R235): Global load per lane into the region's read set, or served from an armed mapped region. -/
  | ldG (s : BitVec 7) (a : BitVec 8) (d : BitVec 8) (z : BitVec 2)
  /-- LDFWD (R237): Global load that, at its region's commit on the tagged consumer core, drops forward-held lines it read. -/
  | ldfwd (s : BitVec 7) (a : BitVec 8) (d : BitVec 8)
  /-- ST_G (R235): Global store buffered in the region's write set, or served into an armed mapped region. -/
  | stG (s : BitVec 7) (a : BitVec 8) (d : BitVec 8) (z : BitVec 2)
  /-- STFWD (R237): Global store whose lines become forward-held for a named consumer core at commit. -/
  | stfwd (s : BitVec 7) (a : BitVec 8) (d : BitVec 8)
  /-- ATOM_G_XCHG (R238): Global atomic exchange; commits the region first. -/
  | atomGXchg (s : BitVec 5) (a : BitVec 8) (d : BitVec 8)
  /-- ATOM_G_CAS (R238): Global atomic compare-and-swap. -/
  | atomGCas (s : BitVec 5) (a : BitVec 8) (d : BitVec 8)
  /-- ATOM_G_IADD (R238): Global atomic integer add returning old values. -/
  | atomGIadd (s : BitVec 5) (a : BitVec 8) (d : BitVec 8)
  /-- ATOM_G_IMIN_I (R238): Global atomic signed minimum. -/
  | atomGIminI (s : BitVec 5) (a : BitVec 8) (d : BitVec 8)
  /-- ATOM_G_IMAX_I (R238): Global atomic signed maximum. -/
  | atomGImaxI (s : BitVec 5) (a : BitVec 8) (d : BitVec 8)
  /-- ATOM_G_IMIN_N (R238): Global atomic natural minimum. -/
  | atomGIminN (s : BitVec 5) (a : BitVec 8) (d : BitVec 8)
  /-- ATOM_G_IMAX_N (R238): Global atomic natural maximum. -/
  | atomGImaxN (s : BitVec 5) (a : BitVec 8) (d : BitVec 8)
  /-- ATOM_G_AND (R238): Global atomic AND. -/
  | atomGAnd (s : BitVec 5) (a : BitVec 8) (d : BitVec 8)
  /-- ATOM_G_OR (R238): Global atomic OR. -/
  | atomGOr (s : BitVec 5) (a : BitVec 8) (d : BitVec 8)
  /-- ATOM_G_XOR (R238): Global atomic XOR. -/
  | atomGXor (s : BitVec 5) (a : BitVec 8) (d : BitVec 8)
  /-- ATOM_G_FADD (R238): Global atomic f32 add. -/
  | atomGFadd (s : BitVec 5) (a : BitVec 8) (d : BitVec 8)
  /-- ATOM_G_FMIN (R238): Global atomic f32 minimumNumber. -/
  | atomGFmin (s : BitVec 5) (a : BitVec 8) (d : BitVec 8)
  /-- ATOM_G_FMAX (R238): Global atomic f32 maximumNumber. -/
  | atomGFmax (s : BitVec 5) (a : BitVec 8) (d : BitVec 8)
  /-- RED_G_IADD (R238): Global reduction (no return, counted on P1) integer add. -/
  | redGIadd (s : BitVec 5) (a : BitVec 8)
  /-- RED_G_IMIN_I (R238): Global reduction signed minimum. -/
  | redGIminI (s : BitVec 5) (a : BitVec 8)
  /-- RED_G_IMAX_I (R238): Global reduction signed maximum. -/
  | redGImaxI (s : BitVec 5) (a : BitVec 8)
  /-- RED_G_IMIN_N (R238): Global reduction natural minimum. -/
  | redGIminN (s : BitVec 5) (a : BitVec 8)
  /-- RED_G_IMAX_N (R238): Global reduction natural maximum. -/
  | redGImaxN (s : BitVec 5) (a : BitVec 8)
  /-- RED_G_AND (R238): Global reduction AND. -/
  | redGAnd (s : BitVec 5) (a : BitVec 8)
  /-- RED_G_OR (R238): Global reduction OR. -/
  | redGOr (s : BitVec 5) (a : BitVec 8)
  /-- RED_G_XOR (R238): Global reduction XOR. -/
  | redGXor (s : BitVec 5) (a : BitVec 8)
  /-- RED_G_FADD (R240): Global reduction f32 add, applied in arrival order at the slice. -/
  | redGFadd (s : BitVec 5) (a : BitVec 8)
  /-- RED_G_FMIN (R238): Global reduction f32 minimumNumber. -/
  | redGFmin (s : BitVec 5) (a : BitVec 8)
  /-- RED_G_FMAX (R238): Global reduction f32 maximumNumber. -/
  | redGFmax (s : BitVec 5) (a : BitVec 8)
  /-- LDS (R236): Scalar 32-bit global load through window 0. -/
  | lds (o : BitVec 7) (b : BitVec 7) (d : BitVec 7)
  /-- LDS64 (R236): Scalar 64-bit global load into a pair. -/
  | lds64 (o : BitVec 7) (b : BitVec 7) (d : BitVec 7)
  /-- STS (R236): Scalar 32-bit global store, buffered in the region. -/
  | sts (o : BitVec 7) (b : BitVec 7) (a : BitVec 7)
  /-- STS64 (R236): Scalar 64-bit global store from a pair. -/
  | sts64 (o : BitVec 7) (b : BitVec 7) (a : BitVec 7)
  /-- PREF (R236): Prefetches a line into its slice, and level 1 for near lines with the hint; never faults. -/
  | pref (o : BitVec 7) (b : BitVec 7) (h : BitVec 7)
  /-- POST (R388): Commits the region and posts a job card to a task queue, or registers a pending entry when its dependence count is nonzero. -/
  | post (arg : BitVec 7) (card : BitVec 7) (target : BitVec 7)
  /-- DEPDEC (R389): Lowers a card's dependence count by 1 in the region's commit, releasing pending entries when it reaches 0. -/
  | depdec (b : BitVec 7)
  /-- RINGARR (R396): Flips the phase of a stage of the team's stage ring. -/
  | ringarr (r : BitVec 7)
  /-- RINGWAIT (R396): Makes the split not ready until the named ring stage has phase p. -/
  | ringwait (p : BitVec 7) (r : BitVec 7)
  /-- MBOXSEND (R397): Commits the region and sends a signal store to a mailbox of a C-die. -/
  | mboxsend (m : BitVec 7) (v : BitVec 7)
  /-- CP_TENSOR (R280): Posts a copy command that copies an n-dimensional box. -/
  | cpTensor (d : BitVec 7)
  /-- CP_GATHER (R286): Posts a copy command that gathers rows by an index vector. -/
  | cpGather (d : BitVec 7)
  /-- CP_SCATTER (R286): Posts a copy command that scatters rows by an index vector. -/
  | cpScatter (d : BitVec 7)
  /-- CP_MCAST (R287): Posts a copy command that multicasts a box to cluster peers. -/
  | cpMcast (d : BitVec 7)
  /-- CP_PACK (R292): Posts a copy command that encodes a dense box into compressed chunks. -/
  | cpPack (d : BitVec 7)
  /-- CP_UNPACK (R291): Posts a copy command that decodes compressed chunks into a dense box. -/
  | cpUnpack (d : BitVec 7)
  /-- CP_FILL (R288): Posts a copy command that fills a box with a pattern. -/
  | cpFill (d : BitVec 7)
  /-- CP_CANCEL (R299): Cancels the team's commands that report to the named barrier object. -/
  | cpCancel (b : BitVec 7)
  /-- BARINIT (R295): Initialises a barrier object with an expected count. -/
  | barinit (e : BitVec 7) (o : BitVec 7)
  /-- BAREXP (R295): Adds to a barrier object's expected count and checks for completion. -/
  | barexp (n : BitVec 7) (o : BitVec 7)
  /-- BARWAIT (R295): Waits until a barrier object's phase differs from p or its status is nonzero, then returns phase and status. -/
  | barwait (p : BitVec 7) (o : BitVec 7) (d : BitVec 7)
  /-- BARTEST (R295): Reads a barrier object's phase and status at once. -/
  | bartest (o : BitVec 7) (d : BitVec 7)
  /-- TAGALLOC (R251): Allocates the lowest free tag index and places it at a fulling node. -/
  | tagalloc (c : BitVec 7) (d : BitVec 7)
  /-- TAGALLOC_TREE (R251): Allocates a run of N − 1 tags as a reduction tree of N ranks. -/
  | tagallocTree (n : BitVec 7) (c : BitVec 7) (d : BitVec 7)
  /-- TAGFREE (R253): Releases a tag (or a whole tree) and raises its generation. -/
  | tagfree (t : BitVec 7)
  /-- FSEND (R256): Commits the region and sends an operand tile under a tag to its fulling node. -/
  | fsend (m : BitVec 7) (o : BitVec 7)
  /-- TAGQRY (R254): Returns the tag status word held at the tag's node. -/
  | tagqry (t : BitVec 7) (d : BitVec 7)
  /-- MMA (R317): Matrix multiply-accumulate issued at the gang rendezvous latch: A(64×K)·B(K×64) added into a tile. -/
  | mma (p : BitVec 5) (t : BitVec 1) (o : BitVec 1) (c : BitVec 3) (b : BitVec 4) (a : BitVec 4) (k : BitVec 3)
  /-- OCLAIM (R304): Claims and zeroes an operand slot, writing a claim status. -/
  | oclaim (s : BitVec 7) (i : BitVec 4)
  /-- ORELEASE (R304): Frees an operand slot after earlier accesses in its slot order. -/
  | orelease (i : BitVec 4)
  /-- OSETFMT (R305): Writes a slot reservation record. -/
  | osetfmt (s : BitVec 7) (i : BitVec 4)
  /-- ACLAIM (R311): Claims and zeroes an accumulator tile. -/
  | aclaim (s : BitVec 7) (i : BitVec 3)
  /-- ARELEASE (R311): Frees a tile after its MMAs in flight complete. -/
  | arelease (i : BitVec 3)
  /-- AINIT (R313): Sets every element of a tile to 0 and clears its status word. -/
  | ainit (i : BitVec 3)
  /-- AINIT_SET (R313): Sets every element of a tile to a scalar value. -/
  | ainitSet (s : BitVec 7) (i : BitVec 3)
  /-- AINIT_SLOT (R313): Copies a slot's bytes into a tile. -/
  | ainitSlot (s : BitVec 7) (i : BitVec 3)
  /-- ALD (R314): Flag-class load of a tile row into a register pair. -/
  | ald (s : BitVec 7) (i : BitVec 3) (d : BitVec 8)
  /-- ALD_COL (R314): Flag-class load of a tile column. -/
  | aldCol (s : BitVec 7) (i : BitVec 3) (d : BitVec 8)
  /-- ALD_STAT (R314): Flag-class load of a tile's status word. -/
  | aldStat (i : BitVec 3) (d : BitVec 8)
  /-- AST (R314): Flag-class store of a register pair into a tile row. -/
  | ast (s : BitVec 7) (i : BitVec 3) (d : BitVec 8)
  /-- AST_COL (R314): Flag-class store into a tile column. -/
  | astCol (s : BitVec 7) (i : BitVec 3) (d : BitVec 8)
  /-- QBFP (R310): Flag-class quantisation of 32 FP32 lanes into one half-row of a BFP slot. -/
  | qbfp (s : BitVec 7) (i : BitVec 4) (d : BitVec 8)
  /-- OFILL (R309): Writes 128 bytes of a slot from the active lanes of a register. -/
  | ofill (s : BitVec 7) (i : BitVec 4) (d : BitVec 8)
  /-- OREAD (R309): Reads 128 bytes of a slot into a register. -/
  | oread (s : BitVec 7) (i : BitVec 4) (d : BitVec 8)
  /-- OREAD_REC (R309): Reads a slot's reservation record into lanes 0 and 1. -/
  | oreadRec (i : BitVec 4) (d : BitVec 8)
  /-- RTRACE (R332): Traces each lane's ray through the acceleration structure and returns the closest hit. -/
  | rtrace (s : BitVec 4) (a : BitVec 8) (d : BitVec 8)
  /-- RTANY (R332): Traces each ray and returns the first accepted hit in traversal order. -/
  | rtany (s : BitVec 4) (a : BitVec 8) (d : BitVec 8)
  /-- RTQRY (R339): Returns a vertex, endpoint, control point or instance matrix row of a hit. -/
  | rtqry (s : BitVec 4) (a : BitVec 8) (d : BitVec 8)
  /-- LTWALK (R343): Walks the light tree to select an emitter and its pdf. -/
  | ltwalk (s : BitVec 4) (a : BitVec 8) (d : BitVec 8)
  /-- LTPDF (R344): Returns the light-tree pdf of a given emitter. -/
  | ltpdf (s : BitVec 4) (a : BitVec 8) (d : BitVec 8)
  /-- TEXLD (R347): Texture fetch at an explicit level of detail. -/
  | texld (s : BitVec 4) (a : BitVec 8) (d : BitVec 8)
  /-- TEXG (R347): Texture fetch with level of detail from coordinate gradients. -/
  | texg (s : BitVec 4) (a : BitVec 8) (d : BitVec 8)
  /-- RNGCTR (R353): Counter-based random generator: four words from a counter and the key registers. -/
  | rngctr (a : BitVec 8) (d : BitVec 8)
  /-- RNGF (R354): Converts a random word to an f32 in [0, 1). -/
  | rngf (a : BitVec 8) (d : BitVec 8)
  /-- RSVINIT (R356): Clears a reservoir held in 8 registers. -/
  | rsvinit (d : BitVec 8)
  /-- RSVUPD (R357): Streams one candidate into a reservoir. -/
  | rsvupd (a : BitVec 8) (d : BitVec 8)
  /-- RSVMRG (R358): Merges another reservoir into a reservoir. -/
  | rsvmrg (a : BitVec 8) (d : BitVec 8)
  /-- RSVNORM (R359): Computes a reservoir's unbiased contribution weight W. -/
  | rsvnorm (d : BitVec 8)
  /-- RSVLD (R366): Loads reservoir records by plane and pixel from the reservoir store, as one commit. -/
  | rsvld (s : BitVec 4) (a : BitVec 8) (d : BitVec 8)
  /-- RSVST (R366): Stores whole reservoir records to owner lines, as one commit. -/
  | rsvst (s : BitVec 4) (a : BitVec 8) (d : BitVec 8)
  /-- REUSE (R371): Posts a reuse job to the core's reuse engine; held until its region commits. -/
  | reuse (s : BitVec 4)
  /-- TGTRET (R377): Ends a target-callable batch, returning p̂ and the visibility ray per lane. -/
  | tgtret (a : BitVec 8) (d : BitVec 8)
  /-- BRIMX (R369): Posts a brim exchange copying owner records into the other die's brim lines. -/
  | brimx (s : BitVec 4)
  /-- SPLIT_PROMOTION (R115): A ready split that has not issued for 512 clk becomes promoted. -/
  | splitPromotion (core : Nat) (slot : Nat) (split : Nat)
  /-- SLEEP_EXPIRY (R132): A sleeping split's count expires and it becomes ready. -/
  | sleepExpiry (core : Nat) (slot : Nat) (split : Nat)
  /-- FLAG_OPERATION_COMPLETE (R39): A flag-class operation completes: its asynchronous write lands, its flags are ORed into sys.fpflags and its completion flag clears when its count reaches 0. -/
  | flagOperationComplete (core : Nat) (slot : Nat) (op : Nat)
  /-- GLOBAL_LOAD_RETURN (R40): A global load or atomic returns its data, its register write completes and its path counter is lowered in issue order. -/
  | globalLoadReturn (core : Nat) (slot : Nat) (op : Nat)
  /-- REGION_COMMIT (R221): The group's region commit: waits for its loads, validates the read set and publishes the write set at one point of the commit order. -/
  | regionCommit (core : Nat) (slot : Nat)
  /-- RESERVATION_LAPSE (R225): A reservation lapses 4,096 clk after it was made. -/
  | reservationLapse (line : Nat)
  /-- CAPACITY_COMMIT (R224): A load or store that would overflow the read or write set commits the region up to the instruction before it; success marks the task non-restartable. -/
  | capacityCommit (core : Nat) (slot : Nat)
  /-- ATOMIC_COMMIT (R238): A slice applies an atomic's aggregated update to every distinct address in one commit. -/
  | atomicCommit (core : Nat) (slot : Nat) (op : Nat)
  /-- LINE_FILL (R198): The first served access to an unfilled mapped-region line reads it from global memory or zero-fills it. -/
  | lineFill (team : Nat) (map : Nat) (line : Nat)
  /-- PEER_SCRATCHPAD_ACCESS (R194): A peer scratchpad access arrives at the target core and takes effect in its scratchpad order. -/
  | peerScratchpadAccess (msg : Nat)
  /-- COPY_COMMAND_START (R276): The copy engine starts a released command when one of its 16 places is free, in acceptance order. -/
  | copyCommandStart (core : Nat) (cmd : Nat)
  /-- COPY_ROW_COMPLETE (R285): A row of a copy command is fully written and committed and its barrier object is credited; after the last row the command completes. -/
  | copyRowComplete (core : Nat) (cmd : Nat)
  /-- COPY_FAULT (R297): A global access of a command fails translation: the command stops at its cursor row and posts a copy-fault record. -/
  | copyFault (core : Nat) (cmd : Nat)
  /-- COPY_RESTART (R298): A suspended command restarts at its cursor row once the page is resident. -/
  | copyRestart (core : Nat) (cmd : Nat)
  /-- COPY_RESUME (R298): Host-assisted resume or termination message for a suspended copy command. -/
  | copyResume (core : Nat) (cmd : Nat) (terminate : Bool)
  /-- MMA_START (R318): The matrix array starts the next released MMA, reads its slots and makes the format check. -/
  | mmaStart (core : Nat) (mma : Nat)
  /-- MMA_COMPLETE (R318): The tile is written, status bits and flags are ORed in, and P6 of each member is lowered. -/
  | mmaComplete (core : Nat) (mma : Nat)
  /-- SIGNAL_STORE (R397): A signal store reaches a mailbox of a C-die's command processor. -/
  | signalStore (sender : Sender) (die : Nat) (box : Nat) (value : BitVec 32)
  /-- FULLING_OPERAND_ARRIVAL (R259): An operand arrives at a fulling node and is matched, combined and forwarded, stored, spilled, dropped or delivered with a status. -/
  | fullingOperandArrival (msg : Nat)
  /-- FULLING_SPILL_REFILL (R266): The supervisor or control node extends a context's spill ring. -/
  | fullingSpillRefill (ctx : Nat) (capacity : BitVec 32)
  /-- FULLING_RELOAD (R267): A node whose store falls below half occupancy reloads its spilled operands, oldest first. -/
  | fullingReload (node : Nat)
  /-- FSEND_RETRY (R269): A refused operand is sent again after its backoff interval. -/
  | fsendRetry (msg : Nat)
  /-- FSEND_OVERFLOW (R270): The orphan time passes before acceptance: the FSEND ends with OVERFLOW and the operand is forwarded. -/
  | fsendOverflow (msg : Nat)
  /-- ORPHAN_EXPIRY (R271): A lone waiting operand's orphan time expires: it is forwarded with ORPHAN and its tag poisoned. -/
  | orphanExpiry (msg : Nat)
  /-- SPILL_SWEEP (R271): A node sweeps its spilled entries every sys.orphan / 8 for expired operands. -/
  | spillSweep (node : Nat)
  /-- FULLING_DELIVERY (R264): A delivery writes an operand's granules to a final destination and credits its barrier object. -/
  | fullingDelivery (msg : Nat)
  /-- HELD_DELIVERY_EXPIRY (R264): A delivery held for an unstarted team is dropped when its orphan time passes. -/
  | heldDeliveryExpiry (msg : Nat)
  /-- TEAM_PLACEMENT (R391): A distributor places the next team of a head entry when every needed resource is free, including resume entries. -/
  | teamPlacement (die : Nat)
  /-- LAUNCH_MESSAGE (R394): A launch parameter block arrives; the card is checked, inline arguments written and the card queued. -/
  | launchMessage (block : Nat)
  /-- TEAM_END (R300): A team's last group has ended; its resources are released once its engine commands have completed. -/
  | teamEnd (team : Nat)
  /-- GRID_END (R384): A grid ends: the completion record is written and the successor card decremented. -/
  | gridEnd (grid : Nat)
  /-- PAGE_WALK (R401): The walker translates a virtual address through up to six levels, faulting on invalid or malformed entries. -/
  | pageWalk (core : Nat) (ctx : Nat) (va : BitVec 80) (kind : Nat)
  /-- MIGRATING_RETRY (R401): A walk meeting MIG = 1 retries every 250 ns and faults WALKBUSY after 4 µs. -/
  | migratingRetry (core : Nat) (ctx : Nat) (va : BitVec 80) (kind : Nat)
  /-- INVALIDATION_ACK (R411): The TLB invalidation has taken effect everywhere and in-flight users have finished; the status is written. -/
  | invalidationAck (req : Nat)
  /-- SUPERVISOR_ENTRY (R420): The parked supervisor starts at sys.tvec for the oldest pending trap or engine-fault record. -/
  | supervisorEntry (core : Nat)
  /-- HOST_TRAP_ACTION (R417): In host-assisted mode the control node returns an action word with the effect of ERET. -/
  | hostTrapAction (core : Nat) (slot : Nat) (action : BitVec 32) (hwm : BitVec 32)
  /-- PREEMPT_SAVE (R431): Once the cluster has stopped and drained, its state is saved and a resume entry queued. -/
  | preemptSave (core : Nat) (tslot : Nat)
  /-- PREEMPT_LIMIT_EXPIRY (R433): A cluster not stopped within sys.preempt_limit is aborted and requeued, or raises PREEMPT. -/
  | preemptLimitExpiry (core : Nat) (tslot : Nat)
  /-- WATCHDOG (R429): A team with no issue for sys.wdlimit clk raises WATCHDOG in its lowest live group. -/
  | watchdog (team : Nat)
  /-- DEBUG_HALT (R435): The control node halts a core, which then issues nothing. -/
  | debugHalt (core : Nat)
  /-- DEBUG_RESUME (R435): The control node resumes a core from debug halt. -/
  | debugResume (core : Nat)
  /-- PEER_LINK_DOWN (R409): A peer port goes down: peer TLB entries are removed, in-flight accesses end PEERDOWN and bindings are cleared. -/
  | peerLinkDown (port : Nat)
  /-- PEER_LINK_UP (R409): A peer port comes up and translations to the peer proceed again. -/
  | peerLinkUp (port : Nat)
  /-- FLIT_REPLAY (R437): A flit whose CRC fails is replayed from the replay buffer. -/
  | flitReplay (link : Nat)
  /-- UNCORRECTABLE_FLIT (R428): A flit whose replay fails three times takes its link down; waiting requests end MEMERR and lines become poisoned. -/
  | uncorrectableFlit (link : Nat) (line : Nat) (core : Nat) (slot : Nat) (control : Bool)
  /-- MODULE_LANE_FAILURE (R437): A UCIe module failing beyond lane repair is taken down and its traffic moves to the others. -/
  | moduleLaneFailure (link : Nat)
  /-- POWER_THROTTLE (R22): When module power would exceed TDP the system controller inserts idle issue clocks. -/
  | powerThrottle (die : Nat)
  /-- THERMAL_THROTTLE (R447): A junction above 105 °C gets idle clocks until it falls below 100 °C. -/
  | thermalThrottle (die : Nat)
  /-- THERMTRIP (R447): Above 115 °C the module stops and reports THERMTRIP. -/
  | thermtrip
  /-- RESET (R443): Reset: the I-die ROM loads, verifies, measures and runs the boot stages in order. -/
  | reset
  /-- ATTESTATION_REQUEST (R445): The security processor returns a signed report of measurements and the nonce. -/
  | attestationRequest (nonce : BitVec 256)
  /-- SL_PIN (R446): A store to SL.PIN with bit 0 = 1 pins a line in its slice. -/
  | slPin (line : Nat)
  /-- SL_UNPIN (R446): A store to SL.PIN with bit 0 = 0 unpins a line, making it normal. -/
  | slUnpin (line : Nat)
  /-- SL_BYPASS_CLEAR (R446): A write of 1s to SL.BYPASS clears bypass counter bits. -/
  | slBypassClear (slice : Nat) (mask : BitVec 32)
  /-- CONTEXT_BINDING_WRITE (R442): The control node writes a context binding of a peer port. -/
  | contextBindingWrite (index : Nat) (ctx : Nat) (port : Nat) (remote : Nat)
  /-- CONTROL_NODE_MEMORY_ACCESS (R440): A control-node read or write of module memory is made by the I-die as one engine commit. -/
  | controlNodeMemoryAccess (pa : Nat) (msg : Nat) (write : Bool)
  /-- SHOOTDOWN_REQUEST (R449): In host-assisted mode the control node sends a range that the I-die invalidates and returns the status. -/
  | shootdownRequest (ctx : Nat) (va : BitVec 80) (pages : Nat)
  /-- HARVEST_REQUEST (R449): In host-assisted mode the control node sends a range for dirty harvest and receives the count. -/
  | harvestRequest (ctx : Nat) (va : BitVec 80) (pages : Nat)
  /-- CARDING_SPILL_ALLOCATION (R201): The supervisor or control node supplies, or refuses, a carding spill area at the first spill. -/
  | cardingSpillAllocation (team : Nat) (table : Nat) (base : BitVec 64) (refuse : Bool)
  /-- DRAM_SCRUB (R448): Periodic DRAM scrub corrects errors in place. -/
  | dramScrub (line : Nat)
  /-- SRAM_SCRUB (R448): Periodic SRAM scrub; a poisoned slice line is reloaded from DRAM as one commit. -/
  | sramScrub (line : Nat)
  /-- SCRUBLATE (R449): A scrub period missed in host-scheduled mode is reported. -/
  | scrublate
  /-- UCIE_RETRAINING (R448): Each UCIe module is retrained every second, offline for 2 µs. -/
  | ucieRetraining (link : Nat)
  /-- GDDR7_RETRAINING (R448): Each GDDR7 device is retrained every 100 ms. -/
  | gddr7Retraining (device : Nat)
  /-- AGING_MONITOR (R448): Every 10 s the aging monitor adjusts the voltage guardband. -/
  | agingMonitor
  /-- FLASH_WEAR_LEVELLING (R448): Wear levelling runs on each firmware write. -/
  | flashWearLevelling
  /-- TELEMETRY (R448): Telemetry is sent every 1 ms. -/
  | telemetry
  /-- RAY_UNIT_COMPLETE (R323): A ray, walker or texture instruction writes its results for all lanes and lowers P3. -/
  | rayUnitComplete (core : Nat) (op : Nat)
  /-- RAY_LANE_RESTART (R325): A lane suspended on a restartable fault restarts from its beginning once the page is resident. -/
  | rayLaneRestart (core : Nat) (op : Nat) (lane : Nat)
  /-- REUSE_JOB_START (R372): A released reuse job gathers candidates for its rectangle. -/
  | reuseJobStart (core : Nat) (job : Nat)
  /-- REUSE_BATCH (R376): The evaluator runs the target callable on a batch of up to 32 pixel-candidate pairs. -/
  | reuseBatch (core : Nat) (job : Nat)
  /-- REUSE_MERGE (R375): The engine merges each pixel's present candidates and writes the output record. -/
  | reuseMerge (core : Nat) (job : Nat)
  /-- REUSE_JOB_COMPLETE (R379): The job writes its status word, credits its barrier object and lowers P4. -/
  | reuseJobComplete (core : Nat) (job : Nat)
  /-- BRIM_ARRIVAL (R370): Once a brim exchange's lines are committed, it credits the barrier object or makes the mailbox store and lowers P7. -/
  | brimArrival (core : Nat) (op : Nat)
  /-- ILLEGAL_ENCODING (R76): The core fetches a 32-bit word whose major, sub-op or field values are unassigned and raises ILLEGAL at it with no effect. -/
  | illegalEncoding (word : BitVec 32)
  /-- TAG_NODE_ACKNOWLEDGEMENT (R255): The fulling nodes and the I-die tag table answer a TAGALLOC, TAGFREE, TAGQRY or TAGPURGE, and the waiting split's instruction completes and its destination is written. -/
  | tagNodeAcknowledgement (req : Nat)
  /-- DIRTY_HARVEST_COMPLETE (R414): A DHARV's page-by-page walk and slice write-record clears finish, and the count of newly dirty leaves is written. -/
  | dirtyHarvestComplete (req : Nat)
  /-- ZEROING_COMPLETE (R304): The zeroing of a newly claimed slot ends, 64 clk after OCLAIM, and the accesses and copy writes that waited for it proceed. -/
  | zeroingComplete (core : Nat) (slot : Nat)
  /-- TASK_QUEUE_ACCEPTANCE (R388): The target task queue or the pending table accepts a posted card, and P7 of the posting group is lowered. -/
  | taskQueueAcceptance (msg : Nat)
  /-- THERMAL_THROTTLE_END (R447): A throttled die's junction temperature falls below 100 °C and the system controller stops inserting idle clocks. -/
  | thermalThrottleEnd (die : Nat)
  /-- PEER_PORT_REQUEST (R442): A peer module's access to this module's memory arrives through a peer port and takes its place as a commit in this module's commit order. -/
  | peerPortRequest (port : Nat) (pa : Nat) (msg : Nat) (write : Bool)
deriving DecidableEq, Repr

end Sys2Proof
end

