-- ==== Sys2Proof/Machine/State.lean ====
section
/-! DEFINITION. Sys2Proof/Machine/State.lean: the state of the whole module as plain data, and the state right after reset.
INVENTORY.md ('## State') lists every field with the rule that names it. The issuing group and the issuing split stand apart
from the others (`g`, `p`), so that the meaning of an instruction reads and writes them directly. -/

namespace Sys2Proof.Machine

/-! ## Splits and groups (05_groups_and_control.md, 06_registers_scalar.md) -/

/-- What the MODX prefixes before the next instruction ask for (R52, Table 2.9), with the place and the clause count of the first
of them. -/
structure Prefix where
  laneSel : Option (BitVec 18) := none
  negAbs : Option (BitVec 6) := none
  address : Option (BitVec 10) := none
  rounding : Option (BitVec 3) := none
  setb : Bool := false
  saturate : Option (BitVec 1) := none
  /-- The code address of the chain's first MODX, the clause count before it, and its word. -/
  start : Option (Word × Nat × Word) := none
deriving DecidableEq, Repr

/-- A translation (R401, R407): pages of `2 ^ size` bytes of context `ctx` (or of every context) from `va` on map to `pa` on. -/
structure Tlb where
  ctx : Nat
  global : Bool
  va : Nat
  size : Nat
  pa : Nat
  r : Bool
  w : Bool
  x : Bool
  streaming : Bool
  peer : Bool
deriving DecidableEq, Repr

/-- Where a lane's global access goes: the bytes of a serving map (R197), or physical memory through a translation. -/
inductive Place where
  | map (m : Nat) (off : Nat)
  | pa (pa : Nat) (t : Tlb)
deriving DecidableEq, Repr

/-- An active lane with its virtual address and its place. -/
structure LaneAt where
  lane : Nat
  va : Nat
  place : Place
deriving DecidableEq, Repr

/-- A lane of a scratchpad access with the team it goes to and the offset there. -/
structure SpLane where
  lane : Nat
  team : Nat
  off : Nat
deriving DecidableEq, Repr

/-- What the checks of a commit point found before its commit (R219): the places of an atomic, those of a peer access with the lanes that
lenient mode switches off, the physical address of a card; or what a wait has read of a barrier object (R295). -/
inductive Kept where
  | places (l : List LaneAt)
  | lanes (l : List SpLane) (off : Word)
  | card (pa va : Nat) (t : Tlb)
  | bar (phase status : Word)
deriving DecidableEq, Repr

/-- An entry on its way into a queue of the core, with the clk in which it reached the queue (R47 to R49). -/
structure Push where
  queue : Nat
  entry : Store 32
  since : Nat
deriving DecidableEq, Repr

/-- What a split waits for before its next instruction can issue (R116, R117). The first constructors are conditions on the
state; the last name a partner or an event that releases the split. -/
inductive Wait where
  /-- Ready. -/
  | none
  /-- The flags of a clause header (R37). -/
  | flags (mask : BitVec 12)
  /-- A queue of the core has an entry (R47). -/
  | queueFull (q : Nat)
  /-- The queues of the list have room (R47, R49). -/
  | queueRoom (q : Nat)
  /-- A completion flag has room for one more operation (R39). -/
  | flagRoom (f : Nat)
  /-- A path counter has room for one more operation (R40). -/
  | pathRoom (k : Nat)
  /-- A path counter is at or below a threshold (R133). -/
  | path (k : Nat) (n : Nat)
  /-- The clock reaches a count. -/
  | clock (t : Nat)
  /-- A barrier object's phase has ended, or it is no longer armed (R295). -/
  | barObject (core : Nat) (at_ : Nat) (phase : Nat)
  /-- A ring stage has the awaited phase (R396). -/
  | ring (core : Nat) (ring : Nat) (stage : Nat) (phase : Nat)
  /-- Engine commands of the group, by operation, have completed; the whole group is stalled (R234). -/
  | fence (ops : List Nat)
  /-- A copy-engine place is free (R276). -/
  | copyPlace
  /-- The split before at the team's gang latch has left it (R136). -/
  | latchFree
  /-- Asleep until its SLEEP_EXPIRY, at a clock (R132). -/
  | sleep (t : Nat)
  /-- At a barrier of the team, of the cluster, or of a scope (R138). -/
  | barTeam (b : Nat)
  | barClu (b : Nat)
  | barScope (scope : Nat) (key : Nat)
  /-- Holding an MMA at the gang latch (R136). -/
  | latch
  /-- Earlier accesses to an operand slot, or to a tile (16 and up), and its zeroing (R304, R308, R312). -/
  | slotOrder (n : Nat)
  /-- Its group's atomics in flight have made their commits (R368). -/
  | atomics
  /-- Room in the ray unit, the walker or the texture unit (R324); a reuse job place (R371). -/
  | unitRoom (unit : Nat)
  | jobRoom
  /-- The results the evaluator waits for (R376). -/
  | results
  /-- In WAITX (R398). -/
  | waitx (box : Nat) (value : Word)
  /-- Parked at a JOIN (R127). -/
  | parked (addr : Word)
  /-- The completion of a request made of another agent, by number. -/
  | request (id : Nat)
  /-- A page walk (R401): the 64 KiB page and the access it is for. -/
  | walk (page : Nat) (acc : Nat)
  /-- An engine has yet to write a line it owns (R230). -/
  | owned (line : Nat)
  /-- A line of a map is being filled (R198). -/
  | fill (m : Nat) (line : Nat)
  /-- A map's SPUNMAP has yet to complete (R200). -/
  | unmapping (m : Nat)
  /-- The supervisor without a record to serve (R420). -/
  | idle
  /-- Stopped at a safe point for a pre-emption (R430). -/
  | preempted
  /-- Entries of a multicast queue write that some queue has not accepted yet (R49). -/
  | pushes
  /-- The carding unit stands at an earlier instruction (R482); the spill area of a table is being supplied (R201). -/
  | carding
  | spillArea (table : Nat)
deriving DecidableEq, Repr

/-- A fault that a page walk returned to the split that waits for it. -/
structure WalkFault where
  page : Nat
  acc : Nat
  cause : Nat
  kind : Nat
  level : Nat
deriving DecidableEq, Repr

/-- An entry of a carding table's spill log as it stands in memory (R204): key, value, home, state. -/
structure SpillEntry where
  key : Nat
  val : Nat
  home : Nat
  dead : Bool
deriving DecidableEq, Repr

/-- What a lane of a carding instruction reports (R207): status and output, and the flags raised. -/
structure CardLane where
  status : Nat
  out : Nat
  fl : BitVec 5 := 0#5
deriving DecidableEq, Repr

/-- How far a carding instruction that stopped at a spill access has come (R482): its scalar operands, the lanes that have acted, the
entries of the log that its step in hand has read; whether the access was terminated. -/
structure CardWork where
  args : List Nat := []
  lanes : List (Nat × CardLane) := []
  log : List SpillEntry := []
  dead : Bool := false
deriving DecidableEq, Repr

/-- One split of a group (R112, R126). -/
structure Split where
  /-- Its split index. -/
  idx : Nat := 0
  /-- False once it has ended. -/
  live : Bool := true
  pc : Word := 0#32
  exec : Word := 0xFFFFFFFF#32
  member : Word := 0xFFFFFFFF#32
  y0 : Store 32 := []
  y1 : Store 32 := []
  /-- The clause in progress: its flag targets, its safe-point and yield marks, its live mask and its instructions so far. -/
  seta : BitVec 4 := 15#4
  setb : BitVec 4 := 15#4
  sp : Bool := false
  liveMask : BitVec 30 := 0#30
  yld : Bool := false
  count : Nat := 0
  inClause : Bool := false
  mods : Prefix := {}
  /-- The split-set it is a child of, by number. -/
  set : Option Nat := Option.none
  wait : Wait := .none
  readyTime : Nat := 0
  /-- Whether it was ready when the schedulers last chose (R114). -/
  ready : Bool := false
  lastIssue : Nat := 0
  promoted : Bool := false
  /-- It has yielded (R131), or the clause before its own had YLD (R32). -/
  yielded : Bool := false
  /-- Translations handed to it by walks it waited for, until its instruction issues. -/
  xlat : List Tlb := []
  walkFault : Option WalkFault := Option.none
  /-- What an instruction that is made in several parts has already done: its number of parts, or a reply. -/
  stage : Nat := 0
  reply : Option Nat := Option.none
  /-- Its instruction has issued and goes on, after a commit, a reply or a turn (R219): it issues no second time. The code address behind
  that instruction. -/
  begun : Bool := false
  behind : Word := 0#32
  /-- Queue entries on their way into queues of the core (R49). -/
  pushing : List Push := []
  /-- The queue entries that the instruction has popped before it acts, by q register (R47, log 59). -/
  taken : Keyed (Store 32) := []
  /-- The scope mask that its FENCE or BAR.SCOPE read at its issue (R158). -/
  scope : BitVec 320 := 0#320
  /-- What its commit point's checks found before the commit; whether a translation among that has been removed since (R411). -/
  kept : Option Kept := Option.none
  stale : Bool := false
  /-- The transaction that it opened, by number (R244). -/
  tx : Option Nat := Option.none
  /-- Its place in the orders of slots and tiles, where its instruction waits for its turn (R308, R312). -/
  turn : Option Nat := Option.none
  /-- How far its carding instruction has come (R482). -/
  carded : CardWork := {}
deriving DecidableEq, Repr

/-- An open split-set (R125): its join id, its suspended parent, and its number. -/
structure SplitSet where
  num : Nat
  joinId : BitVec 2
  parent : Split
deriving DecidableEq, Repr

/-- The register writes of an asynchronous operation (R41): whole vector registers under a lane mask, queue entries, scalars, and
exception flags. Registers 0 to 223 are v0 to v223, 224 to 231 are w0 to w7. -/
structure Writes where
  v : List (Nat × Word × Store 32) := []
  q : List (Nat × Store 32) := []
  s : List (Nat × Word) := []
  fl : BitVec 5 := 0#5
deriving DecidableEq, Repr

/-- An atomic on its way to its slice (R238): operation code, size, per active lane the physical address, the operand and the new
value of CAS, the destination of the old values, the queues that it names, read at issue (R49), and its lines of streaming pages. -/
structure Atomic where
  op : Nat
  size : Nat
  lanes : List (Nat × Nat × Nat × Nat)
  dst : Nat
  mask : Word
  queues : List Nat := []
  streaming : List Nat := []
deriving DecidableEq, Repr

/-- The instruction being run: where it stands, its length in bytes with the words that follow it, its own bits, and those words. -/
structure Issue where
  pc : Word := 0#32
  len : Nat := 4
  word : Word := 0#32
  lit : Word := 0#32
  dword : Dword := 0#64
deriving DecidableEq, Repr

/-- A load or atomic in flight as a trap at it names it (R409, R428): its instruction, its split as it issued, the places of its lanes. -/
structure IssuedAt where
  issue : Issue
  split : Split
  places : List LaneAt
deriving DecidableEq, Repr

/-- What a flag-class instruction does beyond its register writes when it completes: to a slot or a tile in its order (R308, R312), to a
mapped region (R196, R199, R200), to a carding table (R201). -/
inductive OpAct where
  /-- ALD: the tile, by column or not, the index, the destination run, the exec mask; ALD.STAT. -/
  | ald (tile : Nat) (col : Bool) (x : Nat) (dst : Nat) (mask : Word)
  | aldStat (tile : Nat) (dst : Nat) (mask : Word)
  /-- AST: the tile, by column or not, the index, the two source registers, the exec mask. -/
  | ast (tile : Nat) (col : Bool) (x : Nat) (lo hi : Store 32) (mask : Word)
  /-- QBFP: the slot, the width m, the row, the half, and the lanes read at issue with the delta. -/
  | qbfp (slot m row half : Nat) (delta : Nat) (src : Store 32)
  /-- SPMAP: the map serves. SPWB and SPUNMAP: the map's dirty words are written back, and it is disarmed; with the split and the code
  address that a fault names. -/
  | serve (m : Nat)
  | writeBack (m : Nat) (unmap : Bool) (split : Nat) (pc : Word)
  /-- CTINIT: the table is claimed. -/
  | claim (t : Nat)
deriving DecidableEq, Repr

/-- An operation in flight (R39 to R41), in issue order in its group. -/
structure Async where
  id : Nat
  flag : Option Nat
  path : Option Nat
  /-- Registers it will write: vector register numbers and scalar register numbers. -/
  vdst : List Nat := []
  sdst : List Nat := []
  writes : Writes := {}
  done : Bool := false
  /-- Part of the open region: a store lowered by its commit, a held command returned if it fails (R133, R226). -/
  inRegion : Bool := false
  /-- An atomic whose commit the group's next one waits for (R229, R238). -/
  atomic : Option Atomic := Option.none
  /-- An engine command: the core whose agent it was issued to; 320 for an agent that lies on no core (R234). -/
  command : Option Nat := Option.none
  /-- The clk in which its data have come back, where entries of it have still to enter a queue (R41, R47). -/
  returned : Option Nat := Option.none
  /-- What else it does at its completion. -/
  act : Option OpAct := Option.none
  /-- A global load or atomic: where a trap at it goes back to. -/
  origin : Option IssuedAt := Option.none
deriving DecidableEq, Repr

/-- The group-scoped system registers (Table 6.5, Table 16.7). -/
structure GroupSys where
  gang : Word := 1#32
  faultmask : Word := 0#32
  mode : BitVec 2 := 0#2
  fpflags : BitVec 5 := 0#5
  fpen : BitVec 5 := 0#5
  mcap : BitVec 16 := 0xFFFF#16
  rngkey0 : Word := 0#32
  rngkey1 : Word := 0#32
  clockhi : Word := 0#32
  scsel : BitVec 5 := 0#5
  mcset : Store 16 := []
  privhwm : Word := 0#32
  ctxsel : BitVec 16 := 0#16
deriving DecidableEq, Repr

/-- One line of the store buffer or of the read set of a region (R220): the bytes by offset, and their mask. -/
structure LineBytes where
  mask : Nat
  bytes : Store 8
  /-- The virtual line it was reached through, with its context, for R411. -/
  va : Nat := 0
  ctx : Nat := 0
  /-- Its translation was removed while the region was open (R411). -/
  marked : Bool := false
  /-- It lies in a page of a peer module (R409), and in one of class streaming (R217). -/
  peer : Bool := false
  streaming : Bool := false
  /-- A byte of it was read with two values, so that no value can equal both at the commit (R221). -/
  torn : Bool := false
  /-- How many commits had written it when it was first read (R221). -/
  version : Nat := 0
deriving DecidableEq, Repr

/-- The control snapshot a region restores when it fails (R222). -/
structure Snapshot where
  splits : List Split
  sets : List SplitSet
deriving DecidableEq, Repr

/-- An engine command made inside an open region, released at its commit (R226): the agent, its number there, its path. -/
structure Held where
  agent : Nat
  id : Nat
  path : Option Nat
deriving DecidableEq, Repr

/-- A group's open region (R219 to R227). -/
structure Region where
  stores : Keyed LineBytes := []
  reads : Keyed LineBytes := []
  snap : Option Snapshot := Option.none
  held : List Held := []
  /-- Cards whose counts the commit lowers (R389). -/
  depdecs : List Nat := []
  /-- Lines to forward at the commit, with the consumer core (R237). -/
  forwards : List (Nat × Nat) := []
  /-- Forward-held lines that it read through LDFWD on their consumer core (R237). -/
  drops : List Nat := []
  fails : Nat := 0
  reserved : Bool := false
  /-- A commit is under way for the split of this index; no split issues (R219). -/
  committing : Option Nat := Option.none
  /-- Where the commit's instruction stands, for a trap at the commit (R411). -/
  atIssue : Issue := {}
  /-- The commit has succeeded, and the split's instruction acts next. -/
  acting : Bool := false
deriving DecidableEq, Repr

/-- One lane of an open transaction (R241 to R244). -/
structure TxLane where
  stores : Keyed LineBytes := []
  reads : Keyed LineBytes := []
deriving DecidableEq, Repr

/-- A group's open transaction, by number (R241). -/
structure Tx where
  num : Nat
  lanes : Word
  perLane : Keyed TxLane := []
  aborted : Word := 0#32
  /-- The cause word of R244 so far. -/
  cause : Word := 0#32
deriving DecidableEq, Repr

/-- A group resident in a group slot of a core. -/
structure Group where
  core : Nat
  slot : Nat
  live : Bool := true
  ctx : Nat := 0
  team : Nat := 0
  gid : Nat := 0
  nregs : Nat := 8
  role : BitVec 2 := 2#2
  v : Store 32 := []
  s : Store 32 := []
  sys : GroupSys := {}
  ops : List Async := []
  splits : List Split := []
  sets : List SplitSet := []
  region : Region := {}
  tx : Option Tx := Option.none
  /-- It has a pending trap record (R417); where SKIP resumes, with the clause count there. -/
  trapped : Bool := false
  skip : Word × Nat := (0#32, 0)
  /-- It stops at its next issue: its task is aborted or its context suspended in place. -/
  stopped : Bool := false
  /-- The reuse job it evaluates a target callable for (R376). -/
  evaluates : Option Nat := Option.none
deriving DecidableEq, Repr

/-! ## Tasks (15_tasks_and_queues.md) -/

/-- A job card, read (Table 15.1). -/
structure Card where
  codeBase : Nat := 0
  entry : Nat := 0
  win : Nat := 0
  prio : Nat := 0
  groups : Nat := 1
  teams : Nat := 1
  w : Nat := 1
  h : Nat := 1
  regs : Nat := 8
  spad : Nat := 0
  queues : Nat := 0
  rings : Nat := 0
  scope : Nat := 3
  dep : Nat := 0
  /-- First group, last group, role code of each valid range (R134). -/
  roles : List (Nat × Nat × Nat) := []
  arg : Nat := 0
  completion : Nat := 0
  successor : Nat := 0
  stages : Nat := 2
deriving DecidableEq, Repr

/-- A barrier in a phase (R138): its expected count, and the groups that have arrived. -/
structure Barrier where
  expected : Nat
  /-- The count was given as 0: it follows the live groups. -/
  auto : Bool
  arrived : List (Nat × Nat)
  /-- The groups that a scope barrier's count of 0 stood for at its first arrival, by core and slot, but for those that have ended. -/
  members : List (Nat × Nat) := []
deriving DecidableEq, Repr

/-- An MMA held at the rendezvous latch (R136): group slot, split index, gang mask, encoding. -/
structure Held32 where
  slot : Nat
  split : Nat
  mask : Word
  word : Word
deriving DecidableEq, Repr

/-- A mapped region of a team (R196). -/
structure MapRegion where
  off : Nat
  size : Nat
  va : Nat
  ro : Bool
  nofill : Bool
  serving : Bool := false
  /-- SPUNMAP has issued (R200). -/
  closing : Bool := false
  filled : List Nat := []
  /-- Dirty words by word number in the region. -/
  dirty : List Nat := []
  /-- Lines whose commit a write-back in progress has still to make, by number in the region (R199). -/
  wb : List Nat := []
  /-- A fault of its fill or write-back has not been answered: its dirty words are written only if the access is made again (R198). -/
  faulted : Bool := false
deriving DecidableEq, Repr

/-- A carding table (R201 to R205). Slot states by bucket * 8 + slot: 1 full, 2 tombstone. -/
structure CardTable where
  claimed : Bool := false
  off : Nat
  size : Nat
  shape : Nat
  op : Nat
  scale : Nat
  seed : Nat
  win : Nat
  spillBase : Nat
  spillCap : Nat
  /-- Its spill area has been refused (R201). -/
  refused : Bool := false
  slots : Store 8 := []
  spilled : List Nat := []
  count : Nat := 0
deriving DecidableEq, Repr

/-- A team resident on a core (R111, R385). -/
structure Team where
  core : Nat
  tslot : Nat
  grid : Nat
  cluster : Nat
  /-- Its position in the cluster (R185). -/
  pos : Nat
  index : Nat
  groups : Nat
  ctx : Nat
  card : Card
  spbase : Nat := 0
  spsize : Nat := 0
  qbase : Nat := 0
  rbase : Nat := 0
  region : Nat := 0
  launch : Nat := 0
  bars : Keyed Barrier := []
  latch : List Held32 := []
  maps : Keyed MapRegion := []
  tables : Keyed CardTable := []
  lastIssue : Nat := 0
  faultmask : Word := 0#32
  /-- Group slots, with their registers, of groups that an abort ended, held until the engines have drained (R424). -/
  held : List (Nat × Nat) := []
  /-- Every group has ended; its resources are released once its engine commands have completed (R300). -/
  ending : Bool := false
  released : Bool := false
deriving DecidableEq, Repr

/-- An operand slot of a core (R302): its claim, its data, its record; what acts on it in its order (R308); whether it is being
zeroed, or released when that order is empty (R304). -/
structure OpSlot where
  /-- The group slot of its owner, and the owner's team; the number of its claim, drawn with those of orders. -/
  owner : Nat
  team : Nat
  claim : Nat := 0
  data : Store 8 := []
  record : BitVec 64 := 0#64
  order : List Nat := []
  zeroing : Bool := false
  releasing : Bool := false
deriving DecidableEq, Repr

/-- An accumulator tile of a core (R311): elements by 64 * row + column, and the status word. -/
structure AccTile where
  owner : Nat
  team : Nat
  claim : Nat := 0
  data : Store 32 := []
  status : Word := 0#32
  order : List Nat := []
  zeroing : Bool := false
  releasing : Bool := false
deriving DecidableEq, Repr

/-- A pre-empted team as its save block holds it (R431, R320): the team, its groups, its scratchpad, its queues and ring phases from
the bases of its ranges, its slots and tiles under the numbers they had. -/
structure Saved where
  team : Team
  groups : List Group
  spad : Store 8
  queues : Keyed (List (Store 32))
  phases : Store 1
  slots : Keyed OpSlot
  tiles : Keyed AccTile
  /-- The address of the block. -/
  block : Nat := 0
deriving DecidableEq, Repr

/-- An entry of a task queue (R386), a pending entry not yet released (R388), or a resume or requeue entry (R426, R431). -/
structure Task where
  id : Nat
  card : Card
  /-- The physical address of the card's line, which a DEPDEC names (R389), and its VA. -/
  cardPa : Nat := 0
  cardVa : Nat := 0
  ctx : Nat := 0
  /-- The argument pointer it carries; none keeps the card's (R387). -/
  arg : Option Nat := none
  target : Nat := 7
  /-- The core that posted it. -/
  core : Nat := 0
  /-- Cores it may place on (R392); until a posted card is checked, the cores of its poster's cluster. -/
  scopeMask : Nat := 0
  launched : Bool := false
  /-- The launch under whose reservoir section it runs (R457). -/
  launch : Nat := 0
  privhwm : Nat := 0
  /-- The grid it forms, once it has entered a queue. -/
  grid : Nat := 0
  /-- Teams to start again, each with its index and region id, or to resume; and whether the task resumed is non-restartable (R224). -/
  nr : Bool := false
  again : List (Nat × Nat) := []
  saved : List Saved := []
  /-- The group whose P7 its acceptance lowers: core, slot, operation (R388). -/
  poster : Option (Nat × Nat × Nat) := none
deriving DecidableEq, Repr

/-- A grid in progress (R384, R395). -/
structure Grid where
  task : Task
  /-- Barrier-object credits for teams that have not started: team index, barrier offset (R370). -/
  credits : List (Nat × Nat) := []
  /-- Tickets claimed so far. -/
  ticket : Nat := 0
  /-- The indices of the teams that have ended. -/
  ended : List Nat := []
  faultmask : Word := 0#32
  failed : Bool := false
  /-- The reason for which its card was refused (R383), with the windows of a refused launch's block. -/
  refused : Option Nat := none
  wins : Option (List Nat) := none
deriving DecidableEq, Repr

/-- A cluster of teams (R111). -/
structure Cluster where
  teams : List Nat
  /-- Core rectangle: the top-left core, width and height. -/
  core : Nat
  w : Nat
  h : Nat
  grid : Nat
  bars : Keyed Barrier := []
  /-- The task is marked non-restartable (R224). -/
  nr : Bool := false
  aborted : Bool := false
  /-- The teams that an abort ended, by index and region id, until the record's action (R424, R426). -/
  lost : List (Nat × Nat) := []
  /-- A pre-emption request: when it was made, and the save block of each team (R430, R431). -/
  preempt : Option (Nat × List Nat) := none
deriving DecidableEq, Repr

/-! ## Contexts (06, 09, 15, 16) -/

/-- One context: its context-scoped registers and what the module holds for it. -/
structure Ctx where
  /-- Scope entries 4 to 31, 320 bits each (R158, R233). -/
  scopes : Store 320 := []
  lease : Word := 4096#32
  orphan : Word := 1000#32
  win : Store 16 := []
  ptroot0 : Word := 0#32
  ptroot1 : BitVec 8 := 0#8
  privcfg : BitVec 21 := 0x100000#21
  fspill0 : Word := 0#32
  fspill1 : BitVec 24 := 0#24
  fspcap : Word := 0#32
  failed : Bool := false
  suspended : Bool := false
  /-- Region ids in use (R415). -/
  regions : List Nat := []
  /-- Mailboxes: die * 16 + number (R397). -/
  boxes : Store 32 := []
deriving DecidableEq, Repr

/-! ## Cores -/

/-- A trap record of a group slot (Table 16.6), pending. -/
structure TrapRec where
  cause : Nat
  sub : Nat := 0
  split : Nat := 0
  aborted : Bool := false
  nr : Bool := false
  pc : Word := 0#32
  va : VAddr := 0#80
  ctx : Nat := 0
  lanes : Word := 0#32
  exec : Word := 0#32
  infoA : Word := 0#32
  infoB : Word := 0#32
  tslot : Nat := 0
  clock : Dword := 0#64
  action : Word := 0#32
  hwmval : Word := 0#32
  /-- The team of its group: the task that its action is for. -/
  team : Nat := 0
  /-- Sent to the control node (R417). -/
  host : Bool := false
deriving DecidableEq, Repr

/-- An engine-fault record (Table 11.8), its eight words, with the agent and operation that posted it. -/
structure EngineFault where
  agent : Nat
  op : Nat
  words : List Word
  /-- When it was posted. -/
  clock : Nat := 0
  action : Word := 0#32
  host : Bool := false
  /-- Its engine was to go on at a resume message when the fault was raised (sys.hmode bit 8, R449). -/
  resume : Bool := false
deriving DecidableEq, Repr

/-! ## Reasons to stop -/

/-- Why the machine stops. -/
inductive Fault where
  /-- Raised by step when the module has stopped: THERMTRIP (R447) or BOOTFAIL (R443). Safe: the spec says the module stops. -/
  | moduleStopped
deriving DecidableEq, Repr

/-- Why a step has no meaning. -/
inductive Refusal where
  /-- Raised by exec for an instruction that has no meaning yet, by its mnemonic. Safe. -/
  | notModelled (mnemonic : String)
deriving DecidableEq, Repr

/-! ## The core, the device, the state -/

/-! ## Engines (10_fulling_nodes.md to 14_reservoirs_and_reuse.md) -/

/-- A fault that a copy command has met at its cursor row (R297): the address, the access, whether it is fatal, and the byte within
the row. -/
structure CopyFault where
  va : Nat
  write : Bool
  fatal : Bool
  byte : Nat
deriving DecidableEq, Repr

/-- The progress of a conversion (R291, R292). Decoding: the chunk, the elements it has made of its count, the bit position, zeros and
an element still to be emitted, and whether the input is corrupt behind them. Encoding: the bits of the chunk being made, its elements, the
zeros not yet encoded. -/
structure Conv where
  chunk : Nat := 0
  count : Nat := 0
  bitlen : Nat := 0
  made : Nat := 0
  pos : Nat := 0
  zeros : Nat := 0
  elem : Option Nat := none
  corrupt : Bool := false
  bits : Nat := 0
  nbits : Nat := 0
  elems : Nat := 0
  run : Nat := 0
deriving DecidableEq, Repr

/-- A row that has been encoded and is not yet credited (R292): the progress at its start, where it is encoded again after a fault (R298), and
the chunk that holds its last symbol. -/
structure PackRow where
  row : Nat
  start : Conv
  fin : Option Nat
deriving DecidableEq, Repr

/-- A destination line of a command (R230): its virtual address, its line number where it has translated, and the last row that writes it. -/
structure LineClaim where
  va : Nat
  line : Option Nat
  last : Nat
deriving DecidableEq, Repr

/-- A command of a core's copy engine (R276). Its descriptor is the little-endian number of its 256 bytes. -/
structure CopyCmd where
  /-- Its command slot. -/
  number : Nat
  /-- F of Table 11.1. -/
  kind : Nat
  team : Nat
  slot : Nat
  op : Nat
  ctx : Nat
  desc : Nat
  srcWin : Nat
  dstWin : Nat
  /-- The teams a multicast delivers to, and those that have failed (R287). -/
  receivers : List Nat := []
  failed : List Nat := []
  /-- Not released (R278): its region, or the commit that it is, has not committed; `posting` in the second case, before P2 is raised. -/
  held : Bool := false
  posting : Bool := false
  started : Bool := false
  /-- The next row. -/
  row : Nat := 0
  fault : Option CopyFault := none
  suspended : Bool := false
  /-- Cancelled: it finishes what it has begun (R299). -/
  cancelled : Bool := false
  /-- The commands that a CP.CANCEL waits for (R299). -/
  cancels : List Nat := []
  /-- The place in its slot's order of a row that waits there (R308). -/
  turn : Option Nat := none
  /-- The indices that it has read (R286). -/
  idx : List Nat := []
  lines : List LineClaim := []
  conv : Conv := {}
  pending : List PackRow := []
deriving DecidableEq, Repr

/-- A released MMA (R316 to R318). -/
structure Mma where
  id : Nat
  /-- Its sequence number (R312). -/
  seq : Nat
  pair : Nat
  tb : Bool
  ovw : Bool
  acc : Nat
  slb : Nat
  sla : Nat
  k : Nat
  team : Nat
  /-- The gang's groups, with the operation each counts on P6. -/
  members : List (Nat × Nat)
  started : Bool := false
  fmtErr : Bool := false
  /-- What it read of its slots at its start: data and records of A and of B. -/
  a : Store 8 := []
  b : Store 8 := []
  recA : BitVec 64 := 0#64
  recB : BitVec 64 := 0#64
deriving DecidableEq, Repr

/-- The ray of a lane as a traversal holds it: origin, direction, limits (R330). -/
structure Ray where
  o : List Word
  d : List Word
  tmin : Word
  tmax : Word
deriving DecidableEq, Repr

/-- The instance context of a traversal entry (R334): the chain of instances, the innermost first, its ray, its user word, and the node
base of its structure. -/
structure InstCtx where
  chain : List Nat
  ray : Ray
  user : Nat
  base : Nat
deriving DecidableEq, Repr

/-- An entry of a traversal stack (R334): a reference word with its entry distance and its instance context. -/
structure TravEntry where
  ref : Nat
  dist : Word
  ctx : InstCtx
deriving DecidableEq, Repr

/-- A hit found (R338). -/
structure Hit where
  t : Word
  id : Nat
  u : Word
  v : Word
  kind : Nat
  depth : Nat
  user : Nat
deriving DecidableEq, Repr

/-- A traversal in progress (R332, R334): entries on chip and spilled, the nearest first; the closest hit; the counts of tests. -/
structure Trav where
  stack : List TravEntry
  spilled : List TravEntry := []
  tcur : Word
  best : Option Hit := none
  boxes : Nat := 0
  prims : Nat := 0
deriving DecidableEq, Repr

/-- A lane of an instruction of the ray unit, the walker or the texture unit. -/
structure RayLane where
  /-- The registers read at issue. -/
  args : List Word
  trav : Option Trav := none
  /-- Its work is suspended by a restartable fault (R325). -/
  suspended : Bool := false
  /-- Its record was answered by a termination (R421). -/
  killed : Bool := false
  /-- How far its traversal was when the fault came, for the result of one that is terminated (R338). -/
  last : Option Trav := none
  result : Option (List Word) := none
deriving DecidableEq, Repr

/-- An instruction of the ray unit, the light-tree walker or the texture unit (R322). Its descriptor is the little-endian number of its
32 bytes. -/
structure RayOp where
  /-- F of Table 13.1. -/
  kind : Nat
  team : Nat
  slot : Nat
  op : Nat
  ctx : Nat
  desc : Nat
  win : Nat
  /-- The private region that holds the spill areas (R334). -/
  priv : Nat × Nat
  dst : Nat
  lanes : Keyed RayLane
  held : Bool
  /-- The reuse job it traces for (R374). -/
  job : Option Nat := none
deriving DecidableEq, Repr

/-- A candidate of a reuse job (R372): its pixel by number, its index, its record, its target value, its visibility ray, and whether it
is dropped. -/
structure Cand where
  pix : Nat
  i : Nat
  record : List Word
  phat : Option Word := none
  ray : List Word := []
  seen : Bool := false
  dropped : Bool := false
deriving DecidableEq, Repr

/-- A job of a core's reuse engine (R371). Its descriptor is the little-endian number of its 128 bytes. -/
structure ReuseJob where
  team : Nat
  slot : Nat
  op : Nat
  ctx : Nat
  launch : Nat
  /-- Where its descriptor stands, the descriptor, and that of its acceleration structure. -/
  off : Nat
  desc : Nat
  accel : Nat
  /-- The windows of its motion vectors and of its structure; the private region of its group. -/
  win : Nat
  accelWin : Nat
  priv : Nat × Nat
  code : Nat := 0
  rayEnd : Nat := 0
  held : Bool := true
  started : Bool := false
  cands : List Cand := []
  /-- The next pixel to be written. -/
  pix : Nat := 0
  /-- The candidates of the batch in the evaluator, by their places, lane by lane, and the instructions it has executed. -/
  batch : List Nat := []
  count : Nat := 0
deriving DecidableEq, Repr

/-- A BRIMX in progress (R369). Its descriptor is the little-endian number of its 32 bytes. -/
structure BrimOp where
  team : Nat
  slot : Nat
  op : Nat
  ctx : Nat
  launch : Nat
  desc : Nat
  held : Bool
deriving DecidableEq, Repr

/-- Where a fulling message stands (R259 to R270). -/
inductive FPlace where
  /-- On its way to its node. -/
  | flight
  /-- Waiting in the node's matching store, or spilled to the ring of its context. -/
  | store
  | ring
  /-- Refused, with its sender's core, which tries again. -/
  | backoff
  /-- A delivery on its way to its team, or held at the node, or spilled, until the team starts. -/
  | delivery
  | held
  | heldRing
  /-- At a peer port, come from the module there: an operand for a node of this module, or a delivery for a team of it (R249). -/
  | port (k : Nat) (final : Bool)
deriving DecidableEq, Repr

/-- A fulling message: an operand with what it carries (R256, R258). -/
structure FMsg where
  ctx : Nat
  /-- The tag it is for, and the leg: 0 left, 1 right. -/
  tag : Nat
  leg : Nat
  op : Nat
  /-- Its bytes, and their number. -/
  len : Nat
  data : Store 8
  /-- CHAIN: the tag and the leg that receive the result. -/
  chain : Option (Nat × Nat) := none
  /-- TREE: the base tag, the rank count, and the level and position of the node it is for. -/
  tree : Option (Nat × Nat × Nat × Nat) := none
  /-- The final destination: the launch, the team index, the offset, the barrier offset. -/
  launch : Nat
  team : Nat
  offset : Nat
  barrier : Nat
  /-- The M cap of its sender (R261). -/
  mcap : Nat
  place : FPlace
  /-- The node that serves its tag, as a number of the module: mesh nodes by core, then base die, then I-die. -/
  node : Nat
  /-- The sender whose P5 its acceptance lowers: core, slot, operation. -/
  sender : Option (Nat × Nat × Nat) := none
  /-- The status it is forwarded or delivered with. -/
  status : Nat := 0
  /-- The clock of its arrival at the node, or of its first refusal; clocks counted before a suspension. -/
  since : Nat := 0
  tries : Nat := 0
  /-- The bytes its barrier object is credited with, when they are not its own number (R262). -/
  credit : Option Nat := none
  /-- The tag word whose UNDELIV bit a failed delivery sets. -/
  from_ : Option Nat := none
  /-- The input port at which it reaches its node (R259), and the clk in which it was stored or spilled there (R267). -/
  inPort : Nat := 0
  came : Nat := 0
  /-- Its place in its context's spill ring, counted on from the ring's first byte (R266). -/
  ringAt : Nat := 0
  /-- The peer port behind which the module of its sender and of its final destination lies (R249). -/
  peer : Option Nat := none
deriving DecidableEq, Repr

/-- A tag of a context as its node and the tag table hold it (R248 to R254). -/
structure Tag where
  word : Nat
  /-- Its place in a tree: the base index and the rank count; a single tag is its own base. -/
  base : Nat
  ranks : Nat
  cause : Nat := 0
  undeliv : Bool := false
  flags : BitVec 5 := 0#5
  drops : Nat := 0
  combines : Nat := 0
deriving DecidableEq, Repr

/-- What the node of a tag is told of it (R251, R253, R255). -/
inductive TagNews where
  | allocated
  | released
  | purged
deriving DecidableEq, Repr

/-- A peer scratchpad access on its way (R194): the core and team it goes to, the operation it completes, per lane the address and
the data, and the queues that its destination names, read at issue (R49). -/
structure PeerAccess where
  team : Nat
  core : Nat
  slot : Nat
  op : Nat
  /-- 0 store, 1 load, 2 atomic with the operation `code`. -/
  kind : Nat
  code : Nat
  size : Nat
  lanes : List (Nat × Nat × Nat × Nat)
  dst : Nat
  mask : Word
  ctx : Nat
  queues : List Nat := []
deriving DecidableEq, Repr

/-- The reservoir section in force for a launch (R361), with the ownership map as a number (R362). -/
structure Launch where
  ctx : Nat
  ways : Nat := 0
  planes : Nat := 0
  brim : Nat := 32
  w : Nat := 1
  h : Nat := 1
  map : Nat := 0
  bases : List Nat := []
  brims : List Nat := []
deriving DecidableEq, Repr

/-- A line of the reservoir store (R363, R364): its backing address, its home slice and set, its bytes. -/
structure RsvLine where
  pa : Nat
  slice : Nat
  set : Nat
  bytes : Store 8
  dirty : Bool
deriving DecidableEq, Repr

/-- One core (01, 08, 16): its scratchpad, its register queues and rings, its traps and its level-1 TLB, its engines. -/
structure Core where
  spad : Store 8 := []
  /-- The 16 register queues, oldest entry first (R47). -/
  queues : Keyed (List (Store 32)) := []
  /-- Ring phases: ring * 8 + stage (R396). -/
  phases : Store 1 := []
  /-- The trap-record file: the pending records by group slot (R417). -/
  traps : Keyed TrapRec := []
  /-- The engine-fault queue, oldest first (R417). -/
  faults : List EngineFault := []
  /-- Records of group slots that wait, in their order, for the action on a pending one of their slot, with where SKIP resumes (R417). -/
  owed : List (Nat × TrapRec × (Word × Nat)) := []
  trsel : BitVec 7 := 0#7
  tvec : Word := 0#32
  preemptLimit : Word := 2000000#32
  wdlimit : Word := 0x10000000#32
  preempt : BitVec 8 := 0#8
  pesave0 : Word := 0#32
  pesave1 : BitVec 24 := 0#24
  halted : Bool := false
  tlb : List Tlb := []
  /-- The group slot that runs in reserved mode (R225). -/
  reserved : Option Nat := none
  /-- The split whose carding instruction a restartable spill fault holds, by slot and split index (R482); the carding operations that
  have not completed, by slot and operation, in their order (R210). -/
  carding : Option (Nat × Nat) := none
  /-- Where that split stands: the code address and the place in its clause. -/
  cardPlace : Word × Nat := (0#32, 0)
  cardOrder : List (Nat × Nat) := []
  /-- Copy commands by acceptance number, and what they have written to destination bytes that an earlier command may write too, by
  byte, with the number of the command (R276, R284). -/
  copies : Keyed CopyCmd := []
  copyLog : Keyed Nat := []
  /-- Operand slots and tiles claimed, MMAs released and not complete, their count, and when the array is free (R302 to R318). -/
  slots : Keyed OpSlot := []
  tiles : Keyed AccTile := []
  mmas : List Mma := []
  /-- Operations with an effect still to come whose groups have ended, with their teams (R304, R310, R314). -/
  late : List (Nat × Async) := []
  mmaCount : BitVec 16 := 0#16
  arrayFree : Nat := 0
  /-- The ray unit, the light-tree walker and the texture unit (R324); the reuse engine (R371); brim exchanges (R369). -/
  rays : Keyed RayOp := []
  jobs : Keyed ReuseJob := []
  brims : Keyed BrimOp := []
deriving DecidableEq, Repr

/-- What the module sends to the control node (R384, R417, R441). -/
inductive OutMsg where
  /-- The completion record of a launched card (R384). -/
  | completion (ctx : Nat) (cardVa : Nat) (status reason : Nat) (faultmask : Word) (teams : Nat)
  /-- A completion write or successor decrement that failed (R384). -/
  | completionFault (ctx : Nat) (cardVa : Nat) (va : Nat)
  /-- A trap record in host-assisted mode, or the supervisor's own (R417, R423). -/
  | trapRecord (core slot : Nat) (rec : TrapRec)
  /-- An engine-fault record in host-assisted mode (R297, R449). -/
  | engineFault (core : Nat) (f : EngineFault)
  /-- A request made of the control node: spill refill, carding spill area (R201, R266), by context, and by team and table. -/
  | spillRefill (ctx : Nat)
  | cardingSpill (team table : Nat)
  /-- The status of a shootdown, the count of a harvest (R449). -/
  | shootdownStatus (status : Nat)
  | harvestCount (count : Nat)
  /-- Replies to memory reads (R440, R442), reports (R443, R445, R447, R448, R449). -/
  | memoryData (msg : Nat) (data : List Byte)
  | memoryFault (msg : Nat)
  | attestation (nonce : BitVec 256) (measurements : List (BitVec 256)) (versions : List Nat) (key : List Byte)
      (signature : BitVec (8 * 7856))
  | bootFail (stage : Nat)
  | thermTrip
  | scrubLate
  | telemetry (clock : Nat) (marks : List Nat)
  /-- An operand that goes to a node of another module through a peer port (R248). -/
  | peerOperand (port : Nat) (m : FMsg)
  /-- What a node of another module is told of a tag: the context, its word, its base and its rank count (R251, R253, R255). -/
  | peerTag (port ctx word base ranks : Nat) (news : TagNews)
deriving DecidableEq, Repr

/-- A request made of the supervisor in hardware mode, for which the spec names no register (R201, R266, R449): a spill ring to be extended, by
context; a carding spill area to be supplied, by team and table. -/
inductive SupAsk where
  | spillRefill (ctx : Nat)
  | cardingSpill (team table : Nat)
deriving DecidableEq, Repr

/-- A request made of agents of the whole module: TLBINV, DHARV and their forms of the control node, TAGALLOC, TAGFREE, TAGQRY and
TAGPURGE. -/
inductive ReqKind where
  /-- An invalidation of a context's pages in a window from a page on (R410). -/
  | invalidate (ctx win page n : Nat)
  /-- An invalidation of a context, or of every one (R410). -/
  | invalidateCtx (ctx : Nat) (all : Bool)
  /-- A dirty harvest of a context's pages from a virtual address on (R414). -/
  | harvest (ctx : Nat) (va : Nat) (pages : Nat)
  /-- A tag allocation of a class, with its argument (R251). -/
  | tagAlloc (ctx : Nat) (cls : Nat) (arg : Nat)
  | tagFree (ctx : Nat) (tag : Nat)
  | tagQuery (ctx : Nat) (tag : Nat)
  | tagPurge (ctx : Nat)
  /-- What the module at a peer port tells a node of this one of a tag, its context and its word that module's own (R249, R251). -/
  | nodeTag (port ctx word base ranks : Nat) (news : TagNews)
deriving DecidableEq, Repr

/-- A request in progress: the split that waits for it, core 320 for the control node; whether an invalidation's removal has taken effect,
and the loads that it waits for, by core, slot and operation (R411); whether an acknowledgement was lost (R413). -/
structure Request where
  core : Nat
  slot : Nat
  split : Nat
  kind : ReqKind
  removed : Bool := false
  loads : List (Nat × Nat × Nat) := []
  /-- The groups whose commits in progress it waits for, by core and slot (R411). -/
  commits : List (Nat × Nat) := []
  lost : Bool := false
  /-- The translations that it removed (R413); how many leaves a harvest has marked so far (R414). -/
  gone : List Tlb := []
  count : Nat := 0
deriving DecidableEq, Repr

/-- The module beyond its cores: teams, grids, task queues, translation, links (01, 09, 15, 16, 17). -/
structure Dev where
  teams : Keyed Team := []
  clusters : Keyed Cluster := []
  grids : Keyed Grid := []
  /-- Task queues: core * 2 + number for core queues, 640 + die, 642 for the device queue (Table 15.3). -/
  queues : Keyed (List Task) := []
  pendingCards : List Task := []
  /-- Posted cards that wait for room (R388). -/
  posted : List Task := []
  /-- Scope barriers: by (context, die, scope, key) (R138). -/
  scopeBars : List ((Nat × Nat × Nat × Nat) × Barrier) := []
  hmode : BitVec 10 := 0#10
  ctxstate : BitVec 16 := 0#16
  /-- Level-2 TLBs by die, and table entries in the walk caches by their physical address (R407). -/
  tlb2 : Keyed (List Tlb) := []
  walkCache : Store 128 := []
  /-- 64 KiB physical pages with a write record (R414). -/
  written : List Nat := []
  /-- Walks that met a migrating entry, by core, context and page, with the clock of the first attempt (R401, R408). -/
  retries : List ((Nat × Nat × Nat) × Nat) := []
  /-- Requests in progress, by number. -/
  requests : Keyed Request := []
  poisoned : List Nat := []
  /-- Lines reserved by a group in reserved mode: line, core, slot, until (R225). -/
  reservations : List (Nat × Nat × Nat × Nat) := []
  /-- Lines that an engine command owns: line, core, command (R230). -/
  owned : List (Nat × Nat × Nat) := []
  /-- Forward-held lines, oldest first: line and consumer core (R237). -/
  forwards : List (Nat × Nat) := []
  /-- Lines that slices hold in ways of normal use and not pinned, the least recently used first (R217). -/
  cached : List Nat := []
  /-- How many commits have written each line (R221, R231). -/
  versions : Keyed Nat := []
  /-- Translations whose removal was not acknowledged by every agent (R413). -/
  stale : List Tlb := []
  /-- Lines that slices hold dirty, oldest first, with the DRAM bytes below them (R217, R237, R448). -/
  dirty : List (Nat × Store 8) := []
  /-- Allocated tags by context * 65536 + index, the generations of all, and the messages on their way or waiting, by number (R247 to
  R273). -/
  tags : Keyed Tag := []
  tagGens : Store 5 := []
  msgs : Keyed FMsg := []
  /-- Spill rings in use: bytes appended so far by context, and the spill filter of each node (R266, R267). -/
  rings : Store 64 := []
  filters : Keyed (BitVec 4096) := []
  /-- Peer scratchpad accesses on their way, by number (R194). -/
  peers : Keyed PeerAccess := []
  /-- Launches and the lines of the reservoir store, the least recently used first (R361 to R365). -/
  launches : Keyed Launch := []
  rsv : List RsvLine := []
  /-- Context bindings: index, then local context, port, remote context (R442). -/
  bindings : Keyed (Nat × Nat × Nat) := []
  /-- Dies whose junction is above its limit, and by die the last clk whose issues an idle clock takes (R22, R447). -/
  hot : List Nat := []
  idle : Keyed Nat := []
  /-- The measurement registers, by stage (R444). -/
  measured : Store 256 := []
  /-- The windows, from clock to clock, that the control node has named for scrubs (R449). -/
  scrubWindows : List (Nat × Nat) := []
  /-- Pinned lines (R446), and the bypass counters by slice (R218). -/
  pins : List Nat := []
  bypass : Store 32 := []
  /-- The reservoir ways per slice (R364). -/
  rsvWays : Nat := 0
  /-- Peer ports whose link is down (R409). -/
  peerDown : List Nat := []
  stopped : Bool := false
  /-- Base VA of the supervisor's code in context 0, set at boot (R420). -/
  supBase : Nat := 0
  /-- Messages from outside that wait to be taken up, by number. -/
  inbox : Keyed (List Byte) := []
  /-- What the supervisor has been asked for and has not supplied (R449). -/
  asked : List SupAsk := []
  outbox : List OutMsg := []
deriving DecidableEq, Repr

/-- An item of the agenda: a step that will come about, at the earliest at clock `due`. -/
structure Agenda where
  id : Nat
  due : Nat
  ev : Event
deriving DecidableEq, Repr

/-- The parts of a clk, in their order (R37, R114, R192, log 2): the waits that are over; what splits pass without an issue (headers,
prefixes, what keeps them from issuing); the issues of the quadrants; what arrives after them. -/
inductive Phase where
  | wake
  | look
  | issue
  | arrive
deriving DecidableEq, Repr

/-- The state of the module. -/
structure State where
  /-- The issuing group and the issuing split: the last that issued, between steps. -/
  g : Group
  p : Split
  cur : Issue := {}
  others : List Group := []
  cores : Keyed Core := []
  ctxs : Keyed Ctx := []
  /-- Physical memory by address (R14, R401). -/
  mem : Memory := []
  dev : Dev := {}
  /-- sys.clock (R23). -/
  clock : Nat := 0
  agenda : List Agenda := []
  /-- The quadrants whose scheduler has issued in this clk (R113): 5 * core + quadrant; quadrant 4 is the evaluator. -/
  issued : List Nat := []
  /-- The part of the clk that the module stands in, and whether anything has come about in this clk (log 2). -/
  phase : Phase := .wake
  stir : Bool := false
  /-- Choices among what could move next; empty: the model's own order (log 2). -/
  sched : List Nat := []
  /-- The next number for an operation, a message, a request. -/
  nextId : Nat := 1
deriving DecidableEq, Repr

/-- The slot of a core's supervisor (R26). -/
def supSlot : Nat := 15

/-- A core's supervisor as boot leaves it: parked (R26, R420). -/
def supervisor (core : Nat) : Group :=
  { core := core, slot := supSlot, nregs := 32, role := 3#2 }

/-- The supervisor's only split, without a record to serve. -/
def supervisorSplit : Split := { wait := .idle }

/-- A core as reset leaves it. -/
def Core.reset : Core := {}

/-- A context as reset leaves it. -/
def Ctx.reset : Ctx := {}

/-- The module right after reset: no team placed, every core's supervisor parked, memory with nothing listed; the boot of R443 is the
step that follows (log 28). -/
def State.reset : State :=
  { g := supervisor 0, p := supervisorSplit, agenda := [{ id := 0, due := 0, ev := .reset }] }

end Sys2Proof.Machine
end

