-- ==== Sys2Proof/Machine/Ops.lean ====
section
/-! DEFINITION. Sys2Proof/Machine/Ops.lean: the named operations over the state: finding and changing cores, contexts, teams and
groups, reading and writing registers and queues, starting and ending asynchronous operations, taking a trap, and going on to the
next instruction. -/

namespace Sys2Proof.Machine

/-- What a meaning answers. -/
abbrev Out := Host.Outcome State Fault Refusal

/-! ## Cores, contexts, teams -/

/-- Core `c`; one that nothing has touched is as reset leaves it. -/
def State.core (s : State) (c : Nat) : Core := (keyFind s.cores c).getD Core.reset

/-- The state with core `c` replaced. -/
def State.setCore (s : State) (c : Nat) (k : Core) : State := { s with cores := keyPut s.cores c k }

/-- The state with core `c` changed by `f`. -/
def State.modCore (s : State) (c : Nat) (f : Core → Core) : State := s.setCore c (f (s.core c))

/-- Context `c`; one that nothing has touched is as reset leaves it. -/
def State.ctx (s : State) (c : Nat) : Ctx := (keyFind s.ctxs c).getD Ctx.reset

def State.setCtx (s : State) (c : Nat) (k : Ctx) : State := { s with ctxs := keyPut s.ctxs c k }

def State.modCtx (s : State) (c : Nat) (f : Ctx → Ctx) : State := s.setCtx c (f (s.ctx c))

def State.modDev (s : State) (f : Dev → Dev) : State := { s with dev := f s.dev }

/-- What stands for the team of a group that has none (the supervisor's): no queues, no rings, no scratchpad. -/
def Team.nobody : Team :=
  { core := 0, tslot := 0, grid := 0, cluster := 0, pos := 0, index := 0, groups := 1, ctx := 0, card := {} }

/-- Team number `t`. -/
def State.team (s : State) (t : Nat) : Team := (keyFind s.dev.teams t).getD Team.nobody

/-- The state with team `t`, if it is resident, changed by `f`. -/
def State.modTeam (s : State) (t : Nat) (f : Team → Team) : State :=
  s.modDev fun d => { d with teams := keyModify d.teams t f }

/-- The team of the issuing group. -/
def State.myTeam (s : State) : Team := s.team s.g.team

/-- Whether the issuing group is a supervisor's (R7). -/
def State.isSup (s : State) : Bool := s.g.slot == supSlot

/-- The die of a core (R19). -/
def dieOf (core : Nat) : Nat := core / 160

/-- An item of the agenda put at its end. -/
def State.after (s : State) (clk : Nat) (ev : Event) : State :=
  { s with agenda := s.agenda ++ [{ id := s.nextId, due := s.clock + clk, ev := ev }], nextId := s.nextId + 1 }

/-- The slot number of the pseudo-group that evaluates a target callable on a core (R376). -/
def evalSlot : Nat := 64

/-- Whether a group is one of a team: no supervisor, no evaluator. -/
def Group.isThread (g : Group) : Bool := g.slot != supSlot && g.evaluates.isNone

/-- A message to the control node. -/
def State.say (s : State) (m : OutMsg) : State := s.modDev fun d => { d with outbox := d.outbox ++ [m] }

/-! ## Splits and groups -/

/-- The splits of a list with `q` put in the place of the one of its index. -/
def putSplit (q : Split) : List Split → List Split
  | [] => [q]
  | r :: l => if q.idx < r.idx then q :: r :: l else if q.idx = r.idx then q :: l else r :: putSplit q l

/-- The split of index `i` of a list. -/
def findSplit (i : Nat) (l : List Split) : Option Split := l.find? fun q => q.idx == i

/-- The splits of a list but the one of index `i`. -/
def dropSplit (i : Nat) (l : List Split) : List Split := l.filter fun q => !(q.idx == i)

/-- The issuing group with the issuing split back among its splits. -/
def State.whole (s : State) : Group :=
  { s.g with splits := if s.p.live then putSplit s.p s.g.splits else s.g.splits }

/-- The state with the issuing group given whole; the issuing split stays the one of its index, and has ended if there is none. -/
def State.setWhole (s : State) (g : Group) : State :=
  match findSplit s.p.idx g.splits with
  | some q => { s with g := { g with splits := dropSplit s.p.idx g.splits }, p := q }
  | none => { s with g := g, p := { s.p with live := false } }

/-- Whether group `g` is in slot `slot` of core `core`. -/
def Group.at (g : Group) (core slot : Nat) : Bool := g.core == core && g.slot == slot

/-- Every group of the module, whole. -/
def State.groups (s : State) : List Group := if s.g.live then s.whole :: s.others else s.others

/-- The state with every group changed by `f`. -/
def State.mapGroups (s : State) (f : Group → Group) : State :=
  let s' := if s.g.live then s.setWhole (f s.whole) else s
  { s' with others := s.others.map f }

/-- The state with the group in a slot of a core changed by `f`. -/
def State.modGroup (s : State) (core slot : Nat) (f : Group → Group) : State :=
  s.mapGroups fun g => if g.at core slot then f g else g

/-- The group in a slot of a core. -/
def State.group (s : State) (core slot : Nat) : Option Group := s.groups.find? fun g => g.at core slot

/-- A group's split changed. -/
def Group.modSplit (g : Group) (i : Nat) (f : Split → Split) : Group :=
  { g with splits := g.splits.map fun q => if q.idx = i then f q else q }

/-- The state with one split of a group changed. -/
def State.modSplit (s : State) (core slot i : Nat) (f : Split → Split) : State :=
  s.modGroup core slot fun g => g.modSplit i f

/-- The state whose issuing group and split are the ones named; a supervisor that nothing has touched is as boot leaves it. -/
def State.focus (s : State) (core slot i : Nat) : State :=
  if s.g.at core slot && s.g.live then
    let w := s.whole
    { s with g := { w with splits := dropSplit i w.splits }, p := (findSplit i w.splits).getD { s.p with live := false } }
  else
    let rest := s.others.filter fun g => !(g.at core slot)
    let w := (s.others.find? fun g => g.at core slot).getD { supervisor core with splits := [supervisorSplit] }
    { s with
      others := if s.g.live then rest ++ [s.whole] else rest
      g := { w with splits := dropSplit i w.splits }
      p := (findSplit i w.splits).getD { supervisorSplit with live := false } }

/-- A split made ready (R114: its ready time is this clk). -/
def State.wake (s : State) (q : Split) : Split := { q with wait := .none, readyTime := s.clock }

/-! ## Scalar registers (R42 to R46, Table 2.5) -/

/-- The value of a scalar source (Table 2.5). -/
def State.readS (s : State) (a : BitVec 7) : Word :=
  if a.toNat < 124 then storeRead s.g.s a.toNat
  else if a = 124#7 then s.p.exec
  else if a = 125#7 then 0#32
  else if a = 126#7 then BitVec.ofNat 32 s.g.gid
  else s.cur.lit

/-- The value of a 64-bit scalar source: an even pair, zero, or the literal word zero-extended (R43, R146). -/
def State.readS64 (s : State) (a : BitVec 7) : Dword :=
  if a.toNat < 124 then pair32 (storeRead s.g.s a.toNat) (storeRead s.g.s (a.toNat + 1))
  else if a = 127#7 then s.cur.lit.setWidth 64
  else 0#64

/-- A value written to scalar register number `n`. -/
def State.putS (s : State) (n : Nat) (x : Word) : State := { s with g := { s.g with s := storeWrite s.g.s n x } }

/-- A value written to a scalar destination (Table 2.5, R118): exec keeps the member lanes, zero discards. -/
def State.writeS (s : State) (d : BitVec 7) (x : Word) : State :=
  if d.toNat < 124 then s.putS d.toNat x
  else if d = 124#7 then { s with p := { s.p with exec := x &&& s.p.member } }
  else s

/-- A 64-bit value written to an even pair, or discarded (R149). -/
def State.writeS64 (s : State) (d : BitVec 7) (x : Dword) : State :=
  if d.toNat < 124 then (s.putS d.toNat (lo32 x)).putS (d.toNat + 1) (hi32 x) else s

/-! ## Vector registers (Table 2.4) -/

/-- The number of a v or w register among 0 to 231: w0 to w7 stand after v223. -/
def vnum (a : BitVec 8) : Nat := a.toNat

/-- The 32 lanes of vector register number `n`. -/
def Group.vreg (g : Group) (n : Nat) : Lanes := fun l => storeRead g.v (32 * n + l)

/-- The queue of the core that q register `k` of the issuing team names (R47). -/
def State.queueOf (s : State) (k : Nat) : Nat := s.myTeam.qbase + k

/-- A queue of a core, oldest entry first. -/
def Core.queue (k : Core) (q : Nat) : List (Store 32) := (keyFind k.queues q).getD []

/-- The entry that reading q register `k` gives: the one that the instruction has popped already, else the head (R47). -/
def State.queueHead (s : State) (k : Nat) : Store 32 :=
  (keyFind s.p.taken k).getD (((s.core s.g.core).queue (s.queueOf k)).headD [])

/-- The lanes of a vector source as it stands (Table 2.4); a q register reads its head entry. -/
def State.vsource (s : State) (a : BitVec 8) : Lanes :=
  let n := a.toNat
  if n < 232 then s.g.vreg n
  else if n = 0xE8 then storeRead s.p.y0
  else if n = 0xE9 then storeRead s.p.y1
  else if n = 0xEB then fun l => BitVec.ofNat 32 l
  else if n = 0xEC then fun _ => s.cur.lit
  else if 0xF0 ≤ n then storeRead (s.queueHead (n - 0xF0))
  else fun _ => 0#32

/-- The lanes of a 64-bit vector source (R44): an even pair, y0 with y1, zero, the lane index, or the literal word widened by
`lit` (R43). -/
def State.vsource64 (s : State) (lit : Word → Dword) (a : BitVec 8) : Lanes64 :=
  let n := a.toNat
  if n < 232 then fun l => pair32 (s.g.vreg n l) (s.g.vreg (n + 1) l)
  else if n = 0xE8 then fun l => pair32 (storeRead s.p.y0 l) (storeRead s.p.y1 l)
  else if n = 0xEB then fun l => BitVec.ofNat 64 l
  else if n = 0xEC then fun _ => lit s.cur.lit
  else fun _ => 0#64

/-- The lanes of `f` under a mask as a store of lanes. -/
def lanesStore (mask : Word) (f : Lanes) : Store 32 :=
  storeFill [] (laneList.filter (bitOf mask)) f

/-- Vector register number `n` of a group with the lanes of `mask` set from `f`; the others keep their values. -/
def putLanes (v : Store 32) (n : Nat) (mask : Word) (f : Lanes) : Store 32 :=
  laneList.foldl (fun v l => if bitOf mask l then storeWrite v (32 * n + l) (f l) else v) v

/-- The issuing group's vector register number `n` written under a mask. -/
def State.putV (s : State) (n : Nat) (mask : Word) (f : Lanes) : State :=
  { s with g := { s.g with v := putLanes s.g.v n mask f } }

/-- The number of entries a register queue holds (Table 1.4). -/
def queueDepth : Nat := 8

/-- An entry pushed on a queue of a core. -/
def State.push (s : State) (core q : Nat) (e : Store 32) : State :=
  s.modCore core fun k => { k with queues := keyPut k.queues q (k.queue q ++ [e]) }

/-- The head entry of a queue of a core dropped. -/
def State.pop (s : State) (core q : Nat) : State :=
  s.modCore core fun k => { k with queues := keyPut k.queues q (k.queue q).tail }

/-- The queues of the core that a write of q register `k` reaches (R47, R49). -/
def State.pushTargets (s : State) (k : Nat) : List Nat :=
  if s.g.sys.mode.getLsbD 0 then
    ((List.range 16).filter fun j => (storeRead s.g.sys.mcset k).getLsbD j).map s.queueOf
  else [s.queueOf k]

/-- Entries pushed where there is room; the rest, with the state. -/
def State.pushSome (s : State) (core : Nat) : List (Nat × Store 32) → State × List (Nat × Store 32)
  | [] => (s, [])
  | (q, e) :: r =>
    if ((s.core core).queue q).length < queueDepth then (s.push core q e).pushSome core r
    else let (s', l) := s.pushSome core r; (s', (q, e) :: l)

/-- The same of a split's entries on their way (R49). -/
def State.pushSplit (s : State) (core : Nat) : List Push → State × List Push
  | [] => (s, [])
  | e :: r =>
    if ((s.core core).queue e.queue).length < queueDepth then (s.push core e.queue e.entry).pushSplit core r
    else let (s', l) := s.pushSplit core r; (s', e :: l)

/-- An entry written to q register `k` (R47, R49): it is on its way to every queue that the register names, and at the end of the clk each that
has room accepts it (State.acceptPushes). -/
def State.writeQ (s : State) (k : Nat) (e : Store 32) : State :=
  { s with p := { s.p with pushing := s.p.pushing ++ (s.pushTargets k).map fun q => { queue := q, entry := e, since := s.clock } } }

/-- A vector destination written under the exec mask (Table 2.4): a register, the discard, or a queue. -/
def State.writeV (s : State) (d : BitVec 8) (f : Lanes) : State :=
  let n := d.toNat
  if n < 232 then s.putV n s.p.exec f
  else if 0xF0 ≤ n then s.writeQ (n - 0xF0) (lanesStore s.p.exec f)
  else s

/-- A 64-bit vector destination, an even pair or the discard, written under the exec mask. -/
def State.writeV64 (s : State) (d : BitVec 8) (f : Lanes64) : State :=
  let n := d.toNat
  if n < 232 then (s.putV n s.p.exec fun l => lo32 (f l)).putV (n + 1) s.p.exec fun l => hi32 (f l) else s

/-- The last-result file after a result (R46): the computed value in active lanes, 0 in the others. -/
def State.formY (s : State) (f : Lanes) : State :=
  { s with p := { s.p with y0 := lanesStore s.p.exec f, y1 := s.p.y0 } }

/-- The same after a 64-bit result: y0 its low half, y1 its high half. -/
def State.formY64 (s : State) (lo hi : Lanes) : State :=
  { s with p := { s.p with y0 := lanesStore s.p.exec lo, y1 := lanesStore s.p.exec hi } }

/-- The q registers among source codes whose head the instruction has still to pop, once each (R47). -/
def State.toPop (s : State) (codes : List (BitVec 8)) : List (BitVec 8) :=
  (codes.filter fun a => decide (0xF0 ≤ a.toNat) && (keyFind s.p.taken (a.toNat - 0xF0)).isNone).eraseDups

/-- The head entry of each queue named as a source popped, once each (R47). -/
def State.popSources (s : State) (codes : List (BitVec 8)) : State :=
  (s.toPop codes).foldl (fun s a => s.pop s.g.core (s.queueOf (a.toNat - 0xF0))) s

/-- The same for an instruction that acts later (R219, R308): it holds the entries that it pops until then (log 59). -/
def State.takeSources (s : State) (codes : List (BitVec 8)) : State :=
  (s.toPop codes).foldl (fun s a =>
    let k := a.toNat - 0xF0
    let e := s.queueHead k
    let s := s.pop s.g.core (s.queueOf k)
    { s with p := { s.p with taken := keyPut s.p.taken k e } }) s

/-! ## Going on -/

/-- A split whose instruction issues in clk `t` (R114, R115): the issue ends its promotion; an instruction that has issued before, and goes
on, issues no second time. -/
def Split.issues (q : Split) (t : Nat) : Split :=
  { q with lastIssue := if q.begun then q.lastIssue else t, promoted := q.begun && q.promoted }

/-- The split stands at code address `pc`, its instruction complete, and what it held for the instruction gone. -/
def Split.goTo (q : Split) (t : Nat) (pc : Word) : Split :=
  { q.issues t with
    pc := pc, count := q.count + 1, mods := {}, stage := 0, reply := none, kept := none, stale := false, xlat := [], walkFault := none, begun := false
    carded := {}, taken := [], yielded := false, wait := if q.pushing.isEmpty then q.wait else .pushes }

/-- The instruction is complete: the split goes on behind it (R35). -/
def State.goTo (s : State) (pc : Word) : State := { s with p := s.p.goTo s.clock pc }

/-- The instruction is complete and the next one follows it. -/
def State.retire (s : State) : State := s.goTo (s.cur.pc + BitVec.ofNat 32 s.cur.len)

/-- The instruction is complete and ends its clause (R35): the split goes on at a clause header. -/
def State.jump (s : State) (pc : Word) : State :=
  let s := s.goTo pc
  { s with p := { s.p with inClause := false } }

/-- The instruction cannot issue yet. -/
def State.stall (s : State) (w : Wait) : State := { s with p := { s.p with wait := w } }

/-! ## Taking a trap (R417 to R420, R423) -/

/-- What a trap says (Table 16.5). -/
structure Trap where
  cause : Nat
  sub : Nat := 0
  va : VAddr := 0#80
  /-- The lanes concerned; exec for causes without lanes (Table 16.6). -/
  lanes : Option Word := none
  infoA : Word := 0#32
  infoB : Word := 0#32
  aborted : Bool := false
deriving DecidableEq, Repr

def cILLEGAL : Nat := 1
def cPRIV : Nat := 2
def cREGBOUND : Nat := 3
def cHAZARD : Nat := 4
def cCLAUSELEN : Nat := 5
def cSPBOUND : Nat := 6
def cACCBUSY : Nat := 7
def cGANGMIS : Nat := 8
def cROLE : Nat := 9
def cSPLITLIM : Nat := 10
def cJOINMIS : Nat := 11
def cMISALIGN : Nat := 12
def cPAGEFAULT : Nat := 13
def cPRIVGROW : Nat := 14
def cNONRESTART : Nat := 15
def cWALKREMOTE : Nat := 16
def cWALKBUSY : Nat := 17
def cPEERDOWN : Nat := 18
def cMEMERR : Nat := 19
def cINVALFAIL : Nat := 20
def cFPEXC : Nat := 21
def cTRAP : Nat := 22
def cBKPT : Nat := 23
def cWATCHDOG : Nat := 24
def cPREEMPT : Nat := 25

/-- Whether a group's task is marked non-restartable (R224). -/
def State.nonRestart (s : State) (t : Nat) : Bool :=
  ((keyFind s.dev.clusters (s.team t).cluster).map Cluster.nr).getD false

/-- The ACTION a record is written with (Table 16.5): 0 RETRY, 1 SKIP, 2 REQUEUE, 3 KILL, 4 FAIL. -/
def defaultAction (cause sub : Nat) : Word :=
  if cause = cPAGEFAULT then (if sub % 4 = 1 then 2#32 else 3#32)
  else if cause = cACCBUSY ∨ cause = cPRIVGROW ∨ cause = cNONRESTART ∨ cause = cPREEMPT then 0#32
  else if cause = cTRAP ∨ cause = cBKPT then 1#32
  else if cause = cWALKBUSY then 2#32
  else if cause = cWALKREMOTE ∨ cause = cINVALFAIL then 4#32
  else 3#32

/-- The record a trap of the issuing split writes (Table 16.6). -/
def State.trapRec (s : State) (t : Trap) (pc : Word) : TrapRec :=
  { cause := t.cause, action := defaultAction t.cause t.sub, sub := t.sub, split := s.p.idx, aborted := t.aborted, nr := s.nonRestart s.g.team, pc := pc, va := t.va, ctx := s.g.ctx
    lanes := t.lanes.getD s.p.exec, exec := s.p.exec, infoA := t.infoA, infoB := t.infoB, tslot := s.myTeam.tslot, team := s.g.team
    clock := BitVec.ofNat 64 s.clock, hwmval := s.g.sys.privhwm }

/-- Whether a record is the control node's to serve (R417, Table 17.6): every record in host-assisted trap delivery, page faults and
private growth by their own bits. -/
def State.hostServes (s : State) (cause : Nat) : Bool :=
  s.dev.hmode.getLsbD 6 ||
    (s.dev.hmode.getLsbD 0 && (cause == cPAGEFAULT || cause == cNONRESTART || cause == cWALKBUSY)) ||
    (s.dev.hmode.getLsbD 1 && cause == cPRIVGROW)

/-- A record put into the trap-record file of a core and queued for delivery, to its supervisor or to the control node (R417,
R420). -/
def State.postTrap (s : State) (core slot : Nat) (r : TrapRec) : State :=
  let host := s.hostServes r.cause
  let s := s.modCore core fun k => { k with traps := keyPut k.traps slot { r with host := host } }
  if host then s.say (.trapRecord core slot r) else s.after 60 (.supervisorEntry core)

/-- A trap of a supervisor: its core is halted, and the record goes to the control node (R423). -/
def State.haltTrap (s : State) (core slot : Nat) (r : TrapRec) : State :=
  (s.modCore core fun k => { k with halted := true, traps := keyPut k.traps slot { r with host := true } }).say (.trapRecord core slot r)

/-- The code address a trap of the issuing split names: its instruction, or the first MODX of its chain (R52), with the clause
count before it. -/
def State.trapPc (s : State) : Word × Nat :=
  match s.p.mods.start with
  | some (pc, count, _) => (pc, count)
  | none => (s.cur.pc, s.p.count)

/-- The reuse job that the issuing evaluator works for ends early with a code (R378). -/
def State.endEvaluator (s : State) (job code : Nat) : State :=
  let s := { s with g := { s.g with live := false }, p := { s.p with live := false } }
  (s.modCore s.g.core fun k => { k with jobs := keyModify k.jobs job fun j => { j with code := code } }).after 1
    (.reuseJobComplete s.g.core job)

/-- TAKING A TRAP: the instruction takes no effect, the split stands at it again (at its first MODX), the group stops, and its
record is queued (R38, R417). A trap of a supervisor halts its core, and the record goes to the control node (R423). In a target
callable it ends the job instead: with CALLABLE, or with FAULT for a failed read (R378, log 22). -/
def State.trap (s : State) (t : Trap) : State :=
  match s.g.evaluates with
  | some j => s.endEvaluator j (if t.cause < cMISALIGN then 1 else 2)
  | none =>
    let (pc, count) := s.trapPc
    let r := s.trapRec t pc
    let s := { s with
      p := { s.p with pc := pc, count := count, mods := {}, stage := 0, reply := none, kept := none, stale := false, wait := .none, xlat := [], walkFault := none, begun := false, carded := {} }
      g := { s.g with trapped := true, skip := (s.cur.pc + BitVec.ofNat 32 s.cur.len, s.p.count + 1) } }
    if s.isSup then s.haltTrap s.g.core s.g.slot r else s.postTrap s.g.core s.g.slot r

/-! ## Engine-fault records (R297, R417) -/

/-- An engine-fault record of Table 11.8: its eight words. -/
def faultWords (va ctx core num flags cursor byte : Nat) : List Word :=
  [BitVec.ofNat 32 va, BitVec.ofNat 32 (va / 2 ^ 32), BitVec.ofNat 32 (va / 2 ^ 64 % 65536 + 65536 * ctx),
   BitVec.ofNat 32 (core + 65536 * (num % 256) + 2 ^ 24 * flags), BitVec.ofNat 32 cursor, BitVec.ofNat 32 (cursor / 2 ^ 32),
   BitVec.ofNat 32 byte, 0#32]

/-- The number of records that an engine-fault queue holds (R417). -/
def faultDepth : Nat := 64

/-- Whether the engine-fault queue of a core has room (R417). -/
def State.faultRoom (s : State) (core : Nat) : Bool := decide ((s.core core).faults.length < faultDepth)

/-- A record put into the engine-fault queue of a core, for its supervisor or for the control node (R417, R420, R449). -/
def State.postEngine (s : State) (core agent op : Nat) (words : List Word) : State :=
  let host := s.dev.hmode.getLsbD 6 || s.dev.hmode.getLsbD 0
  let f : EngineFault :=
    { agent := agent, op := op, words := words, clock := s.clock, host := host, resume := s.dev.hmode.getLsbD 8 }
  let s := s.modCore core fun k => { k with faults := k.faults ++ [f] }
  if host then s.say (.engineFault core f) else s.after 60 (.supervisorEntry core)

/-! ## What traps carry -/

/-- PRIV and ROLE carry the first word of the instruction (Table 16.5). -/
def State.trapWord (s : State) (cause : Nat) : Trap := { cause := cause, infoA := s.cur.word }

/-- ILLEGAL carries the first word of the instruction it is raised at: the first MODX of a chain (R52, Table 16.5). -/
def State.illegal (s : State) : Trap :=
  match s.p.mods.start with
  | some (_, _, w) => { cause := cILLEGAL, infoA := w }
  | none => s.trapWord cILLEGAL

/-! ## Asynchronous operations (R39 to R41) -/

/-- The flag an operation of the issuing clause is assigned to (R39): SETA, or SETB under MODX kind 4; none for 15. -/
def State.flagTarget (s : State) : Option Nat :=
  let f := if s.p.mods.setb then s.p.setb else s.p.seta
  if f.toNat < 12 then some f.toNat else none

/-- The number of operations assigned to a flag that have not completed (R39). -/
def Group.flagCount (g : Group) (f : Nat) : Nat := (g.ops.filter fun o => o.flag == some f && !o.done).length

/-- A path counter (R40): the operations raised on it and not yet credited. -/
def Group.pathCount (g : Group) (k : Nat) : Nat := (g.ops.filter fun o => o.path == some k).length

/-- The operations of a group with the completed ones that are credited taken out: a path's operations leave in issue order
(R40). -/
def creditOps (seen : List Nat) : List Async → List Async
  | [] => []
  | o :: r =>
    match o.path with
    | none => if o.done then creditOps seen r else o :: creditOps seen r
    | some k => if o.done && !seen.contains k then creditOps seen r else o :: creditOps (k :: seen) r

/-- Whether an atomic of a group has still to make its commit (R229, R238). -/
def Group.atomicsInFlight (g : Group) : Bool := g.ops.any fun o => o.atomic.isSome && !o.done

/-- Whether vector register `n`, or scalar register `n`, has an asynchronous write pending (R41). -/
def Group.pendingV (g : Group) (n : Nat) : Bool := g.ops.any fun o => !o.done && o.vdst.contains n
def Group.pendingS (g : Group) (n : Nat) : Bool := g.ops.any fun o => !o.done && o.sdst.contains n

/-- A new operation in flight of the issuing group, numbered by the state's next number. -/
def State.addOp (s : State) (o : Async) : State :=
  { s with g := { s.g with ops := s.g.ops ++ [{ o with id := s.nextId }] }, nextId := s.nextId + 1 }

/-- A flag-class operation of the issuing split with the writes it will make, completing after `clk` (R39). -/
def State.startFlag (s : State) (clk : Nat) (w : Writes) (vdst sdst : List Nat) (act : Option OpAct := none) : State :=
  let id := s.nextId
  let s := s.addOp { id := 0, flag := s.flagTarget, path := none, vdst := vdst, sdst := sdst, writes := w, act := act }
  s.after clk (.flagOperationComplete s.g.core s.g.slot id)

/-- A path-class operation of the issuing group, raised at its issue; its number is the state's next number. -/
def State.startPath (s : State) (k : Nat) (w : Writes) (vdst sdst : List Nat) (inRegion : Bool := false)
    (atomic : Option Atomic := none) (act : Option OpAct := none) (origin : Option IssuedAt := none) : State :=
  s.addOp { id := 0, flag := none, path := some k, vdst := vdst, sdst := sdst, writes := w, inRegion := inRegion,
             atomic := atomic, act := act, origin := origin }

/-- The issuing instruction as a trap at it, while it is in flight, goes back to (R409, R428). -/
def State.inFlight (s : State) (l : List LaneAt) : Option IssuedAt := some { issue := s.cur, split := s.p, places := l }

/-- The register writes of an asynchronous operation made (R41), without its queue pushes. -/
def applyWrites (g : Group) (w : Writes) : Group :=
  { g with
    v := w.v.foldl (fun v e => putLanes v e.1 e.2.1 (storeRead e.2.2)) g.v
    s := w.s.foldl (fun m e => storeWrite m e.1 e.2) g.s
    sys := { g.sys with fpflags := g.sys.fpflags ||| w.fl } }

/-- Operation `id` of a group marked complete, and what is credited taken out. -/
def Group.complete (g : Group) (id : Nat) : Group :=
  { g with ops := creditOps [] (g.ops.map fun o => if o.id = id then { o with done := true } else o) }

/-- The operation of that number of a group. -/
def Group.op (g : Group) (id : Nat) : Option Async := g.ops.find? fun o => o.id == id && !o.done

/-- Operation `id` of a group changed. -/
def Group.modOp (g : Group) (id : Nat) (f : Async → Async) : Group :=
  { g with ops := g.ops.map fun o => if o.id = id then f o else o }

/-- Operation `id` of the group in a slot completes with writes `w`: they land, and the operation is credited (R39 to R41). -/
def State.finishOp (s : State) (core slot id : Nat) (w : Writes) : State :=
  s.modGroup core slot fun g => (applyWrites g w).complete id

end Sys2Proof.Machine
end

