-- ==== Sys2Proof/WellFormed.lean ====
section
/-! DEFINITION. Sys2Proof/WellFormed.lean: the static checks of the encoding, the sources of ILLEGAL that the bits alone decide
(R42-R45, R50, R69, R71, R76, R162, R244, R250, R295, R303, R315; Table 3.11). What depends on a MODX chain, on a table's shape or
on the machine's state is checked where the instruction is run. -/

namespace Sys2Proof

/-- A vector specifier that names a source (Table 2.4): 0xED to 0xEF name nothing. -/
def vsrcOk (a : BitVec 8) : Bool := !(decide (0xED ≤ a.toNat) && decide (a.toNat ≤ 0xEF))

/-- A vector specifier that may stand as a destination (Table 2.4): v, w, zero or q. -/
def vdstOk (d : BitVec 8) : Bool := decide (d.toNat < 0xE8) || d == 0xEA#8 || decide (0xF0 ≤ d.toNat)

/-- The destination of a three-source instruction (R160): v, w or zero. -/
def vdst3Ok (d : BitVec 8) : Bool := decide (d.toNat < 0xE8) || d == 0xEA#8

/-- A vector pair source (R44): an even v or w, y0, zero, lane or lit. -/
def vpairSrcOk (a : BitVec 8) : Bool :=
  (decide (a.toNat < 0xE8) && decide (a.toNat % 2 = 0)) || a == 0xE8#8 || a == 0xEA#8 || a == 0xEB#8 || a == 0xEC#8

/-- A vector pair destination (R44): an even v or w, or zero. -/
def vpairDstOk (d : BitVec 8) : Bool := (decide (d.toNat < 0xE8) && decide (d.toNat % 2 = 0)) || d == 0xEA#8

/-- A run of n registers from a (R162): all v, or all w. -/
def vrunOk (a : BitVec 8) (n : Nat) : Bool :=
  decide (a.toNat + n ≤ 0xE0) || (decide (0xE0 ≤ a.toNat) && decide (a.toNat + n ≤ 0xE8))

/-- A scalar destination (Table 2.5): not gid, not lit. -/
def sdstOk (d : BitVec 7) : Bool := decide (d.toNat ≤ 125)

/-- A scalar pair source (R146): an even register of s0 to s122, zero or lit. -/
def spairSrcOk (a : BitVec 7) : Bool := (decide (a.toNat < 124) && decide (a.toNat % 2 = 0)) || a == 125#7 || a == 127#7

/-- A scalar pair destination (R146): an even register of s0 to s122, or zero. -/
def spairDstOk (d : BitVec 7) : Bool := (decide (d.toNat < 124) && decide (d.toNat % 2 = 0)) || d == 125#7

/-- A scalar destination pair that admits no discard (R236, R295). -/
def sdestPairOk (d : BitVec 7) : Bool := decide (d.toNat < 124) && decide (d.toNat % 2 = 0)

/-- s0 to s123 or zero as a destination (R195, R303, R410). -/
def sregOrZero (d : BitVec 7) : Bool := decide (d.toNat ≤ 123) || d == 125#7

/-- The 5-bit base pair of the AT format (Table 2.7): even. -/
def spair5Ok (s : BitVec 5) : Bool := decide (s.toNat % 2 = 0)

/-- The data destination of an M-format load by its size code (R189); Z = 3 is not this row's. -/
def mdstOk (d : BitVec 8) (z : BitVec 2) : Bool :=
  (z == 0#2 && vdstOk d) || (z == 1#2 && vpairDstOk d) || (z == 2#2 && vrunOk d 4 && decide (d.toNat % 2 = 0))

/-- The data source of an M-format store by its size code (R189). -/
def msrcOk (d : BitVec 8) (z : BitVec 2) : Bool :=
  (z == 0#2 && vsrcOk d) || (z == 1#2 && vpairSrcOk d) || (z == 2#2 && vrunOk d 4 && decide (d.toNat % 2 = 0))

/-- SETA and SETB (Table 2.1): 12 to 14 raise ILLEGAL. -/
def flagFieldOk (f : BitVec 4) : Bool := decide (f.toNat ≤ 11) || f == 15#4

/-- The payload of MODX kind 0 (Table 2.9). -/
def laneSelectOk (p : BitVec 18) : Bool :=
  let mode := (p.extractLsb' 1 3).toNat
  decide (mode ≤ 5) && (decide (mode ≠ 5) || p.extractLsb' 4 5 == 0#5) &&
    (decide (mode = 3) || decide (mode = 4) || p.extractLsb' 9 1 == 0#1) && (decide (mode = 5) || p.extractLsb' 10 8 == 0#8)

/-- An odd ACC for a pair of tiles raises ILLEGAL (R315). -/
def mmaTilesOk (p : BitVec 5) (c : BitVec 3) : Bool :=
  !(p == 0#5 || p == 5#5 || p == 6#5 || p == 7#5) || c.extractLsb' 0 1 == 0#1

/-- KQ above 3 for FP64 or CF32 raises ILLEGAL (R315). -/
def mmaDepthOk (p : BitVec 5) (k : BitVec 3) : Bool := !(p == 0#5 || p == 5#5) || decide (k.toNat ≤ 3)

/-- The static well-formedness of an instruction; an event row has no encoding and no static check. -/
def wellFormed (i : Instr) : Bool :=
  match i with
  | .clauseHeader _ _ b a _ => flagFieldOk a && flagFieldOk b
  | .modxLaneSelect p => laneSelectOk p
  | .modxNegateAbs _ => true
  | .modxAddress p => !(p.extractLsb' 0 2 == 3#2) && decide ((p.extractLsb' 7 3).toNat ≤ 4)
  | .modxRounding p => decide (p.toNat ≤ 4)
  | .modxSetb => true
  | .modxSaturate _ => true
  | .nop => true
  | .mov16 b d => !(b == 10#5 && d == 0#6)
  | .iadd16 _ _ => true
  | .isub16 _ _ => true
  | .and16 _ _ => true
  | .or16 _ _ => true
  | .xor16 _ _ => true
  | .shl16 _ _ => true
  | .shr16 _ _ => true
  | .sar16 _ _ => true
  | .iminI16 _ _ => true
  | .imaxI16 _ _ => true
  | .fadd16 _ _ => true
  | .fsub16 _ _ => true
  | .fmul16 _ _ => true
  | .fmin16 _ _ => true
  | .fmax16 _ _ => true
  | .bra _ => true
  | .brez _ => true
  | .brnez _ => true
  | .brzS _ _ => true
  | .brnzS _ _ => true
  | .brnegS _ _ => true
  | .call _ s => sdstOk s
  | .nopW => true
  | .ret _ => true
  | .jmpi _ => true
  | .exit => true
  | .split _ _ _ => true
  | .join _ => true
  | .yield => true
  | .sleep _ _ => true
  | .waitp _ _ => true
  | .barTeam _ _ => true
  | .barClu _ _ => true
  | .barScope _ _ _ => true
  | .waitx _ _ => true
  | .gangset _ => true
  | .trap _ => true
  | .eret => true
  | .halt => true
  | .bkpt _ => true
  | .rcommit => true
  | .txbegin => true
  | .txend d => sdstOk d
  | .txabort _ => true
  | .fence _ => true
  | .sadd _ _ d => sdstOk d
  | .ssub _ _ d => sdstOk d
  | .smul _ _ d => sdstOk d
  | .smulhI _ _ d => sdstOk d
  | .smulhN _ _ d => sdstOk d
  | .sminI _ _ d => sdstOk d
  | .smaxI _ _ d => sdstOk d
  | .sminN _ _ d => sdstOk d
  | .smaxN _ _ d => sdstOk d
  | .sand _ _ d => sdstOk d
  | .sor _ _ d => sdstOk d
  | .sxor _ _ d => sdstOk d
  | .sandn _ _ d => sdstOk d
  | .sshl _ _ d => sdstOk d
  | .sshr _ _ d => sdstOk d
  | .ssar _ _ d => sdstOk d
  | .scmpEq _ _ d => sdstOk d
  | .scmpNe _ _ d => sdstOk d
  | .scmpLtI _ _ d => sdstOk d
  | .scmpLeI _ _ d => sdstOk d
  | .scmpLtN _ _ d => sdstOk d
  | .scmpLeN _ _ d => sdstOk d
  | .ssel _ _ d => sdstOk d
  | .sclz _ d => sdstOk d
  | .spopc _ d => sdstOk d
  | .sbrev _ d => sdstOk d
  | .sctz _ d => sdstOk d
  | .sadd64 b a d => spairDstOk d && spairSrcOk a && spairSrcOk b
  | .ssub64 b a d => spairDstOk d && spairSrcOk a && spairSrcOk b
  | .sshl64 _ a d => spairDstOk d && spairSrcOk a
  | .sshr64 _ a d => spairDstOk d && spairSrcOk a
  | .smul64 b a d => spairDstOk d && spairSrcOk a && spairSrcOk b
  | .saddi _ _ d => sdstOk d
  | .sandi _ _ d => sdstOk d
  | .sshli _ _ d => sdstOk d
  | .sshri _ _ d => sdstOk d
  | .slti _ _ d => sdstOk d
  | .srd _ d => sdstOk d
  | .swr _ _ => true
  | .sysClockRead _ => true
  | .sysGangWrite _ => true
  | .sysFpflagsWrite _ => true
  | .sysFaultmaskClear _ => true
  | .contextRegisterWrite _ _ => true
  | .preemptRequest _ _ => true
  | .contextSuspend _ => true
  | .contextResume _ => true
  | .contextMarkFailed _ => true
  | .tlbinvRange b a d => sregOrZero d && spairSrcOk a && spairSrcOk b
  | .tlbinvCtx _ d => sregOrZero d
  | .dharv b a d => sregOrZero d && spairSrcOk a && spairSrcOk b
  | .tagpurge _ => true
  | .iadd b a d => vsrcOk a && vsrcOk b && vdstOk d
  | .isub b a d => vsrcOk a && vsrcOk b && vdstOk d
  | .imul b a d => vsrcOk a && vsrcOk b && vdstOk d
  | .imulhI b a d => vsrcOk a && vsrcOk b && vdstOk d
  | .imulhN b a d => vsrcOk a && vsrcOk b && vdstOk d
  | .imad b a d => vsrcOk a && vsrcOk b && vdst3Ok d
  | .iminI b a d => vsrcOk a && vsrcOk b && vdstOk d
  | .imaxI b a d => vsrcOk a && vsrcOk b && vdstOk d
  | .iminN b a d => vsrcOk a && vsrcOk b && vdstOk d
  | .imaxN b a d => vsrcOk a && vsrcOk b && vdstOk d
  | .and b a d => vsrcOk a && vsrcOk b && vdstOk d
  | .or b a d => vsrcOk a && vsrcOk b && vdstOk d
  | .xor b a d => vsrcOk a && vsrcOk b && vdstOk d
  | .andn b a d => vsrcOk a && vsrcOk b && vdstOk d
  | .shl b a d => vsrcOk a && vsrcOk b && vdstOk d
  | .shr b a d => vsrcOk a && vsrcOk b && vdstOk d
  | .sar b a d => vsrcOk a && vsrcOk b && vdstOk d
  | .rol b a d => vsrcOk a && vsrcOk b && vdstOk d
  | .clz a d => vsrcOk a && vdstOk d
  | .popc a d => vsrcOk a && vdstOk d
  | .brev a d => vsrcOk a && vdstOk d
  | .ctz a d => vsrcOk a && vdstOk d
  | .iabs a d => vsrcOk a && vdstOk d
  | .ineg a d => vsrcOk a && vdstOk d
  | .frcp a d => vsrcOk a && vdstOk d
  | .frsq a d => vsrcOk a && vdstOk d
  | .fsqrt a d => vsrcOk a && vdstOk d
  | .fexp2 a d => vsrcOk a && vdstOk d
  | .flog2 a d => vsrcOk a && vdstOk d
  | .fsin a d => vsrcOk a && vdstOk d
  | .fcos a d => vsrcOk a && vdstOk d
  | .ffract a d => vsrcOk a && vdstOk d
  | .frintRne a d => vsrcOk a && vdstOk d
  | .frintRtz a d => vsrcOk a && vdstOk d
  | .frintRdn a d => vsrcOk a && vdstOk d
  | .frintRup a d => vsrcOk a && vdstOk d
  | .bfe b a d => vsrcOk a && vsrcOk b && vdstOk d
  | .bfi b a d => vsrcOk a && vsrcOk b && vdst3Ok d
  | .ilv2 b a d => vsrcOk a && vsrcOk b && vdstOk d
  | .ilv3 b a d => vsrcOk a && vsrcOk b && vdst3Ok d
  | .dilv2 b a d => vsrcOk a && vsrcOk b && vdstOk d
  | .dilv3 b a d => vsrcOk a && vsrcOk b && vdstOk d
  | .fadd b a d => vsrcOk a && vsrcOk b && vdstOk d
  | .fsub b a d => vsrcOk a && vsrcOk b && vdstOk d
  | .fmul b a d => vsrcOk a && vsrcOk b && vdstOk d
  | .ffma b a d => vsrcOk a && vsrcOk b && vdst3Ok d
  | .fmin b a d => vsrcOk a && vsrcOk b && vdstOk d
  | .fmax b a d => vsrcOk a && vsrcOk b && vdstOk d
  | .fdiv b a d => vsrcOk a && vsrcOk b && vdstOk d
  | .fcpys b a d => vsrcOk a && vsrcOk b && vdstOk d
  | .hadd2 b a d => vsrcOk a && vsrcOk b && vdstOk d
  | .hmul2 b a d => vsrcOk a && vsrcOk b && vdstOk d
  | .hfma2 b a d => vsrcOk a && vsrcOk b && vdst3Ok d
  | .bfma2 b a d => vsrcOk a && vsrcOk b && vdst3Ok d
  | .dadd b a d => vpairSrcOk a && vpairSrcOk b && vpairDstOk d
  | .dmul b a d => vpairSrcOk a && vpairSrcOk b && vpairDstOk d
  | .dfma b a d => vpairSrcOk a && vpairSrcOk b && vpairDstOk d
  | .ddiv b a d => vpairSrcOk a && vpairSrcOk b && vpairDstOk d
  | .icmpEq b a d => vsrcOk a && vsrcOk b && sdstOk d
  | .icmpNe b a d => vsrcOk a && vsrcOk b && sdstOk d
  | .icmpLtI b a d => vsrcOk a && vsrcOk b && sdstOk d
  | .icmpLeI b a d => vsrcOk a && vsrcOk b && sdstOk d
  | .icmpLtN b a d => vsrcOk a && vsrcOk b && sdstOk d
  | .icmpLeN b a d => vsrcOk a && vsrcOk b && sdstOk d
  | .fcmpEq b a d => vsrcOk a && vsrcOk b && sdstOk d
  | .fcmpNe b a d => vsrcOk a && vsrcOk b && sdstOk d
  | .fcmpLt b a d => vsrcOk a && vsrcOk b && sdstOk d
  | .fcmpLe b a d => vsrcOk a && vsrcOk b && sdstOk d
  | .fcmpUn b a d => vsrcOk a && vsrcOk b && sdstOk d
  | .vote a d => vsrcOk a && sdstOk d
  | .sel _ a d => vsrcOk a && vdst3Ok d
  | .movs _ d => vdstOk d
  | .lea s a d => vsrcOk a && vpairDstOk d && spairSrcOk s
  | .readlane _ a d => vsrcOk a && sdstOk d
  | .iaddi _ a d => vsrcOk a && vdstOk d
  | .shli _ a d => vsrcOk a && vdstOk d
  | .shri _ a d => vsrcOk a && vdstOk d
  | .sari _ a d => vsrcOk a && vdstOk d
  | .shflXor _ a d => vsrcOk a && vdstOk d
  | .shflUp _ _ a d => vsrcOk a && vdstOk d
  | .shflDn _ _ a d => vsrcOk a && vdstOk d
  | .sext w a d => vsrcOk a && vdstOk d && decide (1 ≤ w.toNat) && decide (w.toNat ≤ 32)
  | .shflIdx b a d => vsrcOk a && vsrcOk b && vdstOk d
  | .fclass a d => vsrcOk a && vdstOk d
  | .redx o a d => vsrcOk a && vdstOk d && decide (o.toNat ≤ 10)
  | .scanx o a d => vsrcOk a && vdstOk d && decide (o.toNat ≤ 10)
  | .cvtF32I32 r a d => vsrcOk a && vdstOk d && decide (r.toNat ≤ 4)
  | .cvtF32N32 r a d => vsrcOk a && vdstOk d && decide (r.toNat ≤ 4)
  | .cvtI32F32 _ r a d => vsrcOk a && vdstOk d && decide (r.toNat ≤ 4)
  | .cvtN32F32 _ r a d => vsrcOk a && vdstOk d && decide (r.toNat ≤ 4)
  | .cvtF64F32 a d => vsrcOk a && vpairDstOk d
  | .cvtF32F64 _ r a d => vpairSrcOk a && vdstOk d && decide (r.toNat ≤ 4)
  | .cvtF64I32 a d => vsrcOk a && vpairDstOk d
  | .cvtF64N32 a d => vsrcOk a && vpairDstOk d
  | .cvtI32F64 _ r a d => vpairSrcOk a && vdstOk d && decide (r.toNat ≤ 4)
  | .cvtN32F64 _ r a d => vpairSrcOk a && vdstOk d && decide (r.toNat ≤ 4)
  | .cvtF16F32 _ r a d => vsrcOk a && vdstOk d && decide (r.toNat ≤ 4)
  | .cvtF32F16 a d => vsrcOk a && vdstOk d
  | .cvtBf16F32 _ r a d => vsrcOk a && vdstOk d && decide (r.toNat ≤ 4)
  | .cvtF32Bf16 a d => vsrcOk a && vdstOk d
  | .cvtI64F64 _ r a d => vpairSrcOk a && vpairDstOk d && decide (r.toNat ≤ 4)
  | .cvtN64F64 _ r a d => vpairSrcOk a && vpairDstOk d && decide (r.toNat ≤ 4)
  | .cvtF64I64 r a d => vpairSrcOk a && vpairDstOk d && decide (r.toNat ≤ 4)
  | .cvtF64N64 r a d => vpairSrcOk a && vpairDstOk d && decide (r.toNat ≤ 4)
  | .cvtI16I32 _ a d => vsrcOk a && vdstOk d
  | .cvtN16N32 _ a d => vsrcOk a && vdstOk d
  | .cvtI8I32 _ a d => vsrcOk a && vdstOk d
  | .cvtN8N32 _ a d => vsrcOk a && vdstOk d
  | .cvtFp19F32 _ r a d => vsrcOk a && vdstOk d && decide (r.toNat ≤ 4)
  | .cvtF32Fp19 a d => vsrcOk a && vdstOk d
  | .cullbf b a d => vrunOk a 6 && vsrcOk b && sdstOk d
  | .cullfr b a d => vrunOk a 6 && vrunOk b 4 && sdstOk d
  | .cullsz a d => vrunOk a 6 && sdstOk d
  | .bary b a d => vrunOk a 6 && vrunOk b 2 && vrunOk d 2
  | .spld s a d z => spairSrcOk s && vsrcOk a && mdstOk d z
  | .spst s a d z => spairSrcOk s && vsrcOk a && msrcOk d z
  | .spatXchg s a d => vrunOk a 2 && spair5Ok s && vdstOk d && !(d == 0xEA#8)
  | .spatCas s a d => vrunOk a 3 && spair5Ok s && vdstOk d && !(d == 0xEA#8)
  | .spatIadd s a d => vrunOk a 2 && spair5Ok s && vdstOk d
  | .spatIminI s a d => vrunOk a 2 && spair5Ok s && vdstOk d
  | .spatImaxI s a d => vrunOk a 2 && spair5Ok s && vdstOk d
  | .spatIminN s a d => vrunOk a 2 && spair5Ok s && vdstOk d
  | .spatImaxN s a d => vrunOk a 2 && spair5Ok s && vdstOk d
  | .spatAnd s a d => vrunOk a 2 && spair5Ok s && vdstOk d
  | .spatOr s a d => vrunOk a 2 && spair5Ok s && vdstOk d
  | .spatXor s a d => vrunOk a 2 && spair5Ok s && vdstOk d
  | .spatFadd s a d => vrunOk a 2 && spair5Ok s && vdstOk d
  | .spatFmin s a d => vrunOk a 2 && spair5Ok s && vdstOk d
  | .spatFmax s a d => vrunOk a 2 && spair5Ok s && vdstOk d
  | .ctins _ _ _ _ => true
  | .ctprb _ _ _ _ => true
  | .ctdel _ _ _ _ => true
  | .ctacc _ _ _ _ => true
  | .ctinit d _ => sregOrZero d
  | .ctfree _ => true
  | .ctstat d _ => decide (d.toNat ≤ 121)
  | .ctdrain cur _ _ => decide (cur.toNat ≤ 123)
  | .spmap _ va _ => spairSrcOk va
  | .spunmap _ => true
  | .spwb _ => true
  | .ldG s a d z => spairSrcOk s && vsrcOk a && mdstOk d z
  | .ldfwd s a d => spairSrcOk s && vsrcOk a && vdstOk d
  | .stG s a d z => spairSrcOk s && vsrcOk a && msrcOk d z
  | .stfwd s a d => decide (s.toNat ≤ 120) && decide (s.toNat % 2 = 0) && vsrcOk a && vsrcOk d
  | .atomGXchg s a d => vrunOk a 2 && spair5Ok s && vdstOk d && !(d == 0xEA#8)
  | .atomGCas s a d => vrunOk a 3 && spair5Ok s && vdstOk d && !(d == 0xEA#8)
  | .atomGIadd s a d => vrunOk a 2 && spair5Ok s && vdstOk d && !(d == 0xEA#8)
  | .atomGIminI s a d => vrunOk a 2 && spair5Ok s && vdstOk d && !(d == 0xEA#8)
  | .atomGImaxI s a d => vrunOk a 2 && spair5Ok s && vdstOk d && !(d == 0xEA#8)
  | .atomGIminN s a d => vrunOk a 2 && spair5Ok s && vdstOk d && !(d == 0xEA#8)
  | .atomGImaxN s a d => vrunOk a 2 && spair5Ok s && vdstOk d && !(d == 0xEA#8)
  | .atomGAnd s a d => vrunOk a 2 && spair5Ok s && vdstOk d && !(d == 0xEA#8)
  | .atomGOr s a d => vrunOk a 2 && spair5Ok s && vdstOk d && !(d == 0xEA#8)
  | .atomGXor s a d => vrunOk a 2 && spair5Ok s && vdstOk d && !(d == 0xEA#8)
  | .atomGFadd s a d => vrunOk a 2 && spair5Ok s && vdstOk d && !(d == 0xEA#8)
  | .atomGFmin s a d => vrunOk a 2 && spair5Ok s && vdstOk d && !(d == 0xEA#8)
  | .atomGFmax s a d => vrunOk a 2 && spair5Ok s && vdstOk d && !(d == 0xEA#8)
  | .redGIadd s a => vrunOk a 2 && spair5Ok s
  | .redGIminI s a => vrunOk a 2 && spair5Ok s
  | .redGImaxI s a => vrunOk a 2 && spair5Ok s
  | .redGIminN s a => vrunOk a 2 && spair5Ok s
  | .redGImaxN s a => vrunOk a 2 && spair5Ok s
  | .redGAnd s a => vrunOk a 2 && spair5Ok s
  | .redGOr s a => vrunOk a 2 && spair5Ok s
  | .redGXor s a => vrunOk a 2 && spair5Ok s
  | .redGFadd s a => vrunOk a 2 && spair5Ok s
  | .redGFmin s a => vrunOk a 2 && spair5Ok s
  | .redGFmax s a => vrunOk a 2 && spair5Ok s
  | .lds _ b d => decide (d.toNat ≤ 123) && spairSrcOk b
  | .lds64 _ b d => sdestPairOk d && spairSrcOk b
  | .sts _ b _ => spairSrcOk b
  | .sts64 _ b a => spairSrcOk b && spairSrcOk a
  | .pref _ b _ => spairSrcOk b
  | .post arg card _ => spairSrcOk card && spairSrcOk arg
  | .depdec b => spairSrcOk b
  | .ringarr _ => true
  | .ringwait _ _ => true
  | .mboxsend _ _ => true
  | .cpTensor _ => true
  | .cpGather _ => true
  | .cpScatter _ => true
  | .cpMcast _ => true
  | .cpPack _ => true
  | .cpUnpack _ => true
  | .cpFill _ => true
  | .cpCancel _ => true
  | .barinit _ _ => true
  | .barexp _ _ => true
  | .barwait _ _ d => sdestPairOk d
  | .bartest _ d => sdestPairOk d
  | .tagalloc _ d => decide (d.toNat ≤ 123)
  | .tagallocTree n _ d => decide (d.toNat ≤ 123) && !(n == 125#7)
  | .tagfree _ => true
  | .fsend _ _ => true
  | .tagqry _ d => decide (d.toNat ≤ 123)
  | .mma p _ _ c _ _ k => decide (p.toNat ≤ 20) && mmaTilesOk p c && mmaDepthOk p k
  | .oclaim s _ => sregOrZero s
  | .orelease _ => true
  | .osetfmt s _ => spairSrcOk s
  | .aclaim s _ => sregOrZero s
  | .arelease _ => true
  | .ainit _ => true
  | .ainitSet _ _ => true
  | .ainitSlot _ _ => true
  | .ald _ _ d => vrunOk d 2
  | .aldCol _ _ d => vrunOk d 2
  | .aldStat _ d => vrunOk d 1
  | .ast _ _ d => vrunOk d 2
  | .astCol _ _ d => vrunOk d 2
  | .qbfp _ _ d => vsrcOk d
  | .ofill _ _ d => vsrcOk d
  | .oread _ _ d => vdstOk d
  | .oreadRec _ d => vdstOk d
  | .rtrace _ a d => vrunOk a 8 && vrunOk d 8
  | .rtany _ a d => vrunOk a 8 && vrunOk d 8
  | .rtqry _ a d => vrunOk a 2 && vrunOk d 4
  | .ltwalk _ a d => vrunOk a 7 && vrunOk d 2
  | .ltpdf _ a d => vrunOk a 7 && vrunOk d 1
  | .texld _ a d => vrunOk a 3 && vrunOk d 4
  | .texg _ a d => vrunOk a 6 && vrunOk d 4
  | .rngctr a d => vrunOk a 4 && vrunOk d 4
  | .rngf a d => vsrcOk a && vdstOk d
  | .rsvinit d => vrunOk d 8
  | .rsvupd a d => vrunOk a 7 && vrunOk d 8
  | .rsvmrg a d => vrunOk a 10 && vrunOk d 8
  | .rsvnorm d => vrunOk d 8
  | .rsvld _ a d => vrunOk a 2 && vrunOk d 8
  | .rsvst _ a d => vrunOk a 2 && vrunOk d 8
  | .reuse _ => true
  | .tgtret a d => vrunOk a 1 && vrunOk d 8
  | .brimx _ => true
  | .splitPromotion _ _ _ => true
  | .sleepExpiry _ _ _ => true
  | .flagOperationComplete _ _ _ => true
  | .globalLoadReturn _ _ _ => true
  | .regionCommit _ _ => true
  | .reservationLapse _ => true
  | .capacityCommit _ _ => true
  | .atomicCommit _ _ _ => true
  | .lineFill _ _ _ => true
  | .peerScratchpadAccess _ => true
  | .copyCommandStart _ _ => true
  | .copyRowComplete _ _ => true
  | .copyFault _ _ => true
  | .copyRestart _ _ => true
  | .copyResume _ _ _ => true
  | .mmaStart _ _ => true
  | .mmaComplete _ _ => true
  | .signalStore _ _ _ _ => true
  | .fullingOperandArrival _ => true
  | .fullingSpillRefill _ _ => true
  | .fullingReload _ => true
  | .fsendRetry _ => true
  | .fsendOverflow _ => true
  | .orphanExpiry _ => true
  | .spillSweep _ => true
  | .fullingDelivery _ => true
  | .heldDeliveryExpiry _ => true
  | .teamPlacement _ => true
  | .launchMessage _ => true
  | .teamEnd _ => true
  | .gridEnd _ => true
  | .pageWalk _ _ _ _ => true
  | .migratingRetry _ _ _ _ => true
  | .invalidationAck _ => true
  | .supervisorEntry _ => true
  | .hostTrapAction _ _ _ _ => true
  | .preemptSave _ _ => true
  | .preemptLimitExpiry _ _ => true
  | .watchdog _ => true
  | .debugHalt _ => true
  | .debugResume _ => true
  | .peerLinkDown _ => true
  | .peerLinkUp _ => true
  | .flitReplay _ => true
  | .uncorrectableFlit _ _ _ _ _ => true
  | .moduleLaneFailure _ => true
  | .powerThrottle _ => true
  | .thermalThrottle _ => true
  | .thermtrip => true
  | .reset => true
  | .attestationRequest _ => true
  | .slPin _ => true
  | .slUnpin _ => true
  | .slBypassClear _ _ => true
  | .contextBindingWrite _ _ _ _ => true
  | .controlNodeMemoryAccess _ _ _ => true
  | .shootdownRequest _ _ _ => true
  | .harvestRequest _ _ _ => true
  | .cardingSpillAllocation _ _ _ _ => true
  | .dramScrub _ => true
  | .sramScrub _ => true
  | .scrublate => true
  | .ucieRetraining _ => true
  | .gddr7Retraining _ => true
  | .agingMonitor => true
  | .flashWearLevelling => true
  | .telemetry => true
  | .rayUnitComplete _ _ => true
  | .rayLaneRestart _ _ _ => true
  | .reuseJobStart _ _ => true
  | .reuseBatch _ _ => true
  | .reuseMerge _ _ => true
  | .reuseJobComplete _ _ => true
  | .brimArrival _ _ => true
  | .illegalEncoding _ => true
  | .tagNodeAcknowledgement _ => true
  | .dirtyHarvestComplete _ => true
  | .zeroingComplete _ _ => true
  | .taskQueueAcceptance _ => true
  | .thermalThrottleEnd _ => true
  | .peerPortRequest _ _ _ _ => true

end Sys2Proof
end

