-- ==== Sys2Proof/Machine/Operands.lean ====
section
/-! DEFINITION. Sys2Proof/Machine/Operands.lean: the checks every instruction makes before it takes effect, in the order of R64,
the conditions under which it cannot issue yet (R116), and the operand forms: MODX kinds 0 and 1 on vector sources (R54, R55), run
operands (R162), addresses (R56). -/

namespace Sys2Proof.Machine

/-! ## What an instruction uses -/

/-- A register operand: `n` consecutive registers from a specifier on, vector or scalar. -/
inductive Reg where
  | v (code : BitVec 8) (n : Nat)
  | s (code : BitVec 7) (n : Nat)
deriving DecidableEq, Repr

/-- How MODX kind 2 applies (R53, Table 2.9): not at all; to a load, a store or an atomic of size code `z`; to the forward-tag
variants, a load and a store, which take no SUB (R237); to the scratchpad accesses, which take no window and no A64 (R189). -/
inductive AddrMod where
  | no
  | load (z : BitVec 2)
  | store (z : BitVec 2)
  | atomic (float : Bool)
  | fwdLoad
  | fwdStore
  | spLoad (z : BitVec 2)
  | spStore (z : BitVec 2)
  | spAtomic (float : Bool)
deriving DecidableEq, Repr

/-- The MODX kinds that apply to an instruction (R53, Table 7.1). -/
structure ModxUse where
  /-- Kind 0 on operand A, on operand B. -/
  selA : Bool := false
  selB : Bool := false
  /-- Kind 1 on operands A, B and C. -/
  negA : Bool := false
  negB : Bool := false
  negC : Bool := false
  addr : AddrMod := .no
  /-- The offset operand, and the number of data registers that follow it (R71): under A64 it is a pair (R44). -/
  addrReg : BitVec 8 := 0#8
  addrData : Nat := 0
  round : Bool := false
  /-- Kind 4: a flag-class instruction. -/
  flag : Bool := false
  /-- Kind 5: not at all, on an integer, on a float. -/
  satInt : Bool := false
  satFloat : Bool := false
deriving DecidableEq, Repr

/-- What an instruction asks of the machine before it runs. -/
structure Uses where
  rd : List Reg := []
  wr : List Reg := []
  modx : ModxUse := {}
  priv : Bool := false
  /-- The roles that may issue it, by role code (R73, Table 3.8). -/
  roles : BitVec 4 := 0xF#4
  /-- The path it raises at issue (R40). -/
  path : Option Nat := none
  /-- Whether it is a command of the copy engine (R276). -/
  copy : Bool := false
deriving DecidableEq, Repr

/-- The registers an instruction names, destinations first. -/
def Uses.regs (u : Uses) : List Reg := u.wr ++ u.rd

/-! ## The checks of R64 -/

/-- Whether the prefixes before the instruction are ones that apply to it (R52, R53, Table 2.9). -/
def modxOk (u : ModxUse) (m : Prefix) : Bool :=
  (match m.laneSel with
    | none => true
    | some p => if p.getLsbD 0 then u.selB else u.selA) &&
  (match m.negAbs with
    | none => true
    | some p =>
      (u.negA || u.negB || u.negC) && (u.negA || p.extractLsb' 0 2 == 0#2) && (u.negB || p.extractLsb' 2 2 == 0#2) &&
        (u.negC || p.extractLsb' 4 2 == 0#2)) &&
  (match m.address with
    | none => true
    | some p =>
      let sub := p.extractLsb' 0 2
      let sx := p.getLsbD 2
      let a64 := p.getLsbD 3
      let noWin := p.extractLsb' 4 3 == 0#3
      (!a64 || (vpairSrcOk u.addrReg && (u.addrData == 0 || vrunOk u.addrReg (2 + u.addrData)))) &&
      match u.addr with
      | .no => false
      | .load z => sub == 0#2 || z == 0#2
      | .store z => (sub == 0#2 || z == 0#2) && !sx
      | .atomic f => !sx && (sub == 0#2 || !f)
      | .fwdLoad => sub == 0#2
      | .fwdStore => sub == 0#2 && !sx
      | .spLoad z => (sub == 0#2 || z == 0#2) && noWin && !a64
      | .spStore z => (sub == 0#2 || z == 0#2) && !sx && noWin && !a64
      | .spAtomic f => !sx && (sub == 0#2 || !f)) &&
  (m.rounding.isNone || u.round) &&
  (!m.setb || u.flag) &&
  (match m.saturate with
    | none => true
    | some n => u.satInt || (u.satFloat && n == 0#1))

/-- The first register of a use that the group does not have (R45): a v register at or above the allocation, a q register at or
above the team's queue count; its specifier. -/
def regBound (s : State) : Reg → Option Nat
  | .v a n =>
    let c := a.toNat
    if c < 0xE0 then (if c + n ≤ s.g.nregs then none else some (if c < s.g.nregs then s.g.nregs else c))
    else if 0xF0 ≤ c then (if c - 0xF0 < s.myTeam.card.queues then none else some c)
    else none
  | .s _ _ => none

/-- The first register of a use with an asynchronous write pending (R41); its specifier. -/
def hazard (s : State) : Reg → Option Nat
  | .v a n =>
    if a.toNat < 0xE8 then ((List.range n).map (a.toNat + ·)).find? s.g.pendingV else none
  | .s a n =>
    if a.toNat < 124 then ((List.range n).map (a.toNat + ·)).find? s.g.pendingS else none

/-- The queue specifiers among the sources, and among the destinations. -/
def queueCodes (l : List Reg) : List Nat :=
  l.filterMap fun r => match r with
    | .v a _ => if 0xF0 ≤ a.toNat then some (a.toNat - 0xF0) else none
    | .s _ _ => none

/-- A bit set in a multicast queue set at or above the team's queue count (R49). -/
def mcsetBound (u : Uses) (s : State) : Option Nat :=
  if s.g.sys.mode.getLsbD 0 then
    (queueCodes u.wr).findSome? fun k =>
      ((List.range 16).find? fun j => (storeRead s.g.sys.mcset k).getLsbD j && decide (s.myTeam.card.queues ≤ j)).map (0xF0 + ·)
  else none

/-- The trap, if any, that steps 2 to 6 of R64 give: ILLEGAL from the MODX chain, PRIV, ROLE, REGBOUND (of a register or of a multicast
queue set), HAZARD. -/
def precheck (u : Uses) (s : State) : Option Trap :=
  if !modxOk u.modx s.p.mods then some s.illegal
  else if u.priv && !s.isSup then some (s.trapWord cPRIV)
  else if !u.roles.getLsbD s.g.role.toNat && !s.isSup then some (s.trapWord cROLE)
  else match (u.regs.findSome? (regBound s)).or (mcsetBound u s) with
    | some c => some { cause := cREGBOUND, infoA := BitVec.ofNat 32 c }
    | none => match u.regs.findSome? (hazard s) with
      | some c => some { cause := cHAZARD, infoA := BitVec.ofNat 32 c }
      | none => none

/-- The number of commands in flight on a core's copy engine (R276). -/
def copyMax : Nat := 256

/-- What keeps the instruction from issuing (R116): an empty queue it reads, a full queue it writes, be the write made at its issue or
at its completion (log 59), but not under QDEST (R49); a flag with 63 operations, a path with 255; a copy engine with 256 commands (R276). -/
def notReady (u : Uses) (s : State) : Option Wait :=
  let k := s.core s.g.core
  let empty := (queueCodes u.rd).find? fun q => (keyFind s.p.taken q).isNone && (k.queue (s.queueOf q)).isEmpty
  let full := if s.g.sys.mode.getLsbD 0 then none
    else (queueCodes u.wr).find? fun q => decide (queueDepth ≤ (k.queue (s.queueOf q)).length) && !(queueCodes u.rd).contains q
  let flag := (if u.modx.flag then s.flagTarget else none).filter fun f => decide (63 ≤ s.g.flagCount f)
  let path := u.path.filter fun p => decide (255 ≤ s.g.pathCount p)
  (empty.map fun q => .queueFull (s.queueOf q)).or <| (full.map fun q => .queueRoom (s.queueOf q)).or <|
    (flag.map .flagRoom).or <| (path.map .pathRoom).or <|
      if u.copy && decide (copyMax ≤ k.copies.length) then some .copyPlace else none

/-- Whether a target callable may name a register (R376, R378). -/
def callableReg : Reg → Bool
  | .v a n => decide (a.toNat + n ≤ 32) || decide (a.toNat = 0xE8 ∨ a.toNat = 0xE9 ∨ a.toNat = 0xEA ∨ a.toNat = 0xEB ∨ a.toNat = 0xEC)
  | .s a n => decide (a.toNat + n ≤ 16) || decide (124 ≤ a.toNat)

/-- Every instruction begins so: the first trap of R64 is taken; or it waits; or its own description goes on, as it does again after the
commit or the reply that it waits for. A target
callable names few registers, and its evaluator waits for pending results (R376). -/
def issue (u : Uses) (s : State) (body : State → Out) : Out :=
  if s.g.evaluates.isSome && !u.regs.all callableReg then .next (s.trap { cause := cREGBOUND })
  else if s.g.evaluates.isSome && (u.regs.findSome? (hazard s)).isSome then .next (s.stall .results)
  else match precheck u s with
  | some t => .next (s.trap t)
  | none =>
    match (if s.p.stage = 0 then notReady u s else none) with
    | some w => .next (s.stall w)
    | none => body s

/-! ## Vector sources under MODX kinds 0 and 1 -/

/-- The source lane that lane `l` reads under MODX kind 0 (R54); none outside 0 to 31. -/
def selLane (p : BitVec 18) (l : Nat) : Option Nat :=
  let amt := (p.extractLsb' 4 5).toNat
  match (p.extractLsb' 1 3).toNat with
  | 0 => some amt
  | 1 => some (l ^^^ amt)
  | 2 => some ((l + amt) % 32)
  | 3 => if amt ≤ l then some (l - amt) else none
  | 4 => if l + amt < 32 then some (l + amt) else none
  | _ => some (4 * (l / 4) + (p.extractLsb' (10 + 2 * (l % 4)) 2).toNat)

/-- A vector operand's lanes rearranged under MODX kind 0 when it is the operand selected (R54); a uniform source, zero or lit, is
unchanged. -/
def laneSelect {w : Nat} (m : Prefix) (isB : Bool) (code : BitVec 8) (f : Nat → BitVec w) : Nat → BitVec w :=
  match m.laneSel with
  | none => f
  | some p =>
    if p.getLsbD 0 == isB && !(code == 0xEA#8 || code == 0xEC#8) then
      fun l => match selLane p l with
        | some k => f k
        | none => if p.getLsbD 9 then f l else 0#w
    else f

/-- Absolute value, then negation, of a value whose sign bits are those of `sign` (R55, R83). -/
def negAbs {w : Nat} (m : Prefix) (bit : Nat) (sign : BitVec w) (x : BitVec w) : BitVec w :=
  match m.negAbs with
  | none => x
  | some p =>
    let x := if p.getLsbD (bit + 1) then x &&& ~~~sign else x
    if p.getLsbD bit then x ^^^ sign else x

/-- The sign bits of an f32, of a packed pair, of an f64. -/
def sign32 : Word := 0x80000000#32
def sign16x2 : Word := 0x80008000#32
def sign64 : Dword := 0x8000000000000000#64

/-- Operands A and B of an instruction, kind 0 applied (R160). -/
def State.srcA (s : State) (a : BitVec 8) : Lanes := laneSelect s.p.mods false a (s.vsource a)
def State.srcB (s : State) (b : BitVec 8) : Lanes := laneSelect s.p.mods true b (s.vsource b)

/-- The same of float operands, kinds 0 and 1 applied. -/
def State.fsrcA (s : State) (sign : Word) (a : BitVec 8) : Lanes := fun l => negAbs s.p.mods 0 sign (s.srcA a l)
def State.fsrcB (s : State) (sign : Word) (b : BitVec 8) : Lanes := fun l => negAbs s.p.mods 2 sign (s.srcB b l)

/-- The old value of the destination, the third source of a three-source instruction (R160). -/
def State.srcC (s : State) (d : BitVec 8) : Lanes := s.vsource d
def State.fsrcC (s : State) (sign : Word) (d : BitVec 8) : Lanes := fun l => negAbs s.p.mods 4 sign (s.vsource d l)

/-- 64-bit operands of the FP64 instructions. -/
def State.dsrcA (s : State) (lit : Word → Dword) (a : BitVec 8) : Lanes64 :=
  fun l => negAbs s.p.mods 0 sign64 (laneSelect s.p.mods false a (s.vsource64 lit a) l)
def State.dsrcB (s : State) (lit : Word → Dword) (b : BitVec 8) : Lanes64 :=
  fun l => negAbs s.p.mods 2 sign64 (laneSelect s.p.mods true b (s.vsource64 lit b) l)

/-! ## Addresses (R56) -/

/-- The fields of a MODX kind 2, or their zeros: SUB, SX, A64, WIN, SCL. -/
structure AddrFields where
  sub : Nat
  sx : Bool
  a64 : Bool
  win : Nat
  scl : Nat
deriving DecidableEq, Repr

/-- The kind 2 fields in force. -/
def addrFields (m : Prefix) : AddrFields :=
  match m.address with
  | none => { sub := 0, sx := false, a64 := false, win := 0, scl := 0 }
  | some p =>
    { sub := (p.extractLsb' 0 2).toNat, sx := p.getLsbD 2, a64 := p.getLsbD 3
      win := (p.extractLsb' 4 3).toNat, scl := (p.extractLsb' 7 3).toNat }

/-- Window register `k` of the issuing group's context (R56): VA[79:64]. -/
def State.win (s : State) (k : Nat) : BitVec 16 := storeRead (s.ctx s.g.ctx).win k

/-- The 64-bit sum of an access's base pair and each lane's offset (R56). -/
def State.laneOffset (s : State) (base : Dword) (a : BitVec 8) : Lanes64 :=
  let f := addrFields s.p.mods
  if f.a64 then fun l => base + (s.vsource64 (fun w => w.setWidth 64) a l <<< f.scl)
  else fun l => base + ((s.vsource a l).setWidth 64 <<< f.scl)

/-- The virtual address of each lane of an M-format or AT-format access (R56). -/
def State.laneVa (s : State) (base : Dword) (a : BitVec 8) : Nat → VAddr :=
  let f := addrFields s.p.mods
  let w := s.win f.win
  fun l => w ++ s.laneOffset base a l

/-- The size in bytes of an M-format access (R189, R235). -/
def accessSize (m : Prefix) (z : BitVec 2) : Nat :=
  match (addrFields m).sub with
  | 1 => 1
  | 2 => 2
  | _ => 4 * 2 ^ z.toNat

/-- The registers of the offset operand: one, or a pair under A64. -/
def offsetRegs (m : Prefix) (a : BitVec 8) : Reg := .v a (if (addrFields m).a64 then 2 else 1)

/-- The number of registers of a data operand of size code `z`. -/
def dataRegs (z : BitVec 2) : Nat := 2 ^ z.toNat

end Sys2Proof.Machine
end

