-- ==== Sys2Proof/Machine/Slice.lean ====
section
/-! DEFINITION. Sys2Proof/Machine/Slice.lean: the lines of memory and the slices that hold them (09_global_memory_and_order.md, R215 to
R218; R446), and one commit of bytes (R228). -/

namespace Sys2Proof.Machine

/-- The bytes of a line (R3). -/
def lineSize : Nat := 128

/-- The line of a physical address, by number. -/
def lineOf (pa : Nat) : Nat := pa / 128

/-- Whether a line entry holds byte `i`. -/
def LineBytes.has (e : LineBytes) (i : Nat) : Bool := e.mask.testBit i

/-- A line entry with byte `i` set. -/
def LineBytes.set (e : LineBytes) (i : Nat) (b : Byte) : LineBytes :=
  { e with mask := e.mask ||| 2 ^ i, bytes := storeWrite e.bytes i b }

/-- 64-bit multiplication constants of the blocking hash (R203). -/
def hashA : Dword := 0x9E3779B97F4A7C15#64
def hashB : Dword := 0xBF58476D1CE4E5B9#64

/-- blocking_hash(k, seed) (R203). -/
def blockingHash (k : Dword) (seed : Word) : Word :=
  let x := k ^^^ (seed.setWidth 64 * hashA)
  let x := x ^^^ (x >>> 29)
  let x := x * hashB
  let x := x ^^^ (x >>> 32)
  x.setWidth 32

/-- The slice of a line, numbered over the module, and its set there (R215). -/
def sliceOf (line : Nat) : Nat :=
  8 * (line * 128 / 2 ^ 52 - 2) + (blockingHash (BitVec.ofNat 64 (line % 2 ^ 49)) 0#32).toNat % 8
def setOf (line : Nat) : Nat := (blockingHash (BitVec.ofNat 64 (line % 2 ^ 49)) 0#32).toNat / 8 % 4096

/-- Whether two lines fall into one set of one slice. -/
def sameSet (a b : Nat) : Bool := sliceOf a == sliceOf b && setOf a == setOf b

/-- A slice register as it reads (Table 17.2): its offset in the 4 KiB of the slice. -/
def State.sliceReg (s : State) (slice off : Nat) : Nat :=
  match off with
  | 8 => (s.dev.pins.filter fun l => sliceOf l == slice).length
  | 0x10 => (storeRead s.dev.bypass slice).toNat
  | 0x18 => (s.dev.poisoned.filter fun l => sliceOf l == slice).length
  | _ => 0

/-- Whether a physical address lies among the slice registers (R446). -/
def isMmio (pa : Nat) : Bool := pa / 2 ^ 52 == 1

/-- The byte that stands at a physical address: memory, or a slice register (R446). Addresses of an M-die beyond its DRAM are ordinary
memory (log 61). -/
def State.phys (s : State) (pa : Nat) : Byte :=
  if isMmio pa then
    let off := pa % 2 ^ 52
    let slice := 8 * (off / 65536) + off / 4096 % 16
    if 8 ≤ off / 4096 % 16 ∨ 6 ≤ off / 65536 then 0#8
    else BitVec.ofNat 8 (s.sliceReg slice (off % 4096 / 8 * 8) / 256 ^ (off % 8))
  else storeRead s.mem pa

/-! ## The ways of a set (R217, R218, R364) -/

/-- Whether a physical line lies on an M-die, so that a slice can hold it (R14, R215). -/
def slicedLine (line : Nat) : Bool := decide (2 ≤ line * 128 / 2 ^ 52 ∧ line * 128 / 2 ^ 52 ≤ 7)

/-- The ways of a line's set that are neither pinned nor reservoir-held (R217, R364). -/
def State.freeWays (s : State) (line : Nat) : Nat :=
  16 - ((s.dev.pins.filter fun l => sameSet l line).length + s.dev.rsvWays)

/-- Whether a slice holds a line (R217). -/
def State.holdsLine (s : State) (line : Nat) : Bool := s.dev.cached.contains line || s.dev.pins.contains line

/-- What a line holds and has not written to DRAM is lost: it reads as DRAM does (R237, R448). -/
def State.loseData (s : State) (line : Nat) : State :=
  match s.dev.dirty.find? fun d => d.1 == line with
  | some d => { s with mem := storePaste s.mem (128 * line) 128 d.2 }.modDev fun d => { d with dirty := d.dirty.filter fun e => e.1 != line }
  | none => s

/-- A dirty line written back: its slice holds it no longer dirty, and its forward tag is gone (R217, R237). -/
def State.writeBackLine (s : State) (line : Nat) : State :=
  s.modDev fun d => { d with dirty := d.dirty.filter fun e => e.1 != line, forwards := d.forwards.filter fun f => f.1 != line }

/-- A line leaves its slice, written back (R217). -/
def State.evictLine (s : State) (line : Nat) : State :=
  (s.writeBackLine line).modDev fun d => { d with cached := d.cached.filter fun l => l != line }

/-- The lines that stand in the ways of normal use of a line's set are at most `n` after the least recently used have left, forward-held
ones last (R217, log 11); `fuel` lines at most leave. -/
def State.trimSet (s : State) (line n : Nat) : Nat → State
  | 0 => s
  | fuel + 1 =>
    let mine := s.dev.cached.filter fun l => sameSet l line
    if mine.length ≤ n then s
    else
      match (mine.find? fun l => !(s.dev.forwards.any fun f => f.1 == l)).or mine.head? with
      | some l => (s.evictLine l).trimSet line n fuel
      | none => s

/-- A demand access to a line at its slice (R217, R218): a line held becomes the most recently used. A miss that finds every way pinned or
reservoir-held is a bypass and raises the slice's counter, saturating (Table 17.2); a miss of class streaming allocates nothing;
any other takes a way. -/
def State.touchSlice (s : State) (streaming : Bool) (line : Nat) : State :=
  if !slicedLine line || s.dev.pins.contains line then s
  else if s.dev.cached.contains line then s.modDev fun d => { d with cached := d.cached.filter (fun l => l != line) ++ [line] }
  else if s.freeWays line = 0 then
    let n := storeRead s.dev.bypass (sliceOf line)
    s.modDev fun d => { d with bypass := storeWrite d.bypass (sliceOf line) (if n = 0xFFFFFFFF#32 then n else n + 1#32) }
  else if streaming then s
  else (s.trimSet line (s.freeWays line - 1) 16).modDev fun d => { d with cached := d.cached ++ [line] }

/-- A line that a commit is about to write becomes dirty where its slice holds it, over the bytes that DRAM holds; else the write is
performed at DRAM (R217, R218, log 11). -/
def State.makeDirty (s : State) (line : Nat) : State :=
  if s.holdsLine line && !(s.dev.dirty.any fun d => d.1 == line) then
    s.modDev fun d => { d with dirty := d.dirty ++ [(line, storeCut s.mem (128 * line) 128)] }
  else s

/-- The reservoir ways of every slice set to `n` (R364): lines in ways taken from normal use are written back and evicted. -/
def State.takeWays (s : State) (n : Nat) : State :=
  let s := s.modDev fun d => { d with rsvWays := n }
  s.dev.cached.foldl (fun s l => s.trimSet l (s.freeWays l) 16) s

/-! ## Slice registers (R446, Table 17.2) -/

/-- A pin: the line is loaded if it is not held, its dirty state kept; a pin whose set has no way left is ignored. -/
def State.pinLine (s : State) (line : Nat) : State :=
  if !slicedLine line || s.dev.pins.contains line || s.freeWays line == 0 then s
  else
    let s := s.modDev fun d => { d with pins := d.pins ++ [line], cached := d.cached.filter fun l => l != line }
    s.trimSet line (s.freeWays line) 16

/-- An unpin: the line becomes normal (R217). -/
def State.unpinLine (s : State) (line : Nat) : State :=
  if s.dev.pins.contains line then
    s.modDev fun d => { d with pins := d.pins.filter fun l => l != line, cached := d.cached ++ [line] }
  else s

/-- Bits of a bypass counter written as 1 are cleared. -/
def State.clearBypass (s : State) (slice : Nat) (mask : Word) : State :=
  s.modDev fun d => { d with bypass := storeWrite d.bypass slice (storeRead d.bypass slice &&& ~~~mask) }

/-! ## Commits (R221, R228) -/

/-- How many commits have written a line (R221). -/
def State.version (s : State) (line : Nat) : Nat := (keyFind s.dev.versions line).getD 0

/-- A commit writes a line of a physical page: its write record is set (R414). -/
def State.markWritten (s : State) (pa : Nat) : State :=
  if s.dev.written.contains (pa / 65536) then s else s.modDev fun d => { d with written := pa / 65536 :: d.written }

/-- What follows a line's being written by a commit: the page's write record, the line's number of commits, and a forward tag gone: the
line is normal (R221, R237, R414). -/
def State.lineWritten (s : State) (line : Nat) : State :=
  (s.markWritten (128 * line)).modDev fun d =>
    { d with forwards := d.forwards.filter fun f => f.1 != line, versions := keyPut d.versions line (s.version line + 1) }

/-- What the stores of a line of slice registers do, at their commit (R446, Table 17.2): bytes that no store wrote are 0. -/
def State.storeRegs (s : State) (e : Nat × LineBytes) : State :=
  let s := s.modDev fun d => { d with versions := keyPut d.versions e.1 (s.version e.1 + 1) }
  let off := 128 * e.1 % 2 ^ 52
  let slice := 8 * (off / 65536) + off / 4096 % 16
  let has := fun (at_ : Nat) => (List.range 8).any fun i => e.2.has (at_ + i)
  let val := fun (at_ : Nat) => leNat ((List.range 8).map fun i => storeRead e.2.bytes (at_ + i))
  if off % 4096 ≠ 0 ∨ 8 ≤ off / 4096 % 16 ∨ 6 ≤ off / 65536 then s
  else
    let s := if has 0 then
        let line := lineOf (val 0 % 2 ^ 56)
        if val 0 % 2 = 1 then s.pinLine line else s.unpinLine line
      else s
    if has 16 then s.clearBypass slice (BitVec.ofNat 32 (val 16)) else s

/-- The bytes of a write-set line published. -/
def publishLine (mem : Memory) (e : Nat × LineBytes) : Memory :=
  (List.range 128).foldl (fun m i => if e.2.has i then storeWrite m (128 * e.1 + i) (storeRead e.2.bytes i) else m) mem

/-- A line published by the commit of a region or of a transaction (R221, R244); a line to be forward-held is allocated whatever its
page's class (Table 9.1). -/
def State.publish (s : State) (forward : Bool) (e : Nat × LineBytes) : State :=
  if isMmio (128 * e.1) then s.storeRegs e
  else
    let s := (s.touchSlice (e.2.streaming && !forward) e.1).makeDirty e.1
    { s with mem := publishLine s.mem e }.lineWritten e.1

/-- ONE COMMIT of bytes at a physical address by an atomic, an engine or an outside agent (R228); to slice registers it is a store to them
(R446). -/
def State.commitBytes (s : State) (pa : Nat) (bs : List Byte) : State :=
  let lines := (List.range ((pa % 128 + bs.length + 127) / 128)).map (lineOf pa + ·)
  if isMmio pa then
    lines.foldl (fun s l => s.storeRegs (l, (List.range bs.length).foldl (fun e i =>
      if lineOf (pa + i) = l then e.set ((pa + i) % 128) (bs.getD i 0#8) else e) { mask := 0, bytes := [] })) s
  else
    let s := lines.foldl State.makeDirty s
    lines.foldl State.lineWritten { s with mem := putBytes s.mem pa bs }

/-- Whether a line is owned by an engine command (R230), or reserved by a group other than the one named (R225). -/
def State.ownedLine (s : State) (line : Nat) : Bool := s.dev.owned.any fun o => o.1 == line
def State.reservedElse (s : State) (core slot line : Nat) : Bool :=
  s.dev.reservations.any fun r => r.1 == line && !(r.2.1 == core && r.2.2.1 == slot)

/-- Whether a line is reserved by any group (R225). -/
def State.reservedLine (s : State) (line : Nat) : Bool := s.dev.reservations.any fun r => r.1 == line

end Sys2Proof.Machine
end

