-- ==== Sys2Proof/Machine/Translate.lean ====
section
/-! DEFINITION. Sys2Proof/Machine/Translate.lean: address translation (16_translation_and_traps.md, R400 to R409): the walk, the
TLBs, and the lookup an access makes. -/

namespace Sys2Proof.Machine

/-- What an access needs (R406): 0 R, 1 W, 2 R and W, 3 X; 5 a load inside a transaction, R and W. -/
def accR : Nat := 0
def accW : Nat := 1
def accRW : Nat := 2
def accX : Nat := 3
def accTx : Nat := 5

/-- Whether an access is a write, as the SUB of its faults says (Table 16.5). -/
def accWrites (acc : Nat) : Bool := acc == accW || acc == accRW

/-- A failed translation: the cause, the kind of Table 16.5's SUB, and the level (or the peer port). -/
structure XFault where
  cause : Nat
  kind : Nat
  level : Nat
deriving DecidableEq, Repr

/-- What a walk returns. -/
inductive Walked where
  /-- A leaf: the translation, the address of its entry, and whether its A bit is clear. -/
  | leaf (t : Tlb) (entry : Nat) (setA : Bool)
  | fault (f : XFault)
  | migrating (level : Nat)
  /-- A line that it reads or writes is an engine's, or reserved: the walk waits (R225, R230). -/
  | waits
deriving DecidableEq, Repr

/-- The fields of a page-table entry (Table 16.2). -/
def pteV (e : Nat) : Bool := e % 2 == 1
def pteLeaf (e : Nat) : Bool := e.testBit 1
def pteR (e : Nat) : Bool := e.testBit 2
def pteW (e : Nat) : Bool := e.testBit 3
def pteX (e : Nat) : Bool := e.testBit 4
def pteA (e : Nat) : Bool := e.testBit 5
def pteD (e : Nat) : Bool := e.testBit 6
def pteExt (e : Nat) : Bool := e.testBit 7
def pteMig (e : Nat) : Bool := e.testBit 8
def pteG (e : Nat) : Bool := e.testBit 9
def pteClass (e : Nat) : Nat := nfield e 11 10
def ptePeer (e : Nat) : Bool := e.testBit 12
/-- The physical page, as an address. -/
def ptePa (e : Nat) : Nat := nfield e 55 16 * 65536

/-- The VA bits a leaf of a level keeps (Table 16.1). -/
def leafBits (level : Nat) : Nat := 16 + 12 * level

/-- Malformed entries with V = 1 (R403). -/
def pteMalformed (e level : Nat) : Bool :=
  nfield e 63 56 != 0 || nfield e 15 13 != 0 ||
    (if pteLeaf e then
      decide (3 ≤ level) || ptePa e % 2 ^ leafBits level != 0 || decide (2 ≤ pteClass e) ||
        (pteExt e && level != 0) || (ptePeer e != (ptePa e).testBit 55)
    else level == 0)

/-- The index of a level (R401). -/
def vaField (va level : Nat) : Nat := if level = 5 then nfield va 79 76 else nfield va (27 + 12 * level) (16 + 12 * level)

/-- The 32 entries of an extent agree (R404). -/
def extentOk (rd : Nat → Nat) (base : Nat) : Bool :=
  let e0 := rd base
  ptePa e0 % 2 ^ 21 == 0 &&
    (List.range 32).all fun i =>
      let e := rd (base + 16 * i)
      pteV e && pteLeaf e && pteExt e && !pteMig e && pteR e == pteR e0 && pteW e == pteW e0 && pteX e == pteX e0 &&
        pteClass e == pteClass e0 && pteG e == pteG e0 && ptePeer e == ptePeer e0 && ptePa e == ptePa e0 + 65536 * i

/-- The translation a leaf gives (Table 16.1, R404). -/
def leafTlb (rd : Nat → Nat) (ctx va e entry level : Nat) : Tlb :=
  let wide := level == 0 && pteExt e && extentOk rd (entry / 512 * 512)
  let bits := if wide then 21 else leafBits level
  { ctx := ctx, global := pteG e, va := va / 2 ^ bits * 2 ^ bits, size := bits, pa := ptePa e / 2 ^ bits * 2 ^ bits
    r := pteR e, w := pteW e, x := pteX e, streaming := pteClass e == 1, peer := ptePeer e }

/-- The walk from a node on, `level` levels left below it (R401): `rd` reads an entry, `bar` says what stands in the way of reading it. -/
def walkFrom (rd : Nat → Nat) (bar : Nat → Option Walked) (ctx va node : Nat) : Nat → Walked
  | 0 => step 0 fun _ => .fault { cause := cPAGEFAULT, kind := 3, level := 0 }
  | level + 1 => step (level + 1) fun next => walkFrom rd bar ctx va next level
where
  step (level : Nat) (go : Nat → Walked) : Walked :=
    let entry := node + 16 * vaField va level
    let e := rd entry
    if (bar entry).isSome then (bar entry).getD .waits
    else if !pteV e then .fault { cause := cPAGEFAULT, kind := 1, level := level }
    else if pteMalformed e level then .fault { cause := cPAGEFAULT, kind := 3, level := level }
    else if pteMig e then .migrating level
    else if pteLeaf e then
      match (if level = 0 ∧ pteExt e then (List.range 4).findSome? fun i => bar (entry / 512 * 512 + 128 * i) else none) with
      | some w => w
      | none => .leaf (leafTlb rd ctx va e entry level) entry (!pteA e)
    else if 2 ≤ ptePa e / 2 ^ 52 ∧ ptePa e / 2 ^ 52 ≤ 7 then go (ptePa e)
    else .fault { cause := cWALKREMOTE, kind := 0, level := level }

/-- An entry as the walker reads it: from a walk cache of the M-dies if it holds it there, else from memory (R401, R407). -/
def State.readPte (s : State) (a : Nat) : Nat :=
  match keyFind s.dev.walkCache a with
  | some e => e.toNat
  | none => readBytes s.mem a 16

/-- What stands in the way of the walker's read of an entry, an engine's read commit (R401): a line that an engine owns (R230), a poisoned
line (R428); nothing where a walk cache holds the entry. -/
def State.walkBar (s : State) (a : Nat) : Option Walked :=
  if (keyFind s.dev.walkCache a).isSome then none
  else if s.ownedLine (lineOf a) then some .waits
  else if s.dev.poisoned.contains (lineOf a) then some (.fault { cause := cMEMERR, kind := 0, level := 0 })
  else none

/-- The root node of a context (R401, Table 16.7). -/
def Ctx.root (c : Ctx) : Nat := c.ptroot1.toNat * 2 ^ 48 + c.ptroot0.toNat * 2 ^ 16

/-- A walk of a context's tables. -/
def State.walk (s : State) (ctx va : Nat) : Walked := walkFrom s.readPte s.walkBar ctx va (s.ctx ctx).root 5

/-- The table entries on a walk's path put into the walk caches (R407): valid, well-formed, not migrating, no leaves, and read: the path ends
where something stands in the way. -/
def cachePath (rd : Nat → Nat) (bar : Nat → Option Walked) (va node : Nat) : Nat → Store 128 → Store 128
  | 0, w => w
  | level + 1, w =>
    let entry := node + 16 * vaField va (level + 1)
    let e := rd entry
    if (bar entry).isNone && pteV e && !pteMalformed e (level + 1) && !pteMig e && !pteLeaf e then
      cachePath rd bar va (ptePa e) level (keyPut w entry (BitVec.ofNat 128 e))
    else w

/-- Whether a leaf permits an access (R406). -/
def Tlb.permits (t : Tlb) (acc : Nat) : Bool :=
  match acc with
  | 0 => t.r
  | 1 => t.w
  | 2 => t.r && t.w
  | 5 => t.r && t.w
  | _ => t.x

/-- Whether a translation covers an address of a context (R407): one of every context too, but that no page of context 0 is reached from
a program context (R406, log 39). -/
def Tlb.covers (t : Tlb) (ctx va : Nat) : Bool :=
  ((t.global && t.ctx != 0) || t.ctx == ctx) && t.va == va / 2 ^ t.size * 2 ^ t.size

/-- The physical address a translation gives. -/
def Tlb.apply (t : Tlb) (va : Nat) : Nat := t.pa + va % 2 ^ t.size

/-- The level of the leaf a translation came from (Table 16.1). -/
def Tlb.level (t : Tlb) : Nat := if t.size = 28 then 1 else if t.size = 40 then 2 else 0

/-- The fault an access meets at a translation that covers it, if any: the permission (R406), a peer whose link is down (R409). -/
def State.tlbFault (s : State) (t : Tlb) (acc : Nat) : Option XFault :=
  if !t.permits acc then some { cause := cPAGEFAULT, kind := 2, level := t.level }
  else if t.peer && s.dev.peerDown.contains (nfield t.pa 54 52) then
    some { cause := cPEERDOWN, kind := 0, level := nfield t.pa 54 52 }
  else none

/-- The answer of a translation. -/
inductive Xlat where
  | hit (pa : Nat) (t : Tlb)
  | miss
  | fault (f : XFault)
deriving DecidableEq, Repr

/-- A translation through what the split was handed and its core's level-1 TLB (R407). -/
def State.lookup (s : State) (va acc : Nat) : Xlat :=
  match s.p.walkFault with
  | some f =>
    if f.page = va / 65536 ∧ f.acc = acc then .fault { cause := f.cause, kind := f.kind, level := f.level } else go
  | none => go
where
  go : Xlat :=
    match (s.p.xlat ++ (s.core s.g.core).tlb).find? fun t => t.covers s.g.ctx va with
    | some t =>
      match s.tlbFault t acc with
      | some f => .fault f
      | none => .hit (t.apply va) t
    | none => .miss

/-- The number of entries of a level-1 TLB and of a level-2 TLB (R407). -/
def tlb1Size : Nat := 64
def tlb2Size : Nat := 8192

/-- A translation put into a list of at most `n`, the oldest dropped (log 62). -/
def tlbPut (n : Nat) (l : List Tlb) (t : Tlb) : List Tlb :=
  if l.contains t then l else (l ++ [t]).drop (l.length + 1 - n)

/-- Bits of an entry's first byte set by one atomic OR commit on its line (R405, R414). -/
def State.orEntry (s : State) (entry : Nat) (bits : Byte) : State := s.commitBytes entry [storeRead s.mem entry ||| bits]

/-- Whether a commit on an entry's line has to wait: an engine owns it (R230), or a group has reserved it (R225). -/
def State.entryHeld (s : State) (entry : Nat) : Bool := s.ownedLine (lineOf entry) || s.reservedLine (lineOf entry)

/-- A walk made for an access, with what it leaves: the walk caches, the A bit when the access is permitted (R405, R406). -/
def State.walkFor (s : State) (ctx va acc : Nat) : State × Walked :=
  let r := s.walk ctx va
  let s := s.modDev fun d => { d with walkCache := cachePath s.readPte s.walkBar va (s.ctx ctx).root 5 d.walkCache }
  match r with
  | .leaf t entry setA =>
    match s.tlbFault t acc with
    | some f => (s, .fault f)
    | none =>
      if setA && s.entryHeld entry then (s, .waits)
      else (if setA then s.orEntry entry 0x20#8 else s, r)
  | r => (s, r)

/-- What the level-2 TLB of a core's die holds for an address (R407). -/
def State.level2 (s : State) (core ctx va : Nat) : Option Tlb :=
  ((keyFind s.dev.tlb2 (dieOf core)).getD []).find? fun t => t.covers ctx va

/-- A translation held by a core and by its die (R407). -/
def State.tlbFill (s : State) (core : Nat) (t : Tlb) : State :=
  let s := s.modCore core fun k => { k with tlb := tlbPut tlb1Size k.tlb t }
  let l2 := (keyFind s.dev.tlb2 (dieOf core)).getD []
  s.modDev fun d => { d with tlb2 := keyPut d.tlb2 (dieOf core) (tlbPut tlb2Size l2 t) }

/-- The agent of the I-die and of the command processors, among the cores that walks are made for. -/
def noCore : Nat := 320

/-- An engine's translation (R400, R407): what the TLBs of its core and its die hold, else a walk, whose leaf they then hold; what no
core makes walks the tables where they stand (log 9). -/
def State.engineVa (s : State) (core ctx va acc : Nat) : State × Walked :=
  if core = noCore then s.walkFor ctx va acc
  else
    match ((s.core core).tlb.find? fun t => t.covers ctx va).or (s.level2 core ctx va) with
    | some t =>
      match s.tlbFault t acc with
      | some f => (s, .fault f)
      | none => (s, .leaf t 0 false)
    | none =>
      match s.walkFor ctx va acc with
      | (s, .leaf t e a) => (s.tlbFill core t, .leaf t e a)
      | r => r

/-- A walk that met a migrating entry (R401, R408): it is to be tried again, or after 4 µs of trying it has failed; `key` tells walks
apart. -/
def State.tryAgain (s : State) (key : Nat × Nat × Nat) : Bool × State :=
  match s.dev.retries.find? fun e => e.1 == key with
  | some e => (decide (s.clock < e.2 + 7000), s)
  | none => (true, s.modDev fun d => { d with retries := d.retries ++ [(key, s.clock)] })

/-- A walk is over: its tries are forgotten. -/
def State.endTries (s : State) (key : Nat × Nat × Nat) : State :=
  s.modDev fun d => { d with retries := d.retries.filter fun e => e.1 != key }

/-- A fault of a migrating entry that stayed so (R408). -/
def walkBusy (level : Nat) : XFault := { cause := cWALKBUSY, kind := 0, level := level }

/-- The split waits for a walk of its context (R407). -/
def State.askWalk (s : State) (va : VAddr) (acc : Nat) : State :=
  (s.stall (.walk (va.toNat / 65536) acc)).after 40 (.pageWalk s.g.core s.g.ctx va acc)

end Sys2Proof.Machine
end

