-- ==== Sys2Proof/Machine/Teams.lean ====
section
/-! DEFINITION. Sys2Proof/Machine/Teams.lean: the ends of groups, teams, tasks and contexts (05, 15, 16): ending and killing, abort
and requeue (R424 to R426), marking a context failed (R427), and the page-fault trap that decides among them. -/

namespace Sys2Proof.Machine

/-- The live groups of a team. -/
def State.teamGroups (s : State) (t : Nat) : List Group := s.groups.filter fun g => g.live && g.team == t && g.isThread

/-- The cluster of a team. -/
def State.clusterOf (s : State) (t : Nat) : Option Cluster := keyFind s.dev.clusters (s.team t).cluster

/-- A cluster changed. -/
def State.modCluster (s : State) (c : Nat) (f : Cluster → Cluster) : State :=
  s.modDev fun d => { d with clusters := keyModify d.clusters c f }

/-- A group without its open region: the buffered stores and the held commands gone, with their path counts; its transaction
gone (R222, R424). -/
def Group.dropRegion (g : Group) : Group :=
  { g with region := {}, tx := none, ops := creditOps [] (g.ops.filter fun o => !o.inRegion) }

/-- A copy command that a group was posting as a commit point is discarded (R222, R278). -/
def State.dropPosting (s : State) (g : Group) : State :=
  if (s.core g.core).copies.any fun e => e.2.posting && e.2.slot == g.slot then
    s.modCore g.core fun k => { k with copies := k.copies.filter fun e => !(e.2.posting && e.2.slot == g.slot) }
  else s

/-- The held commands of a group's region taken from their engines. -/
def State.discardHeld (s : State) (g : Group) : State :=
  g.region.held.foldl (fun s h => s.modCore g.core fun k =>
    match h.agent with
    | 0 => { k with copies := keyDrop k.copies h.id }
    | 1 => { k with rays := keyDrop k.rays h.id }
    | 2 => { k with jobs := keyDrop k.jobs h.id }
    | _ => { k with brims := keyDrop k.brims h.id }) (s.dropPosting g)

/-- A record goes to where its group's traps go: a program group's is queued, a supervisor's halts its core (R417, R423). -/
def State.sendTrap (s : State) (g : Group) (r : TrapRec) : State :=
  if g.isThread then s.postTrap g.core g.slot r else s.haltTrap g.core g.slot r

/-- A group stops with a record, and SKIP would resume it at `skip`; behind a record of its slot that is pending the new one waits for that
one's action (R417, log 54). -/
def State.stopWith (s : State) (g : Group) (skip : Word × Nat) (r : TrapRec) : State :=
  if (keyFind (s.core g.core).traps g.slot).isSome then
    s.modCore g.core fun k => { k with owed := k.owed ++ [(g.slot, r, skip)] }
  else (s.modGroup g.core g.slot fun g => { g with trapped := true, skip := skip }).sendTrap g r

/-- A group whose MMA the latch of team `t` drops traps with GANGMIS at it (R136, R137). -/
def State.gangmisAt (s : State) (t : Nat) (h : Held32) : State :=
  match s.group (s.team t).core h.slot with
  | none => s
  | some g =>
    match findSplit h.split g.splits with
    | none => s
    | some q =>
      let r : TrapRec :=
        { cause := cGANGMIS, split := q.idx, nr := s.nonRestart t, pc := q.pc, ctx := g.ctx, lanes := q.exec, exec := q.exec
          infoA := h.mask, action := defaultAction cGANGMIS 0, tslot := (s.team t).tslot, team := t, clock := BitVec.ofNat 64 s.clock
          hwmval := g.sys.privhwm }
      (s.modGroup g.core g.slot fun g => g.modSplit q.idx fun q => { s.wake q with begun := false }).stopWith g (q.pc + 4#32, q.count + 1) r

/-- The MMAs held at a team's latch by a gang of which a member has ended are dropped (R137). -/
def State.latchEnded (s : State) (t gid : Nat) : State :=
  let hit := (s.team t).latch.filter fun h => bitOf h.mask gid
  let s := s.modTeam t fun tm => { tm with latch := tm.latch.filter fun h => !bitOf h.mask gid }
  hit.foldl (fun s h => s.gangmisAt t h) s

/-- A distributor looks at its queues when a core's resources change (R391). -/
def State.placeSoon (s : State) : State := (s.after 1 (.teamPlacement 0)).after 1 (.teamPlacement 1)

/-- An operand slot, or a tile (16 and up), is free once it is released and nothing is left in its order (R304, R311); an entry that waits for
its number may then be placed (R320, R391). -/
def State.settle (s : State) (core n : Nat) : State :=
  let k := s.core core
  if n < 16 then
    match keyFind k.slots n with
    | some o =>
      if o.releasing && o.order.isEmpty && !o.zeroing then (s.modCore core fun k => { k with slots := keyDrop k.slots n }).placeSoon else s
    | none => s
  else
    match keyFind k.tiles (n - 16) with
    | some o =>
      if o.releasing && o.order.isEmpty && !o.zeroing then (s.modCore core fun k => { k with tiles := keyDrop k.tiles (n - 16) }).placeSoon else s
    | none => s

/-- A token taken out of the order of a slot or a tile (R308, R312). -/
def State.tokenDone (s : State) (core n id : Nat) : State :=
  (s.modCore core fun k =>
    if n < 16 then { k with slots := keyModify k.slots n fun o => { o with order := o.order.filter (· != id) } }
    else { k with tiles := keyModify k.tiles (n - 16) fun o => { o with order := o.order.filter (· != id) } }).settle core n

/-- A token taken out of every order of a core: what it stood for does not come about. -/
def State.tokenGone (s : State) (core id : Nat) : State := (List.range 24).foldl (fun s n => s.tokenDone core n id) s

/-- The places in orders that the waiting instructions of splits have are given up. -/
def State.dropTurns (s : State) (core : Nat) (l : List Split) : State := (l.filterMap Split.turn).foldl (fun s id => s.tokenGone core id) s

/-- The slots and the tiles that an ending group holds are released: each is free when what has its place in the order has taken effect
(R304, R311). What the group's operations still do comes about without it (R310, R314). -/
def State.releaseHeld (s : State) (g : Group) : State :=
  let s := s.dropTurns g.core g.splits
  let mine := fun (owner team : Nat) => owner == g.slot && team == g.team
  let s := s.modCore g.core fun k =>
    { k with
      slots := k.slots.map fun e => (e.1, { e.2 with releasing := e.2.releasing || mine e.2.owner e.2.team })
      tiles := k.tiles.map fun e => (e.1, { e.2 with releasing := e.2.releasing || mine e.2.owner e.2.team })
      late := k.late ++ (g.ops.filter fun o => !o.done && o.act.isSome).map fun o => (g.team, o) }
  (List.range 24).foldl (fun s n => s.settle g.core n) s

/-- Whether a barrier's expected groups have arrived: those of its count, or `liveCount` when that was given as 0 (R138). -/
def Barrier.complete (b : Barrier) (liveCount : Nat) : Bool :=
  decide ((if b.auto then liveCount else b.expected) ≤ b.arrived.length)

/-- Every split that waits with `w` in the groups that `sel` selects released. -/
def State.releaseWait (s : State) (sel : Group → Bool) (w : Wait) : State :=
  s.mapGroups fun g =>
    if sel g then
      { g with splits := g.splits.map fun q => if q.wait = w then s.wake q else q }
    else g

/-- The barriers of a team, of its cluster and of its scopes looked at again after an arrival or an end: those complete release
every split that waits at them and begin their next phase (R138). -/
def State.checkBarriers (s : State) (t : Nat) : State :=
  let tm := s.team t
  let liveTeam := (s.teamGroups t).length
  let done := tm.bars.filter fun e => e.2.complete liveTeam
  let s := done.foldl (fun s e => s.releaseWait (fun g => g.team == t && g.isThread) (.barTeam e.1)) s
  let s := s.modTeam t fun tm => { tm with bars := tm.bars.filter fun e => !e.2.complete liveTeam }
  match s.clusterOf t with
  | none => s
  | some c =>
    let liveClu := (c.teams.map fun u => (s.teamGroups u).length).sum
    let done := c.bars.filter fun e => e.2.complete liveClu
    let s := done.foldl (fun s e => s.releaseWait (fun g => c.teams.contains g.team && g.isThread) (.barClu e.1)) s
    s.modCluster tm.cluster fun c => { c with bars := c.bars.filter fun e => !e.2.complete liveClu }

/-- The scope entry `n` of a context as core `core` names it (R158, R233): a mask over the 320 cores. -/
def State.scopeMask (s : State) (ctx core team n : Nat) : BitVec 320 :=
  match n with
  | 0 => 1#320 <<< core
  | 1 =>
    match s.clusterOf team with
    | none => 1#320 <<< core
    | some c =>
      (List.range (c.w * c.h)).foldl (fun m i => m ||| (1#320 <<< (c.core + 16 * (i / c.w) + i % c.w))) 0#320
  | 2 => (BitVec.ofNat 320 (2 ^ 160 - 1)) <<< (160 * dieOf core)
  | 3 => ~~~0#320
  | n => storeRead (s.ctx ctx).scopes n

/-- The live groups of a grid on the cores of a scope on one die, by core and slot (Table 5.7). -/
def State.scopeLive (s : State) (grid die : Nat) (mask : BitVec 320) : List (Nat × Nat) :=
  (s.groups.filter fun g => g.live && g.isThread && (s.team g.team).grid == grid && dieOf g.core == die &&
    mask.getLsbD g.core).map fun g => (g.core, g.slot)

/-- Whether a group belongs to a scope barrier: its context, and the die of its core. -/
def Group.inScopeBar (g : Group) (key : Nat × Nat × Nat × Nat) : Bool := g.isThread && g.ctx == key.1 && dieOf g.core == key.2.1

/-- The scope barriers looked at again: the count of 0 stands for the groups of the first arrival that are still live (R138). -/
def State.checkScopeBarriers (s : State) : State :=
  let isDone := fun (e : (Nat × Nat × Nat × Nat) × Barrier) => !e.2.arrived.isEmpty && e.2.complete e.2.members.length
  let done := s.dev.scopeBars.filter isDone
  let s' := done.foldl (fun s e => s.releaseWait (fun g => g.inScopeBar e.1) (.barScope e.1.2.2.1 e.1.2.2.2)) s
  s'.modDev fun d => { d with scopeBars := d.scopeBars.filter fun e => !isDone e }

/-- Whether a split takes no part in an arrival: it is parked at a JOIN (R138). -/
def Split.isParked (q : Split) : Bool := match q.wait with | .parked _ => true | _ => false

/-- The runnable splits of a group that are not parked at a JOIN. -/
def Group.movers (g : Group) : List Split := g.splits.filter fun q => !q.isParked

/-- Whether a split waits in WAITX, and its mailbox satisfies its value (R398). -/
def State.waitxHolds (s : State) (die : Nat) (ctx : Nat) (q : Split) : Bool :=
  match q.wait with
  | .waitx m v => decide (0 ≤ (storeRead (s.ctx ctx).boxes (16 * die + m) - v).toInt)
  | _ => false

/-- A waiting team released when every live group has arrived and the mailbox of each satisfies its value (R398). -/
def State.checkWaitx (s : State) (t : Nat) : State :=
  let tm := s.team t
  let live := s.teamGroups t
  if !live.isEmpty && live.all (fun g => !g.movers.isEmpty && g.movers.all (s.waitxHolds (dieOf tm.core) tm.ctx)) then
    s.mapGroups fun g =>
      if g.live && g.team == t && g.isThread then
        { g with splits := g.splits.map fun q => if s.waitxHolds (dieOf tm.core) tm.ctx q then s.wake q else q }
      else g
  else s

/-- A scope barrier without a group that has ended; it is gone when no arrival is left and no split waits at it (R138, log 34). -/
def State.leaveScopeBar (s : State) (g : Group) (e : (Nat × Nat × Nat × Nat) × Barrier) : Option ((Nat × Nat × Nat × Nat) × Barrier) :=
  let out := fun (l : List (Nat × Nat)) => l.filter fun a => !(a == (g.core, g.slot))
  let b : Barrier := { e.2 with arrived := out e.2.arrived, members := out e.2.members }
  let waited := s.groups.any fun h => h.inScopeBar e.1 && h.splits.any fun q => q.wait == .barScope e.1.2.2.1 e.1.2.2.2
  if b.arrived.isEmpty && !waited then none else some (e.1, b)

/-- What follows the end of a group for its team: its latch, its barriers, and the team's own end (R137, R138, R300). -/
def State.groupEnded (s : State) (g : Group) : State :=
  let s := s.modTeam g.team fun tm =>
    { tm with faultmask := tm.faultmask ||| g.sys.faultmask
              bars := tm.bars.map fun e => (e.1, { e.2 with arrived := e.2.arrived.filter fun a => !(a == (g.core, g.slot)) }) }
  let s := s.modDev fun d => { d with scopeBars := d.scopeBars.filterMap (s.leaveScopeBar g) }
  let s := (((s.latchEnded g.team g.gid).checkBarriers g.team).checkScopeBarriers).checkWaitx g.team
  if (s.teamGroups g.team).isEmpty then
    ((s.modTeam g.team fun tm => { tm with ending := true }).after 1 (.teamEnd g.team)).placeSoon
  else s.placeSoon

/-- A group ends: its slot and its registers go back (R141); a record of it stays until its action, and holds the slot (R417). -/
def State.endGroup (s : State) (core slot : Nat) : State :=
  match s.group core slot with
  | none => s
  | some g =>
    let s := (s.discardHeld g).releaseHeld g
    let s :=
      if s.g.at core slot && s.g.live then { s with g := { s.g.dropRegion with live := false }, p := { s.p with live := false } }
      else { s with others := s.others.filter fun g => !g.at core slot }
    s.groupEnded g

/-- The groups of a team's cluster. -/
def State.clusterGroups (s : State) (t : Nat) : List Group :=
  match s.clusterOf t with
  | none => s.teamGroups t
  | some c => s.groups.filter fun g => g.live && g.isThread && c.teams.contains g.team

/-- Whether the watchdog's count of a team stands still: its core is halted, or its context suspended. -/
def State.paused (s : State) (tm : Team) : Bool := (s.core tm.core).halted || (s.ctx tm.ctx).suspended

/-- The watchdog's count of a team starts again from a clock; one that stands still is kept as a number of clks (R429). -/
def State.countFrom (s : State) (t clock : Nat) : State :=
  let n := if s.paused (s.team t) then 0 else clock
  s.modTeam t fun tm => { tm with lastIssue := n }

/-- The pre-emption request of a team's slot ends: its bit of sys.preempt reads 0 (Table 16.7). -/
def State.endRequest (s : State) (t : Nat) : State :=
  let tm := s.team t
  s.modCore tm.core fun k => { k with preempt := k.preempt &&& ~~~(1#8 <<< tm.tslot) }

/-- A team is gone from its core; its cluster is gone with the last of its teams. -/
def State.dropTeam (s : State) (t : Nat) : State :=
  let c := (s.team t).cluster
  let s := if (s.team t).released then s else s.endRequest t
  let s := s.modDev fun d => { d with teams := keyDrop d.teams t }
  match keyFind s.dev.clusters c with
  | none => s
  | some k =>
    if k.teams.any fun u => (keyFind s.dev.teams u).isSome then s
    else s.modDev fun d => { d with clusters := keyDrop d.clusters c }

/-- A team that has ended and whose resources are released counts as ended in its grid; its region id goes back (R384, R415). -/
def State.finishTeam (s : State) (t : Nat) : State :=
  let tm := s.team t
  let s := s.modCtx tm.ctx fun c => { c with regions := c.regions.filter fun r => r != tm.region }
  let s := s.modDev fun d => { d with grids := keyModify d.grids tm.grid fun g =>
    { g with ended := g.ended ++ [tm.index], faultmask := g.faultmask ||| tm.faultmask } }
  let s := (s.dropTeam t).placeSoon
  match keyFind s.dev.grids tm.grid with
  | none => s
  | some g => if g.ended.length = g.task.card.teams ∨ g.failed then s.after 2 (.gridEnd tm.grid) else s

/-- KILL: every team of the task's cluster ends; the grid continues (R421). Teams that an abort has ended, and whose resources are
released, count as ended now; the others when their resources are released. -/
def State.killCluster (s : State) (t : Nat) : State :=
  let c := (s.team t).cluster
  let s := (s.clusterGroups t).foldl (fun s g => s.endGroup g.core g.slot) s
  match keyFind s.dev.clusters c with
  | none => s
  | some k =>
    let s := s.modCluster c fun k => { k with aborted := false, lost := [] }
    (k.teams.filter fun u => (s.team u).released).foldl State.finishTeam s

/-- The slot and the registers of a group that an abort ends stay with its team until the engines have drained; the slot of a group with a record
stays until the record's action (R424, State.fit). -/
def State.holdSlot (s : State) (g : Group) : State := s.modTeam g.team fun tm => { tm with held := tm.held ++ [(g.slot, g.nregs)] }

/-- The task is aborted (R424): every group of the cluster ends, its open region discarded; what the teams hold is released once the engines
have drained (execTeamEnd). A record of a group stays until its action. -/
def State.abortTask (s : State) (t : Nat) : State :=
  match s.clusterOf t with
  | none => s
  | some c =>
    let gs := s.clusterGroups t
    let s := s.modCluster (s.team t).cluster fun c =>
      { c with aborted := true, preempt := none, lost := (c.teams.filter fun u => (keyFind s.dev.teams u).isSome).map fun u => ((s.team u).index, (s.team u).region) }
    let s := (c.teams.filter fun u => (keyFind s.dev.teams u).isSome).foldl State.endRequest s
    gs.foldl (fun s g => (s.holdSlot g).endGroup g.core g.slot) s

/-- An entry put into a list of tasks at the head of its priority class (R426, R431). -/
def putClassHead (e : Task) : List Task → List Task
  | [] => [e]
  | t :: r => if t.card.prio ≤ e.card.prio then e :: t :: r else t :: putClassHead e r

/-- The queue of resume and requeue entries: the die queue of a core's die (R426, R431). -/
def dieQueue (die : Nat) : Nat := 640 + die

/-- An entry at the head of its class in the die queue of a die. -/
def State.putHead (s : State) (die : Nat) (e : Task) : State :=
  (s.modDev fun d => { d with queues := keyPut d.queues (dieQueue die) (putClassHead e ((keyFind d.queues (dieQueue die)).getD [])) }).placeSoon

/-- REQUEUE: every team of the aborted task at the head of its die's queue (R426); what was kept of it goes. -/
def State.requeue (s : State) (t : Nat) : State :=
  let tm := s.team t
  match s.clusterOf t, keyFind s.dev.grids tm.grid with
  | some c, some gr =>
    let s := s.putHead (dieOf tm.core) { gr.task with id := s.nextId, grid := tm.grid, again := c.lost }
    let s := { s with nextId := s.nextId + 1 }
    let s := s.modCluster tm.cluster fun c => { c with lost := [] }
    let s := (s.clusterGroups t).foldl (fun s g => s.endGroup g.core g.slot) s
    (c.teams.filter fun u => (s.team u).released).foldl State.dropTeam s
  | _, _ => s

/-- The engine commands of a context write nothing more (R427): its copy commands stop where they are and end with their teams; what
its groups gave the other engines goes, with the lines that it owned. -/
def State.stopEngines (s : State) (ctx : Nat) : State :=
  let gone := s.cores.flatMap fun e =>
    ((e.2.copies.filter fun c => c.2.ctx == ctx).map fun c => (e.1, c.1)) ++
    ((e.2.jobs.filter fun c => c.2.ctx == ctx).map fun c => (e.1, c.1)) ++
    ((e.2.brims.filter fun c => c.2.ctx == ctx).map fun c => (e.1, c.1))
  let s := s.modDev fun d => { d with owned := d.owned.filter fun o => !gone.contains (o.2.1, o.2.2) }
  { s with
    others := s.others.filter fun g => !(g.evaluates.isSome && g.ctx == ctx)
    cores := s.cores.map fun e => (e.1, { e.2 with
      copies := e.2.copies.map fun c => (c.1, if c.2.ctx == ctx then { c.2 with suspended := true } else c.2)
      rays := e.2.rays.filter fun c => c.2.ctx != ctx
      jobs := e.2.jobs.filter fun c => c.2.ctx != ctx
      brims := e.2.brims.filter fun c => c.2.ctx != ctx }) }

/-- A context is marked failed (R427): its teams stop, its regions and its queued and pending cards go, and its grids complete
with status FAILED. -/
def State.failContext (s : State) (ctx : Nat) : State :=
  let s := s.modCtx ctx fun c =>
    { c with failed := true, regions := (s.dev.teams.filter fun e => e.2.ctx == ctx).map fun e => e.2.region }
  let gs := s.groups.filter fun g => g.live && g.isThread && g.ctx == ctx
  let s := s.stopEngines ctx
  let s := s.modDev fun d =>
    { d with
      queues := d.queues.map fun e => (e.1, e.2.filter fun t => t.ctx != ctx)
      pendingCards := d.pendingCards.filter fun t => t.ctx != ctx
      posted := d.posted.filter fun t => t.ctx != ctx
      grids := d.grids.map fun e => (e.1, if e.2.task.ctx == ctx then { e.2 with failed := true } else e.2)
      clusters := d.clusters.map fun e =>
        (e.1, if e.2.teams.any fun u => (s.team u).ctx == ctx then { e.2 with aborted := false, lost := [] } else e.2) }
  let s := gs.foldl (fun s g => s.endGroup g.core g.slot) s
  let s := ((s.dev.teams.filter fun e => e.2.ctx == ctx && e.2.released).map Prod.fst).foldl State.finishTeam s
  (s.dev.grids.filter fun e => e.2.task.ctx == ctx).foldl (fun s e => s.after 2 (.gridEnd e.1)) s

/-- A failed translation of a thread access as a trap (Table 16.5, R424, R425): WRITE and FETCH by the access. -/
def xTrap (f : XFault) (acc : Nat) (va : VAddr) (lanes : Option Word) (ctx : Nat) : Trap :=
  { cause := f.cause
    sub := if f.cause = cWALKREMOTE then 0
      else f.kind + (if acc = 1 ∨ acc = 2 then 4 else 0) + (if acc = 3 then 8 else 0)
    va := va, lanes := lanes
    infoA := if f.cause = cINVALFAIL then BitVec.ofNat 32 ctx else BitVec.ofNat 32 f.level }

/-- Whether a fault aborts a restartable task: a not-present page or a migrating one (R424). -/
def XFault.restartable (f : XFault) : Bool := (f.cause == cPAGEFAULT && f.kind == 1) || f.cause == cWALKBUSY

/-- A restartable fault of a read in a target callable (R325, R376): a record is posted, and the batch waits to start again; with the
engine-fault queue full it waits. -/
def State.evaluatorFault (s : State) (job va : Nat) : State :=
  if s.faultRoom s.g.core then
    let s := { s with g := { s.g with live := false }, p := { s.p with live := false } }
    s.postEngine s.g.core 3 job (faultWords va s.g.ctx s.g.core 0 0 0 0)
  else s.stall (.clock (s.clock + 16))

/-- The trap of a fault of translation (R401, R406, R424, R425): a not-present or busy page aborts a restartable task, with
ABORTED set, and is NONRESTART in one marked non-restartable; every other fault traps in place. -/
def State.pageTrap (s : State) (f : XFault) (acc : Nat) (va : VAddr) (lanes : Option Word) : State :=
  let t := xTrap f acc va lanes s.g.ctx
  if s.isSup || !f.restartable then s.trap t
  else if let some j := s.g.evaluates then s.evaluatorFault j va.toNat
  else if s.nonRestart s.g.team then s.trap { t with cause := cNONRESTART }
  else
    (s.trap { t with aborted := true }).abortTask s.g.team

end Sys2Proof.Machine
end

