-- ==== Sys2Proof/Machine/Region.lean ====
section
/-! DEFINITION. Sys2Proof/Machine/Region.lean: regions and their commits (09_global_memory_and_order.md, R219 to R229): reading and
writing through the store buffer, the control snapshot, the commit and its failure. -/

namespace Sys2Proof.Machine

/-- A line entry of a region, empty if there is none. -/
def lineEntry (k : Keyed LineBytes) (line : Nat) : LineBytes := (keyFind k line).getD { mask := 0, bytes := [] }

/-- A byte as a region reads it: from its store buffer if an earlier store wrote it, else as it stands (R220). -/
def regionByte (r : Region) (rd : Nat → Byte) (pa : Nat) : Byte :=
  let e := lineEntry r.stores (lineOf pa)
  if e.has (pa % 128) then storeRead e.bytes (pa % 128) else rd pa

/-- `n` bytes from `pa` on as a region reads them. -/
def regionRead (r : Region) (rd : Nat → Byte) (pa n : Nat) : Nat :=
  (List.range n).foldr (fun i acc => (regionByte r rd (pa + i)).toNat + 256 * acc) 0

/-- What a load leaves in the read set (R220): each byte not taken from the store buffer, with its value; and for each line how many
commits had written it when the first of them was read (R221). -/
def regionNote (s : State) (r : Region) (va pa n : Nat) (t : Tlb) : Region :=
  (List.range n).foldl (fun r i =>
    let a := pa + i
    let st := lineEntry r.stores (lineOf a)
    if st.has (a % 128) then r
    else
      let e := lineEntry r.reads (lineOf a)
      if e.has (a % 128) then
        if storeRead e.bytes (a % 128) = s.phys a then r
        else { r with reads := keyPut r.reads (lineOf a) { e with torn := true } }
      else
        let e := { e.set (a % 128) (s.phys a) with
          va := va / 128, ctx := s.g.ctx, peer := t.peer, streaming := t.streaming
          version := if e.mask = 0 then s.version (lineOf a) else e.version }
        { r with reads := keyPut r.reads (lineOf a) e }) r

/-- The low `n` bytes of a value put into the store buffer (R220). -/
def regionWrite (r : Region) (ctx va pa n v : Nat) (t : Tlb) : Region :=
  (List.range n).foldl (fun r i =>
    let a := pa + i
    let e := lineEntry r.stores (lineOf a)
    let e := { e.set (a % 128) (BitVec.ofNat 8 (v / 256 ^ i)) with
      va := va / 128, ctx := ctx, peer := t.peer, streaming := t.streaming }
    { r with stores := keyPut r.stores (lineOf a) e }) r

/-- Whether a region's sets are empty and it holds nothing: it commits without validation (R221). -/
def Region.empty (r : Region) : Bool :=
  r.stores.isEmpty && r.reads.isEmpty && r.held.isEmpty && r.depdecs.isEmpty && r.forwards.isEmpty && r.drops.isEmpty

/-- The state of every split of the issuing group, for the control snapshot (R222). -/
def State.snapshot (s : State) : Snapshot := { splits := s.whole.splits, sets := s.g.sets }

/-- The commit of the issuing group begins, for the issuing split's instruction (R219): it acts when it is issued again. -/
def State.beginCommit (s : State) : State :=
  ({ s with
      g := { s.g with region := { s.g.region with committing := some s.p.idx, atIssue := s.cur } }
      p := { s.p with stage := 1 } }).after 190 (.regionCommit s.g.core s.g.slot)

/-- A transaction aborts the lanes of `m` with a bit of the cause word (R242 to R244). -/
def Tx.abort (x : Tx) (m : Word) (bit : Nat) : Tx :=
  { x with aborted := x.aborted ||| (m &&& x.lanes), cause := x.cause ||| (1#32 <<< bit) }

/-- The issuing group's open transaction, if any, aborts every lane with a cause (R242). -/
def State.txAbortAll (s : State) (bit : Nat) : State :=
  { s with g := { s.g with tx := s.g.tx.map fun x => x.abort x.lanes bit } }

/-- A forbidden instruction inside a transaction: every lane aborts with cause FORBID (R242, R244). -/
def State.txForbid (s : State) : State := s.txAbortAll 12

/-- Whether a split's instruction is an atomic that has made its checks (R238). -/
def Split.isAtomic (q : Split) : Bool := match q.kept with | some (.places _) => true | _ => false

/-- The commit of the issuing group's region, and what the instruction does after it (R219). With nothing to commit it acts at
once. The next region begins behind it. -/
def commitThen (s : State) (act : State → Out) : Out :=
  if s.p.stage = 0 then
    if s.g.region.empty && !(s.g.ops.any fun o => (o.atomic.isSome || (s.p.isAtomic && o.command.isSome)) && !o.done) then
      act { s with g := { s.g with region := { s.g.region with snap := none, fails := 0, reserved := false } }, p := { s.p with stage := 1 } }
    else .next s.beginCommit
  else if s.g.region.committing = some s.p.idx then
    act { s with g := { s.g with region := { s.g.region with committing := none, acting := false } } }
  else act s

/-- An instruction whose commit has succeeded waits before it acts; no other split of its group issues till then. -/
def State.holdAct (s : State) (w : Wait) : State :=
  { s with g := { s.g with region := { s.g.region with committing := some s.p.idx, acting := true } } }.stall w

/-- A COMMIT POINT (R219): a transaction that is open aborts with FORBID (R242), the region commits, and the instruction acts
after that. -/
def atCommit (s : State) (act : State → Out) : Out :=
  if s.p.stage = 0 then commitThen s.txForbid act else commitThen s act

/-- The commit points that commit only when the region holds an engine command (R219, R226). -/
def atCommitIf (c : Bool) (s : State) (act : State → Out) : Out :=
  if c || s.p.stage ≠ 0 then atCommit s act else act s

/-- A split that stands where a snapshot says, ready but for queue entries on their way, which no failure takes back (R222). Of an
instruction that had issued before the region began, and was waiting for a reply, it stands behind (log 10). -/
def Split.standAgain (q : Split) (pushing : List Push) : Split :=
  let q := { q with wait := if pushing.isEmpty then .none else .pushes, pushing := pushing, kept := none, reply := none, taken := [], carded := {} }
  if q.begun then { q with pc := q.behind, count := q.count + 1, mods := {}, stage := 0, begun := false } else q

/-- A split as a failed region leaves it: one that has issued nothing since the snapshot stays as it is; another stands where the
snapshot says (R222, log 10). -/
def restoreSplit (now : List Split) (q : Split) : Split :=
  match findSplit q.idx now with
  | some c =>
    if c.lastIssue = q.lastIssue ∧ c.pc = q.pc ∧ c.count = q.count ∧ c.stage = q.stage ∧ c.member = q.member then c
    else { q.standAgain c.pushing with lastIssue := c.lastIssue, promoted := c.promoted, readyTime := c.readyTime, ready := c.ready }
  | none => q.standAgain []

/-- The splits of a snapshot restored; entries on their way of splits that it does not hold stay on their way with its first. -/
def restoreSplits (now snap : List Split) : List Split :=
  let stray := (now.filter fun c => (findSplit c.idx snap).isNone).flatMap Split.pushing
  match snap.map (restoreSplit now) with
  | q :: r => (if stray.isEmpty then q else q.standAgain (q.pushing ++ stray)) :: r
  | [] => []

/-- A REGION FAILS (R222): its store buffer and its held commands are discarded, and the group issues again from the snapshot;
nothing else is restored. -/
def failRegion (g : Group) : Group :=
  let snap := g.region.snap.getD { splits := g.splits, sets := g.sets }
  { g with
    splits := restoreSplits g.splits snap.splits
    sets := snap.sets
    ops := creditOps [] (g.ops.filter fun o => !o.inRegion)
    region := { fails := g.region.fails + 1, reserved := g.region.reserved } }

/-- A line of the read set is valid when no commit has written it since, or when the bytes the region read equal those that stand there
now (R221). -/
def validLine (s : State) (e : Nat × LineBytes) : Bool :=
  s.version e.1 == e.2.version ||
    (!e.2.torn && (List.range 128).all fun i => !e.2.has i || storeRead e.2.bytes i == s.phys (128 * e.1 + i))

/-- The n16 dependence count of a card's line (Table 15.1). -/
def depOf (mem : Memory) (pa : Nat) : Nat := readBytes mem (pa + 22) 2

/-- A card's dependence count lowered by 1, stopping at 0 (R389); whether it fell from 1 to 0. -/
def lowerDep (mem : Memory) (pa : Nat) : Memory × Bool :=
  let n := depOf mem pa
  (if n = 0 then mem else writeBytes mem (pa + 22) 2 (n - 1), n == 1)

end Sys2Proof.Machine
end

