-- ==== Sys2Proof/Machine/Fetch.lean ====
section
/-! DEFINITION. Sys2Proof/Machine/Fetch.lean: reading the code stream: the virtual address of a code address (R112, R406, R420), and
the target checks of R36. -/

namespace Sys2Proof.Machine

/-- The virtual address of a code address of the issuing group: the card's code base in its code window (R112, Table 15.1); the
supervisor's base in context 0 (R420). -/
def State.codeVa (s : State) (addr : Word) : VAddr :=
  if s.isSup then BitVec.ofNat 80 ((s.dev.supBase + addr.toNat) % 2 ^ 64)
  else s.win s.myTeam.card.win ++ BitVec.ofNat 64 (s.myTeam.card.codeBase + addr.toNat)

/-- What a fetch of `n` bytes answers. -/
inductive Fetched where
  | bytes (value : Nat)
  | miss (va : VAddr)
  | fault (va : VAddr) (f : XFault)
deriving DecidableEq, Repr

/-- `n` bytes of code, from a halfword-aligned code address on, with the X permission (R406). A poisoned line is MEMERR (R428). -/
def State.fetch (s : State) (addr : Word) : Nat → Fetched
  | 0 => .bytes 0
  | n + 1 =>
    let va := s.codeVa addr
    match s.lookup va.toNat accX with
    | .miss => .miss va
    | .fault f => .fault va f
    | .hit pa _ =>
      if s.dev.poisoned.contains (lineOf pa) then .fault va { cause := cMEMERR, kind := 0, level := 0 }
      else match s.fetch (addr + 2#32) n with
        | .bytes v => .bytes ((s.phys pa).toNat + 256 * (s.phys (pa + 1)).toNat + 65536 * v)
        | r => r

/-- Code fetched for an instruction: a walk is asked for, a fault is taken (R401, R406, R424), or it goes on with the halfwords. -/
def withCode (s : State) (addr : Word) (halves : Nat) (k : Nat → Out) : Out :=
  match s.fetch addr halves with
  | .bytes v => k v
  | .miss va => .next (s.askWalk va accX)
  | .fault va f => .next (s.pageTrap f accX va none)

/-- The target checks of R36, at the branch: a multiple of 4, else MISALIGN; a clause header, else ILLEGAL. -/
def checkTarget (s : State) (t : Word) (k : State → Out) : Out :=
  if t.toNat % 4 ≠ 0 then .next (s.trap { cause := cMISALIGN, lanes := some 0#32 })
  else withCode s t 1 fun h => if h % 128 = 1 then k s else .next (s.trap s.illegal)

/-- The code address of the clause header that follows a branch or a JOIN (R121). -/
def linkOf (addr : Word) : Word := (addr + 7#32) &&& 0xFFFFFFFC#32

end Sys2Proof.Machine
end

