-- ==== Sys2Proof/Machine/Float.lean ====
section
/-! DEFINITION. Sys2Proof/Machine/Float.lean: the floating-point formats and exact arithmetic of 04_number_formats.md. A value is
taken apart into a sign, a natural significand and a power of two; every operation computes its exact result, and one rounding
packs it (R77 to R92). -/

namespace Sys2Proof.Machine

/-- A binary floating-point format: exponent bits and fraction bits (Table 4.1). -/
structure Fmt where
  e : Nat
  f : Nat
deriving DecidableEq, Repr

def f16 : Fmt := { e := 5, f := 10 }
def bf16 : Fmt := { e := 8, f := 7 }
def fp19 : Fmt := { e := 8, f := 10 }
def f32 : Fmt := { e := 8, f := 23 }
def f64 : Fmt := { e := 11, f := 52 }

/-- The exponent bias. -/
def Fmt.bias (t : Fmt) : Nat := 2 ^ (t.e - 1) - 1
/-- The least exponent of a normal value. -/
def Fmt.emin (t : Fmt) : Int := 1 - (t.bias : Int)
/-- The width in bits. -/
def Fmt.width (t : Fmt) : Nat := 1 + t.e + t.f
/-- The sign bit, the infinity, the canonical quiet NaN (Table 4.1) and the largest finite magnitude. -/
def Fmt.sign (t : Fmt) : Nat := 2 ^ (t.e + t.f)
def Fmt.inf (t : Fmt) : Nat := (2 ^ t.e - 1) * 2 ^ t.f
def Fmt.nan (t : Fmt) : Nat := t.inf + 2 ^ (t.f - 1)
def Fmt.max (t : Fmt) : Nat := t.inf - 1

/-- The exception flags (Table 4.4). -/
abbrev FFlags := BitVec 5
def flNV : FFlags := 1#5
def flDZ : FFlags := 2#5
def flOF : FFlags := 4#5
def flUF : FFlags := 8#5
def flNX : FFlags := 16#5

/-- A value: a NaN (signalling or quiet), an infinity, or `(-1)^neg * m * 2^e`. -/
inductive FVal where
  | nan (signalling : Bool)
  | inf (neg : Bool)
  | fin (neg : Bool) (m : Nat) (e : Int)
deriving DecidableEq, Repr

/-- The value a bit pattern stands for (R77, R80). -/
def unpack (t : Fmt) (x : Nat) : FVal :=
  let neg := (x / t.sign) % 2 == 1
  let ex := (x / 2 ^ t.f) % 2 ^ t.e
  let fr := x % 2 ^ t.f
  if ex = 2 ^ t.e - 1 then
    if fr = 0 then .inf neg else .nan (fr < 2 ^ (t.f - 1))
  else if ex = 0 then .fin neg fr (t.emin - t.f)
  else .fin neg (2 ^ t.f + fr) ((ex : Int) - t.bias - t.f)

/-- Whether a significand cut to `keep` goes up, by the rounding mode (Table 4.2); `rem` of `2 * half` was cut off. -/
def roundsUp (rm : Nat) (neg : Bool) (keep rem half : Nat) : Bool :=
  match rm with
  | 0 => decide (half < rem) || (rem == half && keep % 2 == 1)
  | 1 => false
  | 2 => neg && rem != 0
  | 3 => !neg && rem != 0
  | _ => decide (half ≤ rem)

/-- `m * 2^e` cut to a multiple of `2^q` in a rounding mode: the multiple, and whether it is inexact. -/
def roundAt (rm : Nat) (neg : Bool) (m : Nat) (e q : Int) : Nat × Bool :=
  if q ≤ e then (m * 2 ^ (e - q).toNat, false)
  else
    let sh := (q - e).toNat
    let keep := m / 2 ^ sh
    let rem := m % 2 ^ sh
    (keep + (if roundsUp rm neg keep rem (2 ^ (sh - 1)) then 1 else 0), rem != 0)

/-- A zero, an infinity, the largest finite value of a sign. -/
def signed (t : Fmt) (neg : Bool) (x : Nat) : Nat := if neg then t.sign + x else x

/-- The overflow result of a rounding mode (R85). -/
def overflow (t : Fmt) (rm : Nat) (neg : Bool) : Nat :=
  match rm with
  | 1 => signed t neg t.max
  | 2 => signed t neg (if neg then t.inf else t.max)
  | 3 => signed t neg (if neg then t.max else t.inf)
  | _ => signed t neg t.inf

/-- ONE ROUNDING: the exact value `(-1)^neg * m * 2^e` in format `t`, with OF, UF (tiny after rounding, and inexact) and NX
(R85, R88). -/
def pack (t : Fmt) (rm : Nat) (neg : Bool) (m : Nat) (e : Int) : Nat × FFlags :=
  if m = 0 then (signed t neg 0, 0#5)
  else
    let top := (Nat.log2 m : Int) + e
    let q := (if top < t.emin then t.emin else top) - t.f
    let (k, nx) := roundAt rm neg m e q
    let bits := (q + t.f + t.bias - 1).toNat * 2 ^ t.f + k
    if t.inf ≤ bits then (overflow t rm neg, flOF ||| flNX)
    else
      let u := roundAt rm neg m e (top - t.f)
      let tiny := decide ((Nat.log2 u.1 : Int) + (top - t.f) < t.emin)
      (signed t neg bits, (if nx then flNX else 0#5) ||| (if nx && tiny then flUF else 0#5))

/-- The canonical NaN with a flag (R81). -/
def nanWith (t : Fmt) (fl : FFlags) : Nat × FFlags := (t.nan, fl)

/-- NV when a value is a signalling NaN (R81). -/
def FVal.sNaN : FVal → Bool
  | .nan s => s
  | _ => false
def FVal.isNaN : FVal → Bool
  | .nan _ => true
  | _ => false
/-- NV when any value of a list signals. -/
def sigFlags (l : List FVal) : FFlags := if l.any FVal.sNaN then flNV else 0#5

/-- The sign of an exact zero sum of opposite signs (R85). -/
def zeroSign (rm : Nat) : Bool := rm == 2

/-- The exact sum of two finite values, rounded once. -/
def packSum (t : Fmt) (rm : Nat) (na : Bool) (ma : Nat) (ea : Int) (nb : Bool) (mb : Nat) (eb : Int) : Nat × FFlags :=
  let e := if ea ≤ eb then ea else eb
  let a : Int := (ma * 2 ^ (ea - e).toNat : Nat)
  let b : Int := (mb * 2 ^ (eb - e).toNat : Nat)
  let x := (if na then -a else a) + (if nb then -b else b)
  if x = 0 then (signed t (if na == nb then na else zeroSign rm) 0, 0#5)
  else pack t rm (decide (x < 0)) x.natAbs e

/-- Addition (R85). -/
def addV (t : Fmt) (rm : Nat) (a b : FVal) : Nat × FFlags :=
  match a, b with
  | .nan _, _ => nanWith t (sigFlags [a, b])
  | _, .nan _ => nanWith t (sigFlags [a, b])
  | .inf x, .inf y => if x == y then (signed t x t.inf, 0#5) else nanWith t flNV
  | .inf x, _ => (signed t x t.inf, 0#5)
  | _, .inf y => (signed t y t.inf, 0#5)
  | .fin na ma ea, .fin nb mb eb => packSum t rm na ma ea nb mb eb

/-- A value with its sign changed. -/
def negV : FVal → FVal
  | .nan s => .nan s
  | .inf n => .inf !n
  | .fin n m e => .fin (!n) m e

/-- The exact product of two values, or what is not one: a NaN result with its flag. -/
def mulV (a b : FVal) : FVal × FFlags :=
  match a, b with
  | .nan _, _ => (.nan false, sigFlags [a, b])
  | _, .nan _ => (.nan false, sigFlags [a, b])
  | .inf x, .inf y => (.inf (x != y), 0#5)
  | .inf x, .fin y m _ => if m = 0 then (.nan false, flNV) else (.inf (x != y), 0#5)
  | .fin x m _, .inf y => if m = 0 then (.nan false, flNV) else (.inf (x != y), 0#5)
  | .fin x m e, .fin y n k => (.fin (x != y) (m * n) (e + k), 0#5)

/-- A value in a format, rounded once. -/
def packV (t : Fmt) (rm : Nat) : FVal → Nat × FFlags
  | .nan s => nanWith t (if s then flNV else 0#5)
  | .inf n => (signed t n t.inf, 0#5)
  | .fin n m e => pack t rm n m e

def fadd (t : Fmt) (rm a b : Nat) : Nat × FFlags := addV t rm (unpack t a) (unpack t b)
def fsub (t : Fmt) (rm a b : Nat) : Nat × FFlags := addV t rm (unpack t a) (negV (unpack t b))

def fmul (t : Fmt) (rm a b : Nat) : Nat × FFlags :=
  let (p, fl) := mulV (unpack t a) (unpack t b)
  let (r, fl') := packV t rm p
  (r, fl ||| fl')

/-- a × b + c with one rounding; 0 × ∞ raises NV even when c is a quiet NaN (R170). -/
def ffma (t : Fmt) (rm a b c : Nat) : Nat × FFlags :=
  let (p, fl) := mulV (unpack t a) (unpack t b)
  let (r, fl') := addV t rm p (unpack t c)
  (r, fl ||| fl')

/-- A quotient of naturals to `n` bits at least, its last bit sticky: the number, and the power of two it is scaled by. -/
def stickyDiv (a b n : Nat) : Nat × Int :=
  let k := n + Nat.log2 b + 1
  let q := a * 2 ^ k / b
  (2 * q + (if a * 2 ^ k % b = 0 then 0 else 1), -(k : Int) - 1)

def divV (t : Fmt) (rm : Nat) (a b : FVal) : Nat × FFlags :=
  match a, b with
  | .nan _, _ => nanWith t (sigFlags [a, b])
  | _, .nan _ => nanWith t (sigFlags [a, b])
  | .inf _, .inf _ => nanWith t flNV
  | .inf x, .fin y _ _ => (signed t (x != y) t.inf, 0#5)
  | .fin x _ _, .inf y => (signed t (x != y) 0, 0#5)
  | .fin x m e, .fin y n k =>
    if n = 0 then (if m = 0 then nanWith t flNV else (signed t (x != y) t.inf, flDZ))
    else if m = 0 then (signed t (x != y) 0, 0#5)
    else
      let (q, s) := stickyDiv m n (t.f + 4)
      pack t rm (x != y) q (e - k + s)

def fdiv (t : Fmt) (rm a b : Nat) : Nat × FFlags := divV t rm (unpack t a) (unpack t b)

/-- The integer square root by binary digits: the largest r with r * r ≤ x, below 2^n. -/
def isqrtFrom (x : Nat) : Nat → Nat → Nat
  | 0, r => r
  | n + 1, r => isqrtFrom x n (if (r + 2 ^ n) * (r + 2 ^ n) ≤ x then r + 2 ^ n else r)

def isqrt (x : Nat) : Nat := isqrtFrom x (Nat.log2 x / 2 + 1) 0

/-- The square root (R171). -/
def fsqrt (t : Fmt) (rm a : Nat) : Nat × FFlags :=
  match unpack t a with
  | .nan s => nanWith t (if s then flNV else 0#5)
  | .inf n => if n then nanWith t flNV else (t.inf, 0#5)
  | .fin n m e =>
    if m = 0 then (signed t n 0, 0#5)
    else if n then nanWith t flNV
    else
      let odd := e % 2
      let k := t.f + 4
      let x := m * 2 ^ (2 * k + odd.toNat)
      let r := isqrt x
      pack t rm false (2 * r + (if r * r = x then 0 else 1)) ((e - odd) / 2 - k - 1)

/-- 1/a (R86, R171). -/
def frcp (t : Fmt) (a : Nat) : Nat × FFlags := divV t 0 (.fin false 1 0) (unpack t a)

/-- 1/√a (R86, R171). -/
def frsq (t : Fmt) (a : Nat) : Nat × FFlags :=
  match unpack t a with
  | .nan s => nanWith t (if s then flNV else 0#5)
  | .inf n => if n then nanWith t flNV else (0, 0#5)
  | .fin n m e =>
    if m = 0 then (signed t n t.inf, flDZ)
    else if n then nanWith t flNV
    else
      let odd := e % 2
      let m := m * 2 ^ odd.toNat
      let k := t.f + 4 + Nat.log2 m
      let r := isqrt (2 ^ (2 * k) / m)
      pack t 0 false (2 * r + (if r * r * m = 2 ^ (2 * k) then 0 else 1)) (-((e - odd) / 2) - k - 1)

/-! ## The function operations (R86, Table 4.3)

The exact value is formed in binary fixed point with 320 fraction bits, far below half a unit of any f32 result; no argument
other than the exact cases has a value that a format or a midpoint of it holds, so the last bit only marks the result inexact. -/

/-- The fraction bits of the fixed-point work. -/
def fxBits : Nat := 320
def fxOne : Nat := 2 ^ 320
/-- ln 2 and 2π with 320 fraction bits, cut. -/
def fxLn2 : Nat := 1480553391661173448385607439722553250922680800745876974795605978609098082859138712941075737848984
def fxTwoPi : Nat := 13420802360424337830311681948440006481608388178854297901454212848703426437343610760199000777828079

/-- The sum of a power series: `term` times `x / (k * fxOne)` at each further step, `k` rising from its start by `dk`. -/
def expSeries (x : Nat) : Nat → Nat → Nat → Nat
  | 0, _, _ => 0
  | n + 1, k, term => term + expSeries x n (k + 1) (term * x / fxOne / k)

/-- sin by its series: `x2` the square of the argument. -/
def sinSeries (x2 : Nat) : Nat → Nat → Nat → Bool → Int
  | 0, _, _, _ => 0
  | n + 1, k, term, neg =>
    (if neg then -(term : Int) else (term : Int)) + sinSeries x2 n (k + 2) (term * x2 / fxOne / (k * (k + 1))) (!neg)

/-- atanh by its series. -/
def atanhSeries (x2 : Nat) : Nat → Nat → Nat → Nat
  | 0, _, _ => 0
  | n + 1, k, term => term / k + atanhSeries x2 n (k + 2) (term * x2 / fxOne)

/-- 2^x for a fixed-point x in [0, 1). -/
def fxExp2 (x : Nat) : Nat := expSeries (x * fxLn2 / fxOne) 80 1 fxOne

/-- log2 x for a fixed-point x in [1, 2). -/
def fxLog2 (x : Nat) : Nat :=
  let z := (x - fxOne) * fxOne / (x + fxOne)
  2 * atanhSeries (z * z / fxOne) 110 1 z * fxOne / fxLn2

/-- sin(2πx) for a fixed-point x in [0, 1/4]. -/
def fxSin (x : Nat) : Nat :=
  let y := x * fxTwoPi / fxOne
  (sinSeries (y * y / fxOne) 60 2 y false).toNat

/-- `m * 2^e` as a fixed-point number, for e ≥ -320. -/
def toFx (m : Nat) (e : Int) : Nat := m * 2 ^ (e + 320).toNat

/-- 2^a (R171). -/
def fexp2 (a : Nat) : Nat × FFlags :=
  match unpack f32 a with
  | .nan s => nanWith f32 (if s then flNV else 0#5)
  | .inf n => if n then (0, 0#5) else (f32.inf, 0#5)
  | .fin n m e =>
    if m = 0 then (f32.bias * 2 ^ f32.f, 0#5)
    else if (8 : Int) < (Nat.log2 m : Int) + e then
      (if n then pack f32 0 false 1 (-400) else (f32.inf, flOF ||| flNX))
    else
      let x := toFx m e
      let whole := x / fxOne
      let frac := x % fxOne
      if frac = 0 then pack f32 0 false 1 (if n then -(whole : Int) else whole)
      else if n then
        pack f32 0 false (2 * fxExp2 (fxOne - frac) + 1) (-(whole : Int) - 1 - 321)
      else pack f32 0 false (2 * fxExp2 frac + 1) ((whole : Int) - 321)

/-- log2 a (R171). -/
def flog2 (a : Nat) : Nat × FFlags :=
  match unpack f32 a with
  | .nan s => nanWith f32 (if s then flNV else 0#5)
  | .inf n => if n then nanWith f32 flNV else (f32.inf, 0#5)
  | .fin n m e =>
    if m = 0 then (signed f32 true f32.inf, flDZ)
    else if n then nanWith f32 flNV
    else
      let l := Nat.log2 m
      let w : Int := l + e
      if m = 2 ^ l then pack f32 0 (decide (w < 0)) w.natAbs 0
      else
        let fr : Int := fxLog2 (m * 2 ^ (320 - l))
        let v := w * (fxOne : Int) + fr
        pack f32 0 (decide (v < 0)) (2 * v.natAbs + 1) (-321)

/-- sin(2πx) or cos(2πx) of x turns (R86, R171). -/
def fsincos (cosine : Bool) (a : Nat) : Nat × FFlags :=
  match unpack f32 a with
  | .nan s => nanWith f32 (if s then flNV else 0#5)
  | .inf _ => nanWith f32 flNV
  | .fin n m e =>
    let x := (toFx m e) % fxOne
    let quarter := fxOne / 4
    let q := x / quarter
    let t := x % quarter
    -- value = ± S(t) or ± S(1/4 - t)
    let flip := if cosine then q % 2 == 0 else q % 2 == 1
    let neg0 := if cosine then q == 1 || q == 2 else q == 2 || q == 3
    let neg := if cosine then neg0 else (neg0 != n)
    if t = 0 then (if flip then pack f32 0 neg 1 0 else (0, 0#5))
    else pack f32 0 neg (2 * fxSin (if flip then quarter - t else t) + 1) (-321)

/-! ## Minimum, maximum, comparison (R82, R175) -/

/-- An order key of a value that is no NaN: negative infinity below every number, -0 below +0. -/
def cmpFin (na : Bool) (ma : Nat) (ea : Int) (nb : Bool) (mb : Nat) (eb : Int) : Ordering :=
  let e := if ea ≤ eb then ea else eb
  let a : Int := (ma * 2 ^ (ea - e).toNat : Nat)
  let b : Int := (mb * 2 ^ (eb - e).toNat : Nat)
  compare (if na then -a else a) (if nb then -b else b)

/-- The comparison of two values, -0 equal to +0; none when either is a NaN. -/
def cmpV (a b : FVal) : Option Ordering :=
  match a, b with
  | .nan _, _ => none
  | _, .nan _ => none
  | .inf x, .inf y => some (if x == y then .eq else if x then .lt else .gt)
  | .inf x, _ => some (if x then .lt else .gt)
  | _, .inf y => some (if y then .gt else .lt)
  | .fin na ma ea, .fin nb mb eb => some (cmpFin na ma ea nb mb eb)

def FVal.neg : FVal → Bool
  | .nan _ => false
  | .inf n => n
  | .fin n _ _ => n

/-- minimumNumber and maximumNumber (R82). -/
def fminmax (t : Fmt) (isMax : Bool) (a b : Nat) : Nat × FFlags :=
  let x := unpack t a
  let y := unpack t b
  let fl := sigFlags [x, y]
  match x.isNaN, y.isNaN with
  | true, true => (t.nan, fl)
  | true, false => (b, fl)
  | false, true => (a, fl)
  | false, false =>
    let aLess := match cmpV x y with
      | some .lt => true
      | some .gt => false
      | _ => x.neg
    (if aLess == isMax then b else a, fl)

/-- Ordered and less, less or equal, equal. -/
def flt (t : Fmt) (a b : Nat) : Bool := cmpV (unpack t a) (unpack t b) == some .lt
def fle (t : Fmt) (a b : Nat) : Bool :=
  match cmpV (unpack t a) (unpack t b) with
  | some .lt => true
  | some .eq => true
  | _ => false
def feq (t : Fmt) (a b : Nat) : Bool := cmpV (unpack t a) (unpack t b) == some .eq
def funo (t : Fmt) (a b : Nat) : Bool := (cmpV (unpack t a) (unpack t b)).isNone

/-! ## Rounding to integers, conversions (R90 to R92, R171) -/

/-- A finite value rounded to an integer in a mode: its magnitude, and whether it changed. -/
def roundInt (rm : Nat) (neg : Bool) (m : Nat) (e : Int) : Nat × Bool := roundAt rm neg m e 0

/-- FRINT (R171). -/
def frint (t : Fmt) (rm a : Nat) : Nat × FFlags :=
  match unpack t a with
  | .nan s => nanWith t (if s then flNV else 0#5)
  | .inf _ => (a, 0#5)
  | .fin n m e => ((pack t 0 n (roundInt rm n m e).1 0).1, 0#5)

/-- a - floor(a), rounded RTZ (R171). -/
def ffract (t : Fmt) (a : Nat) : Nat × FFlags :=
  match unpack t a with
  | .nan s => nanWith t (if s then flNV else 0#5)
  | .inf _ => nanWith t flNV
  | .fin n m e =>
    let (fl, _) := roundInt 2 n m e
    let (r, f) := packSum t 1 n m e (!n) fl 0
    (if r = t.sign then 0 else r, f)

/-- convertFormat (R90); under SAT (R92) a value beyond the range is clamped, and a NaN gives +0. -/
def fcvt (frm dst : Fmt) (rm : Nat) (sat : Bool) (a : Nat) : Nat × FFlags :=
  match unpack frm a with
  | .nan s => (if sat then 0 else dst.nan, if s then flNV else 0#5)
  | .inf n => if sat then (signed dst n dst.max, flNX) else (signed dst n dst.inf, 0#5)
  | .fin n m e =>
    let (r, fl) := pack dst rm n m e
    if sat && fl.getLsbD 2 then (signed dst n dst.max, fl) else (r, fl)

/-- Float dst integer of `w` bits (R92, Table 4.5). -/
def fToInt (frm : Fmt) (signedTo : Bool) (w : Nat) (rm : Nat) (sat : Bool) (a : Nat) : Nat × FFlags :=
  let lo : Int := if signedTo then -(2 ^ (w - 1) : Int) else 0
  let hi : Int := if signedTo then 2 ^ (w - 1) - 1 else 2 ^ w - 1
  let bad : Nat := if signedTo then 2 ^ (w - 1) else 0
  let enc (x : Int) : Nat := (x % (2 ^ w : Int)).toNat
  let out (neg : Bool) : Nat × FFlags := if sat then (enc (if neg then lo else hi), flNX) else (bad, flNV)
  match unpack frm a with
  | .nan _ => (if sat then 0 else bad, flNV)
  | .inf n => out n
  | .fin n m e =>
    -- a value far beyond the range is out of it whatever its digits are
    if (w : Int) + 1 < (Nat.log2 m : Int) + e ∧ m ≠ 0 then out n
    else
      let (k, nx) := roundInt rm n m e
      let v : Int := if n then -(k : Int) else k
      if v < lo then out true else if hi < v then out false
      else (enc v, if nx then flNX else 0#5)

/-- Integer to float (R91). -/
def intToF (dst : Fmt) (rm : Nat) (x : Int) : Nat × FFlags := pack dst rm (decide (x < 0)) x.natAbs 0

/-- The clamp of MODX kind 5 on a float (R55): to [+0, 1], a NaN and -0 giving +0. -/
def satUnit (t : Fmt) (x : Nat) : Nat :=
  match unpack t x with
  | .nan _ => 0
  | .inf n => if n then 0 else t.bias * 2 ^ t.f
  | .fin n _ _ => if n then 0 else if t.bias * 2 ^ t.f ≤ x then t.bias * 2 ^ t.f else x

/-- floor(log2 |x|) of a finite nonzero value. -/
def exOf (m : Nat) (e : Int) : Int := (Nat.log2 m : Int) + e

end Sys2Proof.Machine
end

