-- ==== Sys2Proof/Machine/Flags.lean ====
section
/-! DEFINITION. Sys2Proof/Machine/Flags.lean: the exception flags of a synchronous instruction (R87 to R89), and how each shape of
vector instruction takes its result to its destination: synchronous and result-forming (R46, R160), flag-class (R39, R41), or a
lane mask in a scalar (R175). -/

namespace Sys2Proof.Machine

/-- The flags raised over the active lanes (R88). -/
def orFlags (mask : Word) (f : Nat → FFlags) : FFlags :=
  laneList.foldl (fun a l => if bitOf mask l then a ||| f l else a) 0#5

/-- The lanes that raise a flag enabled in sys.fpen (R89). -/
def enabledLanes (mask : Word) (en : FFlags) (f : Nat → FFlags) : Word :=
  maskOf fun l => bitOf mask l && (f l &&& en != 0#5)

/-- Flags ORed into sys.fpflags of the issuing group (R87). -/
def State.raise (s : State) (fl : FFlags) : State :=
  { s with g := { s.g with sys := { s.g.sys with fpflags := s.g.sys.fpflags ||| fl } } }

/-- A synchronous floating-point instruction raises its flags: they are ORed into sys.fpflags, and FPEXC is taken when an enabled
one is among them, with no effect on the destination (R89); else the instruction goes on. -/
def withFlags (s : State) (f : Nat → FFlags) (k : State → Out) : Out :=
  let all := orFlags s.p.exec f
  let s' := s.raise all
  let bad := enabledLanes s.p.exec s.g.sys.fpen f
  if bad = 0#32 then k s'
  else .next (s'.trap { cause := cFPEXC, lanes := some bad, infoA := all.setWidth 32 })

/-- A synchronous vector result: sources popped, destination written in the active lanes, y0 and y1 moved on, next (R46, R160). -/
def syncResult (pops : List (BitVec 8)) (d : BitVec 8) (f : Lanes) (s : State) : Out :=
  .next (((s.popSources pops).writeV d f).formY f).retire

/-- The same of a 64-bit result (R46). -/
def syncResult64 (pops : List (BitVec 8)) (d : BitVec 8) (f : Lanes64) (s : State) : Out :=
  .next (((s.popSources pops).writeV64 d f).formY64 (fun l => lo32 (f l)) (fun l => hi32 (f l))).retire

/-- The vector registers a destination code names, `n` of them; none for the discard and for queues. -/
def vdests (d : BitVec 8) (n : Nat) : List Nat := if d.toNat < 232 then (List.range n).map (d.toNat + ·) else []

/-- What an asynchronous vector result will write (R41): a register under the exec mask, a queue's entry, or nothing. -/
def State.asyncWrites (s : State) (d : BitVec 8) (f : Lanes) (fl : FFlags) : Writes :=
  let e := lanesStore s.p.exec f
  if d.toNat < 232 then { v := [(d.toNat, s.p.exec, e)], fl := fl }
  else if 0xF0 ≤ d.toNat then { q := (s.pushTargets (d.toNat - 0xF0)).map fun q => (q, e), fl := fl }
  else { fl := fl }

/-- A flag-class vector result: computed from the sources read now, written when the operation completes after `clk` (R41). -/
def asyncResult (clk : Nat) (pops : List (BitVec 8)) (d : BitVec 8) (f : Lanes) (fl : Nat → FFlags) (s : State) : Out :=
  let w := s.asyncWrites d f (orFlags s.p.exec fl)
  .next (((s.popSources pops).startFlag clk w (vdests d 1) [])).retire

/-- The same of a 64-bit result. -/
def asyncResult64 (clk : Nat) (d : BitVec 8) (f : Lanes64) (fl : Nat → FFlags) (s : State) : Out :=
  let w : Writes :=
    if d.toNat < 232 then
      { v := [(d.toNat, s.p.exec, lanesStore s.p.exec fun l => lo32 (f l)),
              (d.toNat + 1, s.p.exec, lanesStore s.p.exec fun l => hi32 (f l))], fl := orFlags s.p.exec fl }
    else { fl := orFlags s.p.exec fl }
  .next (s.startFlag clk w (vdests d 2) []).retire

/-- A lane mask of a test written to a scalar (R175): 0 in inactive lanes. -/
def maskResult (pops : List (BitVec 8)) (d : BitVec 7) (f : Nat → Bool) (s : State) : Out :=
  .next (((s.popSources pops).writeS d (maskOf fun l => bitOf s.p.exec l && f l))).retire

/-- The rounding mode in force: MODX kind 3, else RNE (R55, R84). -/
def State.rmode (s : State) : Nat := (s.p.mods.rounding.map BitVec.toNat).getD 0

/-- An integer result clamped under MODX kind 5 (R163): the exact result to the i32 or the n32 range. `signed` and `natural` give
the exact result by the reading of the operands; `wrap` is the unclamped one. -/
def State.satInt (s : State) (wrap : Word) (signed natural : Int) : Word :=
  match s.p.mods.saturate with
  | none => wrap
  | some n =>
    if n = 0#1 then BitVec.ofInt 32 (max (-(2 ^ 31 : Int)) (min (2 ^ 31 - 1) signed))
    else BitVec.ofInt 32 (max 0 (min (2 ^ 32 - 1) natural))

/-- A float result clamped under MODX kind 5 (R55). -/
def State.satF (s : State) (t : Fmt) (x : Nat) : Nat := if s.p.mods.saturate.isSome then satUnit t x else x

end Sys2Proof.Machine
end

