-- ==== Sys2Proof/Machine/Access.lean ====
section
/-! DEFINITION. Sys2Proof/Machine/Access.lean: what the memory instructions share: scratchpad bytes, the operations of Table 3.6 and
the aggregator (R239), the checks of a global access in the order of R64, and the reading and writing of lanes. -/

namespace Sys2Proof.Machine

/-! ## Scratchpad bytes (R184, R192) -/

/-- `n` bytes of a core's scratchpad as a little-endian number. -/
def State.spadRead (s : State) (core at_ n : Nat) : Nat := readBytes (s.core core).spad at_ n

/-- The low `n` bytes of a value stored in a core's scratchpad. -/
def State.spadWrite (s : State) (core at_ n v : Nat) : State :=
  s.modCore core fun k => { k with spad := writeBytes k.spad at_ n v }

/-- Bytes stored in a core's scratchpad. -/
def State.spadPut (s : State) (core at_ : Nat) (bs : List Byte) : State :=
  s.modCore core fun k => { k with spad := putBytes k.spad at_ bs }

/-! ## The operations of Table 3.6 -/

/-- A number of `w` bits as a signed one. -/
def signedOf (w x : Nat) : Int := if x < 2 ^ (w - 1) then (x : Int) else (x : Int) - 2 ^ w

/-- Operations 2 to 12 of Table 3.6 at width `w`, with the flags of the float ones (R190, R238). -/
def atomOp (op w a b : Nat) : Nat × FFlags :=
  match op with
  | 2 => ((a + b) % 2 ^ w, 0#5)
  | 3 => (if signedOf w a ≤ signedOf w b then a else b, 0#5)
  | 4 => (if signedOf w b ≤ signedOf w a then a else b, 0#5)
  | 5 => (min a b, 0#5)
  | 6 => (max a b, 0#5)
  | 7 => (a &&& b, 0#5)
  | 8 => (a ||| b, 0#5)
  | 9 => (a ^^^ b, 0#5)
  | 10 => fadd f32 0 a b
  | 11 => fminmax f32 false a b
  | 12 => fminmax f32 true a b
  | _ => (b, 0#5)

/-- One lane of an atomic on the value that stands: the new value, and its flags: XCHG, CAS, or an operation. -/
def atomStep (op w cur operand next : Nat) : Nat × FFlags :=
  match op with
  | 0 => (operand % 2 ^ w, 0#5)
  | 1 => (if cur = operand % 2 ^ w then next % 2 ^ w else cur, 0#5)
  | op => atomOp op w cur (operand % 2 ^ w)

/-- Lanes applied one after another to a location: the old value of each, the value left, the flags (R191). -/
def atomSerial (op w : Nat) : Nat → List (Nat × Nat × Nat) → List (Nat × Nat) × Nat × FFlags
  | cur, [] => ([], cur, 0#5)
  | cur, (l, v, next) :: r =>
    let (new, fl) := atomStep op w cur v next
    let (olds, last, fl') := atomSerial op w new r
    ((l, cur) :: olds, last, fl ||| fl')

/-- The aggregator on one address (R239): the lanes' operands folded among themselves first, each lane's old value from the fold
before it. -/
def aggregate (op w m : Nat) (run : List (Nat × Nat × Nat)) : List (Nat × Nat) × Nat × FFlags :=
  if op ≤ 1 then atomSerial op w m run
  else
    match run with
    | [] => ([], m, 0#5)
    | (l, v, _) :: r =>
      let st := r.foldl (fun (st : List (Nat × Nat) × Nat × FFlags) e =>
        let (old, f1) := atomOp op w m st.2.1
        let (fold, f2) := atomOp op w st.2.1 (e.2.1 % 2 ^ w)
        (st.1 ++ [(e.1, old)], fold, st.2.2 ||| f1 ||| f2)) ([(l, m)], v % 2 ^ w, 0#5)
      let (last, f) := atomOp op w m st.2.1
      (st.1, last, st.2.2 ||| f)

/-! ## Lanes of a data run -/

/-- The number that the data registers of lane `l` hold, `n` of them from code `d` on (R189): a pair by R44. -/
def State.dataOf (s : State) (d : BitVec 8) (n : Nat) (l : Nat) : Nat :=
  if n = 1 then (s.vsource d l).toNat
  else if n = 2 then (s.vsource64 (fun w => w.setWidth 64) d l).toNat
  else (List.range n).foldr (fun i acc => (s.g.vreg (d.toNat + i) l).toNat + 2 ^ 32 * acc) 0

/-- A loaded value as its registers hold it: a sub-word extended by SX (R53, R189). -/
def extendSub (sub : Nat) (sx : Bool) (v : Nat) : Nat :=
  match sub, sx with
  | 1, true => ((BitVec.ofNat 8 v).signExtend 32).toNat
  | 2, true => ((BitVec.ofNat 16 v).signExtend 32).toNat
  | _, _ => v

/-- The writes of a load: lane values `vals` into `n` registers from `d` on, or one queue entry, or nothing (R41, R119). -/
def State.loadWrites (s : State) (d : BitVec 8) (n : Nat) (mask : Word) (vals : List (Nat × Nat)) : Writes :=
  let row := fun i => vals.foldl (fun st (e : Nat × Nat) => storeWrite st e.1 (BitVec.ofNat 32 (e.2 / 2 ^ (32 * i)))) ([] : Store 32)
  if d.toNat < 232 then { v := (List.range n).map fun i => (d.toNat + i, mask, row i) }
  else if 0xF0 ≤ d.toNat then { q := (s.pushTargets (d.toNat - 0xF0)).map fun q => (q, row 0) }
  else {}

/-- The active lanes of the issuing split, ascending. -/
def State.active (s : State) : List Nat := laneList.filter (bitOf s.p.exec)

/-- The mask of a list of lanes. -/
def laneMask (l : List Nat) : Word := l.foldl (fun m i => m ||| laneBit i) 0#32

/-! ## The checks of a global access (R64: MISALIGN, PRIVGROW, then translation) -/

/-- The base and the length of the issuing group's private region (R415). -/
def State.privBase (s : State) : Nat × Nat :=
  let c := (s.ctx s.g.ctx).privcfg.toNat
  let e := nfield c 20 16
  let sz := 2 ^ (if 16 ≤ e ∧ e ≤ 30 then e else 16)
  (nfield c 15 0 * 2 ^ 64 + (sz * (32 * s.myTeam.region + s.g.gid)) % 2 ^ 64, sz)

/-- The highest byte offset that an access of `n` bytes reaches in the private region beyond the mark (R416). -/
def State.privOver (s : State) (n va : Nat) : Option Nat :=
  let (base, len) := s.privBase
  if s.isSup || s.g.evaluates.isSome then none
  else if base ≤ va ∧ va < base + len ∧ s.g.sys.privhwm.toNat < va - base + n then some (va - base + n - 1)
  else none

/-- The map of a team that an access of `n` bytes at a virtual address lies in (R196); the lowest of several (log 66). -/
def Team.mapAt (tm : Team) (va n : Nat) : Option (Nat × MapRegion) :=
  tm.maps.find? fun e => (e.2.serving || e.2.closing) && decide (e.2.va ≤ va) && decide (va + n ≤ e.2.va + e.2.size)

/-- What the translation of the lanes answers, at the lowest lane that stands in the way. -/
inductive Resolved where
  | ok (l : List LaneAt)
  | miss (va : Nat)
  | fault (va : Nat) (f : XFault)
  | closing (m : Nat)
deriving DecidableEq, Repr

/-- The places of a list of lanes and addresses. -/
def State.resolve (s : State) (acc n : Nat) (served : Bool) : List (Nat × Nat) → Resolved
  | [] => .ok []
  | (l, va) :: r =>
    let go := fun (p : Place) =>
      match s.resolve acc n served r with
      | .ok t => .ok ({ lane := l, va := va, place := p } :: t)
      | x => x
    match (if served then s.myTeam.mapAt va n else none) with
    | some (m, e) => if e.closing then .closing m else go (.map m (e.off + (va - e.va)))
    | none =>
      match s.lookup va acc with
      | .hit pa t => go (.pa pa t)
      | .miss => .miss va
      | .fault f => .fault va f

/-- The checks of a global access of `n` bytes a lane, in the order of R64; a poisoned line is MEMERR (R428); then the access goes
on with its places. A scalar access names exec in its records (R418). -/
def withPlaces (acc n : Nat) (scalar served : Bool) (lanes : List (Nat × Nat)) (s : State) (k : List LaneAt → Out) : Out :=
  let named := fun (l : List (Nat × Nat)) => if scalar then none else some (laneMask (l.map Prod.fst))
  let first := fun (l : List (Nat × Nat)) => BitVec.ofNat 80 ((l.head?.map Prod.snd).getD 0)
  let bad := lanes.filter fun e => e.2 % n != 0
  let beyond := lanes.filter fun e => (s.privOver n e.2).isSome
  if !bad.isEmpty then .next (s.trap { cause := cMISALIGN, lanes := named bad, va := first bad })
  else if !beyond.isEmpty then
    .next (s.trap { cause := cPRIVGROW, sub := if accWrites acc then 4 else 0, lanes := named beyond, va := first beyond
                    infoA := BitVec.ofNat 32 ((beyond.filterMap fun e => s.privOver n e.2).foldl max 0) })
  else
    match s.resolve acc n served lanes with
    | .closing m => .next (s.stall (.unmapping m))
    | .miss va => .next (s.askWalk (BitVec.ofNat 80 va) acc)
    | .fault va f =>
      let same := lanes.filter fun e => s.lookup e.2 acc == .fault f
      .next (s.pageTrap f acc (BitVec.ofNat 80 va) (named same))
    | .ok l =>
      let poisoned := l.filter fun e => match e.place with | .pa pa _ => s.dev.poisoned.contains (lineOf pa) | _ => false
      if poisoned.isEmpty then k l
      else
        let p := poisoned.map fun e => (e.lane, e.va)
        .next (s.trap { cause := cMEMERR, sub := if accWrites acc then 4 else 0, lanes := named p, va := first p })

/-- The commit of the issuing split is over, and its instruction makes its checks again. -/
def State.reopened (s : State) : State :=
  if s.g.region.committing = some s.p.idx then
    { s with g := { s.g with region := { s.g.region with committing := none, acting := false } } }
  else s

/-- A commit point's places (R219): its checks are made at issue, and it goes on with what they found after its commit; a translation among that
which has been removed since is made again (R411). -/
def withKeptPlaces (acc n : Nat) (lanes : List (Nat × Nat)) (s : State) (k : List LaneAt → State → Out) : Out :=
  match s.p.kept with
  | some (.places l) => if s.p.stale then again s.reopened else k l s
  | _ => again s
where
  again (s : State) : Out :=
    withPlaces acc n false false lanes s fun l => k l { s with p := { s.p with kept := some (.places l), stale := false } }

/-- The physical lines that a list of places touches, once each. -/
def placeLines (l : List LaneAt) : List Nat :=
  (l.filterMap fun e => match e.place with | .pa pa _ => some (lineOf pa) | _ => none).eraseDups

/-- Those of its lines that lie in pages of class streaming (R217). -/
def streamingLines (l : List LaneAt) : List Nat :=
  (l.filterMap fun e => match e.place with | .pa pa t => if t.streaming then some (lineOf pa) else none | _ => none).eraseDups

/-- The first line of a list that an engine owns (R230). -/
def State.firstOwned (s : State) (lines : List Nat) : Option Nat := lines.find? s.ownedLine

/-! ## Engines' accesses (R228, R230, R296) -/

/-- What an engine's access to global memory meets. -/
inductive EngineAt where
  | ok (s : State) (pa : Nat)
  /-- The state, and when the first attempt at a migrating entry was made (R401). -/
  | again (s : State)
  | fault (s : State) (f : XFault)

/-- Whether a failed translation of an engine is restartable (R296). -/
def XFault.engineRestart (f : XFault) : Bool := f.restartable

/-- Whether an engine of a core may still use a translation whose removal was not acknowledged (R413, log 33). -/
def State.staleVa (s : State) (core ctx va : Nat) : Bool := core != noCore && s.dev.stale.any fun t => t.covers ctx va

/-- An engine's access to one address: a translation of a failed invalidation is a fatal INVALFAIL (R413); a migrating entry is tried again
for 4 µs, then WALKBUSY (R401, R408); a line that another agent owns makes it wait, and so does a write of a reserved line (R225,
R230); a poisoned line is MEMERR (R428). Else it is a demand access at the line's slice (R217). -/
def State.engineAt (s : State) (core ctx va acc : Nat) (mine : Nat → Bool) : EngineAt :=
  let key := (core, ctx, va / 65536)
  if s.staleVa core ctx va then .fault s { cause := cINVALFAIL, kind := 0, level := 0 }
  else match s.engineVa core ctx va acc with
  | (s, .leaf t _ _) =>
    let s := if s.dev.retries.isEmpty then s else s.endTries key
    let pa := t.apply va
    if s.dev.poisoned.contains (lineOf pa) then .fault s { cause := cMEMERR, kind := 0, level := 0 }
    else if s.ownedLine (lineOf pa) && !mine (lineOf pa) then .again s
    else if acc ≠ accR ∧ s.reservedLine (lineOf pa) then .again s
    else .ok (s.touchSlice t.streaming (lineOf pa)) pa
  | (s, .fault f) => .fault (s.endTries key) f
  | (s, .waits) => .again s
  | (s, .migrating level) =>
    match s.tryAgain key with
    | (true, s) => .again s
    | (false, s) => .fault (s.endTries key) (walkBusy level)

end Sys2Proof.Machine
end

