-- ==== Sys2Proof/Machine/Control.lean ====
section
/-! DEFINITION. Sys2Proof/Machine/Control.lean: clause headers and prefixes (02_instruction_formats.md), branches, splits and joins,
waits, gangs and barriers (05_groups_and_control.md). -/

namespace Sys2Proof.Machine

/-! ## The MODX prefixes (R52, R53) -/

/-- A prefix joins the chain before its target; a second one of its kind is ILLEGAL at the chain's first (R52). It is no issue of
its own, and counts toward the clause. -/
def addPrefix (again : Bool) (f : Prefix → Prefix) (s : State) : Out :=
  if again then .next (s.trap s.illegal)
  else
    let m := f { s.p.mods with start := some (s.p.mods.start.getD (s.cur.pc, s.p.count, s.cur.word)) }
    .next { s with p := { s.p with mods := m, pc := s.cur.pc + 4#32, count := s.p.count + 1 } }

/-- MODX kind 0 (R54, Table 2.9). -/
def execModxLaneSelect (p : BitVec 18) (s : State) : Out :=
  addPrefix s.p.mods.laneSel.isSome (fun m => { m with laneSel := some p }) s

/-- MODX kind 1 (R55). -/
def execModxNegateAbs (p : BitVec 6) (s : State) : Out :=
  addPrefix s.p.mods.negAbs.isSome (fun m => { m with negAbs := some p }) s

/-- MODX kind 2 (R56). -/
def execModxAddress (p : BitVec 10) (s : State) : Out :=
  addPrefix s.p.mods.address.isSome (fun m => { m with address := some p }) s

/-- MODX kind 3 (R55). -/
def execModxRounding (p : BitVec 3) (s : State) : Out :=
  addPrefix s.p.mods.rounding.isSome (fun m => { m with rounding := some p }) s

/-- MODX kind 4 (R39). -/
def execModxSetb (s : State) : Out := addPrefix s.p.mods.setb (fun m => { m with setb := true }) s

/-- MODX kind 5 (R55). -/
def execModxSaturate (n : BitVec 1) (s : State) : Out :=
  addPrefix s.p.mods.saturate.isSome (fun m => { m with saturate := some n }) s

/-- An encoding that the map leaves unassigned, or whose fields break a rule: ILLEGAL, with the first word (R65 to R76, Table
16.5). -/
def execIllegalEncoding (word : BitVec 32) (s : State) : Out :=
  .next (s.trap { cause := cILLEGAL, infoA := match s.p.mods.start with | some (_, _, w) => w | none => word })

/-! ## Safe points (R38, R430) -/

/-- Whether a pre-emption of the issuing group's cluster has been requested (R430). -/
def State.preemptWanted (s : State) : Bool :=
  !s.isSup && (((s.clusterOf s.g.team).bind Cluster.preempt).isSome)

/-- Whether a group has stopped for a pre-emption: its splits are at safe points or parked (R130, R430). -/
def Group.atSafePoint (g : Group) : Bool := !g.movers.isEmpty && g.movers.all fun q => q.wait == .preempted

/-- A group has stopped; when every group of its cluster has, the save follows (R431). -/
def State.groupStopped (s : State) : State :=
  if (s.clusterGroups s.g.team).all Group.atSafePoint then s.after 1 (.preemptSave s.g.core s.myTeam.tslot) else s

/-- A split of the issuing group has ended or parked: when all the others stand at safe points, one of them goes to its header
again and commits the region there (R430). -/
def State.stopCheck (s : State) (core slot : Nat) : State :=
  match s.group core slot with
  | none => s
  | some g =>
    if g.atSafePoint then
      match g.movers with
      | q :: _ => s.modSplit core slot q.idx s.wake
      | [] => s
    else s

/-! ## Clause headers (R32 to R38) -/

/-- Whether every flag that a WAIT field names is clear (R37, R39). -/
def Group.flagsClear (g : Group) (w : BitVec 12) : Bool :=
  (List.range 12).all fun f => !w.getLsbD f || g.flagCount f == 0

/-- The clause begins: its targets and marks, an empty last-result file (R32, R33, R46), and the wait for its flags (R37). -/
def State.openClause (s : State) (y sp : BitVec 1) (b a : BitVec 4) (w : BitVec 12) : State :=
  { s with p := { s.p with
      pc := s.cur.pc + BitVec.ofNat 32 s.cur.len, y0 := [], y1 := [], seta := a, setb := b, sp := sp == 1#1
      liveMask := if sp = 1#1 then s.cur.lit.setWidth 30 else 0#30, yld := y == 1#1, yielded := s.p.yld, count := 0
      inClause := true, stage := 0, reply := none, xlat := [], walkFault := none
      wait := if s.whole.flagsClear w then .none else .flags w } }

/-- A clause header (R32 to R37): a chain of prefixes before it is ILLEGAL (R52); a pre-emption takes the safe point that the
clause before it ends at (R38, R430), after the region's commit. -/
def execClauseHeader (y sp : BitVec 1) (b a : BitVec 4) (w : BitVec 12) (s : State) : Out :=
  if s.p.mods.start.isSome ∨ (sp = 1#1 ∧ s.cur.lit.extractLsb' 30 2 ≠ 0#2) then .next (s.trap s.illegal)
  else if s.cur.pc.toNat % 4 ≠ 0 then .next (s.trap { cause := cMISALIGN, lanes := some 0#32 })
  else if s.p.sp && s.preemptWanted then
    if s.g.splits.all fun q => q.isParked || q.wait == .preempted then
      atCommit s fun s => .next ({ s with p := { s.p with stage := 0, wait := .preempted } }).groupStopped
    else .next (s.stall .preempted)
  else .next (s.openClause y sp b a w)

/-! ## Branches (R121 to R124) -/

/-- The target of a branch: 2 · sext(offset) from the branch (R121). -/
def State.branchTarget (s : State) (o : BitVec 15) : Word := s.cur.pc + (o.signExtend 32 <<< 1)

/-- A branch with its condition (R121). -/
def branch (rd : List Reg) (cond : State → Bool) (o : BitVec 15) (s : State) : Out :=
  issue { rd := rd } s fun s =>
    if cond s then checkTarget s (s.branchTarget o) fun s => .next (s.jump (s.branchTarget o)) else .next s.retire

/-- BRA (R121). -/
def execBra (o : BitVec 15) (s : State) : Out := branch [] (fun _ => true) o s
/-- BREZ (R121). -/
def execBrez (o : BitVec 15) (s : State) : Out := branch [] (fun s => s.p.exec == 0#32) o s
/-- BRNEZ (R121). -/
def execBrnez (o : BitVec 15) (s : State) : Out := branch [] (fun s => s.p.exec != 0#32) o s
/-- BRZ.S (R121). -/
def execBrzS (o : BitVec 15) (a : BitVec 7) (s : State) : Out := branch [.s a 1] (fun s => s.readS a == 0#32) o s
/-- BRNZ.S (R121). -/
def execBrnzS (o : BitVec 15) (a : BitVec 7) (s : State) : Out := branch [.s a 1] (fun s => s.readS a != 0#32) o s
/-- BRNEG.S (R121). -/
def execBrnegS (o : BitVec 15) (a : BitVec 7) (s : State) : Out := branch [.s a 1] (fun s => (s.readS a).getLsbD 31) o s

/-- CALL (R121, R122): the link is written when the target's checks pass. -/
def execCall (o : BitVec 15) (d : BitVec 7) (s : State) : Out :=
  issue { wr := [.s d 1] } s fun s =>
    checkTarget s (s.branchTarget o) fun s => .next ((s.writeS d (linkOf s.cur.pc)).jump (s.branchTarget o))

/-- A jump to the code address in a scalar (R124). -/
def jumpTo (a : BitVec 7) (s : State) : Out :=
  issue { rd := [.s a 1] } s fun s => checkTarget s (s.readS a) fun s => .next (s.jump (s.readS a))

/-- RET (R124). -/
def execRet (a : BitVec 7) (s : State) : Out := jumpTo a s
/-- JMPI (R124). -/
def execJmpi (a : BitVec 7) (s : State) : Out := jumpTo a s

/-- NOP.W: no state changes (Table 5.3). -/
def execNopW (s : State) : Out := issue {} s fun s => .next s.retire

/-! ## Splits (R125 to R130) -/

/-- The lanes of the issuing split on path `p` of a SPLIT (R125). -/
def pathLanes (exec m1 m2 : Word) (p : Nat) : Word :=
  maskOf fun l => bitOf exec l && ((if bitOf m2 l then 2 else 0) + (if bitOf m1 l then 1 else 0) == p)

/-- The paths that some active lane holds, ascending; path 0 alone when no lane is active (R125). -/
def heldPaths (exec m1 m2 : Word) : List Nat :=
  if exec = 0#32 then [0] else (List.range 4).filter fun p => pathLanes exec m1 m2 p != 0#32

/-- The target of a path: its halfword of the inline dword, from the SPLIT on (R125). -/
def State.pathTarget (s : State) (p : Nat) : Word :=
  s.cur.pc + ((s.cur.dword.extractLsb' (16 * p) 16).signExtend 32 <<< 1)

/-- Target checks in order (R125, R64). -/
def checkTargets (s : State) : List Word → (State → Out) → Out
  | [], k => k s
  | t :: r, k => checkTarget s t fun s => checkTargets s r k

/-- The lowest split index of 0 to 3 that no runnable split holds (R126). -/
def freeIndex (l : List Split) : Nat := ((List.range 4).find? fun i => (findSplit i l).isNone).getD 0

/-- The children of a SPLIT put among the splits, in ascending path, each at the lowest free index (R125, R126). -/
def addChildren (mk : Nat → Nat → Split) (l : List Split) : List Nat → List Split
  | [] => l
  | p :: r => addChildren mk (putSplit (mk p (freeIndex l)) l) r

/-- SPLIT (R125, R126): the issuing split is suspended as the parent of a new set, and its active lanes go on as children. -/
def execSplit (j : BitVec 2) (b a : BitVec 7) (s : State) : Out :=
  issue { rd := [.s a 1, .s b 1] } s fun s =>
    let m1 := s.readS a
    let m2 := s.readS b
    let paths := heldPaths s.p.exec m1 m2
    checkTargets s (paths.map s.pathTarget) fun s =>
      if 4 < s.g.splits.length + paths.length ∨ 4 ≤ s.g.sets.length then .next (s.trap { cause := cSPLITLIM })
      else
        let s := s.txForbid
        let num := s.nextId
        let q := s.retire.p
        let mk : Nat → Nat → Split := fun p i =>
          let m := pathLanes s.p.exec m1 m2 p
          { q with idx := i, pc := s.pathTarget p, exec := m, member := m, set := some num, readyTime := s.clock
                   inClause := false, wait := .none, tx := none }
        .next { s with
          nextId := s.nextId + 1
          g := { s.g with splits := addChildren mk s.g.splits paths, sets := s.g.sets ++ [{ num := num, joinId := j, parent := q }] }
          p := { q with live := false } }

/-- A set looked at after a child has parked or ended (R127): with every live child parked it joins, and the parent goes on at the
header behind the JOIN; with no child left the parent ends too, and the set that it is a child of is looked at. A child that is itself
the suspended parent of a set is live and not parked. -/
def joinSets (clock : Nat) (last : Split) : Nat → Option Nat → Group → Group
  | 0, _, g => g
  | _, none, g => g
  | fuel + 1, some num, g =>
    match g.sets.find? fun e => e.num == num with
    | none => g
    | some e =>
      let kids := g.splits.filter fun q => q.set == some num
      let rest := g.splits.filter fun q => !(q.set == some num)
      let sets := g.sets.filter fun e => !(e.num == num)
      if sets.any fun f => f.parent.set == some num then g
      else
      match kids with
      | [] => joinSets clock last fuel e.parent.set { g with sets := sets }
      | k :: _ =>
        match k.wait with
        | .parked addr =>
          if kids.all Split.isParked then
            let m := kids.foldl (fun m q => m ||| q.exec) 0#32
            let parent : Split :=
              { e.parent with
                idx := freeIndex rest, live := true, pc := linkOf addr, exec := m &&& e.parent.member, y0 := [], y1 := []
                inClause := false, sp := last.sp, liveMask := last.liveMask, wait := .none, readyTime := clock
                ready := false, lastIssue := clock }
            { g with splits := putSplit parent rest, sets := sets }
          else g
        | _ => g

/-- What follows for the barriers, for WAITX and for a pre-emption when a group's splits have changed: a group arrives when each of
its splits that is not parked has arrived (R138, R398, R430). -/
def State.arrivals (s : State) (core slot : Nat) : State :=
  match s.group core slot with
  | none => s
  | some g =>
    match g.movers with
    | [] => s
    | q :: _ =>
      if !g.movers.all fun r => r.wait == q.wait then s.checkWaitx g.team
      else
        let add := fun (b : Barrier) => if b.arrived.contains (core, slot) then b else { b with arrived := b.arrived ++ [(core, slot)] }
        match q.wait with
        | .barTeam b => (s.modTeam g.team fun tm => { tm with bars := keyModify tm.bars b add }).checkBarriers g.team
        | .barClu b =>
          (s.modCluster (s.team g.team).cluster fun c => { c with bars := keyModify c.bars b add }).checkBarriers g.team
        | .barScope n key =>
          (s.modDev fun d => { d with
            scopeBars := d.scopeBars.map fun e => if e.1 = (g.ctx, dieOf core, n, key) then (e.1, add e.2) else e }).checkScopeBarriers
        | .waitx _ _ => s.checkWaitx g.team
        | .preempted => s.stopCheck core slot
        | _ => s

/-- The issuing split's set looked at, and what follows. -/
def State.setChanged (s : State) (last : Split) : State :=
  let core := s.g.core
  let slot := s.g.slot
  (s.modGroup core slot fun g => joinSets s.clock last 5 last.set g).arrivals core slot

/-- The address of another JOIN at which a child of a set is parked (R128). -/
def State.parkedElse (s : State) (set : Nat) : Option Word :=
  s.g.splits.findSome? fun q =>
    match q.wait with
    | .parked addr => if q.set = some set ∧ addr ≠ s.cur.pc then some addr else none
    | _ => none

/-- JOIN (R127, R128): the record of a mismatch names the other JOIN too, if there is one. -/
def execJoin (j : BitVec 2) (s : State) : Out :=
  issue {} s fun s =>
    match s.p.set.bind fun n => s.g.sets.find? fun e => e.num == n with
    | none => .next (s.trap { cause := cJOINMIS })
    | some e =>
      let other := s.parkedElse e.num
      if e.joinId ≠ j ∨ other.isSome then .next (s.trap { cause := cJOINMIS, infoA := other.getD 0#32 })
      else
        let s := (s.txForbid.goTo s.cur.pc).stall (.parked s.cur.pc)
        .next (s.setChanged s.p)

/-- EXIT (R124, R127): the split ends; the last one ends the group, after the commit of its region (R219). -/
def execExit (s : State) : Out :=
  issue {} s fun s =>
    if s.g.splits.isEmpty then atCommit s fun s => .next (s.retire.endGroup s.g.core s.g.slot)
    else
      let s := s.retire
      let last := s.p
      .next (({ s with p := { s.p with live := false } }).setChanged last)

/-! ## Yielding, sleeping, waiting (R131 to R133) -/

/-- A split that has yielded (R131). -/
def State.yielding (s : State) : State := { s with p := { s.p with yielded := true, readyTime := s.clock } }

/-- YIELD (R131). -/
def execYield (s : State) : Out := issue {} s fun s => .next s.retire.yielding

/-- SLEEP (R132): not ready for value(s) + n clk, counted from the clk after it issues; 0 acts as YIELD. -/
def execSleep (n : BitVec 6) (a : BitVec 7) (s : State) : Out :=
  issue { rd := [.s a 1] } s fun s =>
    let total := (s.readS a).toNat + n.toNat
    if total = 0 then .next s.retire.yielding
    else .next ((s.retire.stall (.sleep (s.clock + 1 + total))).after (1 + total) (.sleepExpiry s.g.core s.g.slot s.p.idx))

/-- WAITP (R133): it commits the region first when the region holds an engine command (R226), or an operation counted on P1 and
that is the path it waits for; then it waits until the counter is at or below the threshold, which 255 or more always is. -/
def execWaitp (p : BitVec 3) (a : BitVec 7) (s : State) : Out :=
  issue { rd := [.s a 1] } s fun s =>
    let n := (s.readS a).toNat
    let c := !s.g.region.held.isEmpty || (p == 1#3 && s.g.ops.any fun o => o.path == some 1 && o.inRegion)
    atCommitIf c s fun s =>
      if 255 ≤ n ∨ s.g.pathCount p.toNat ≤ n then .next s.retire else .next (s.retire.stall (.path p.toNat n))

/-! ## Gangs (R135) -/

/-- The role of a group by a card's role map (R134). -/
def Card.roleOf (c : Card) (gid : Nat) : BitVec 2 :=
  match c.roles.find? fun r => decide (r.1 ≤ gid ∧ gid ≤ r.2.1) with
  | some r => BitVec.ofNat 2 r.2.2
  | none => 2#2

/-- Whether a gang mask passes the checks of R135 for the issuing group. -/
def State.gangOk (s : State) (m : Word) : Bool :=
  let named := laneList.filter (bitOf m)
  !named.isEmpty && decide (named.length ≤ 6) && bitOf m s.g.gid && named.all (fun i => decide (i < s.myTeam.groups)) &&
    (decide (named.length ≤ 1) || (s.g.role == 1#2 && named.all fun i => s.myTeam.card.roleOf i == 1#2)) &&
    (s.g.role == 1#2 || s.g.role == 3#2)

/-- A checked write of sys.gang (R135). -/
def writeGang (m : Word) (s : State) : Out :=
  if s.gangOk m then .next ({ s with g := { s.g with sys := { s.g.sys with gang := m } } }).retire
  else .next (s.trap { cause := cGANGMIS, infoA := m })

/-- GANGSET (R135). -/
def execGangset (a : BitVec 7) (s : State) : Out := issue { rd := [.s a 1] } s fun s => writeGang (s.readS a) s

/-! ## Barriers (R138, R139), FENCE (R234), WAITX (R398), RCOMMIT (R219) -/

/-- A barrier in a new phase (Table 5.7). -/
def newBarrier (count cap : Nat) : Barrier := { expected := min count cap, auto := count == 0, arrived := [] }

/-- The issuing split waits at a barrier, its instruction complete, and its group arrives if it was the last (R138). -/
def State.arriveAt (s : State) (w : Wait) : Out :=
  .next ((s.retire.stall w).arrivals s.g.core s.g.slot)

/-- BAR.TEAM (R138). The first arrival of a phase, which fixes its count, is the BAR of its first split (log 60). -/
def execBarTeam (b : BitVec 4) (a : BitVec 7) (s : State) : Out :=
  issue { rd := [.s a 1] } s fun s => atCommit s fun s =>
    let k := b.toNat
    let v := (s.readS a).toNat
    (s.modTeam s.g.team fun tm =>
      if (keyFind tm.bars k).isSome then tm else { tm with bars := keyPut tm.bars k (newBarrier v tm.groups) }).arriveAt (.barTeam k)

/-- BAR.CLU (R138), whose first arrival is that of BAR.TEAM (log 60). -/
def execBarClu (b : BitVec 2) (a : BitVec 7) (s : State) : Out :=
  issue { rd := [.s a 1] } s fun s => atCommit s fun s =>
    let k := b.toNat
    let v := (s.readS a).toNat
    (s.modCluster s.myTeam.cluster fun c =>
      if (keyFind c.bars k).isSome then c
      else { c with bars := keyPut c.bars k (newBarrier v (c.teams.length * s.myTeam.groups)) }).arriveAt (.barClu k)

/-- The operations of the issuing group that are engine commands not yet complete, to agents within a scope (R234). -/
def State.commandsIn (s : State) (mask : BitVec 320) : List Nat :=
  (s.g.ops.filter fun o =>
    match o.command with
    | none => false
    | some c =>
      !o.done && (if c < 320 then mask.getLsbD c
        else mask.extractLsb' 0 160 != 0#160 && mask.extractLsb' 160 160 != 0#160)).map Async.id

/-- The mask of a scope as the issuing group names it, read at issue (R158, R233). -/
def State.myScope (s : State) (c : BitVec 5) : BitVec 320 := s.scopeMask s.g.ctx s.g.core s.g.team c.toNat

/-- The mask of a scope read at the issue of the instruction that names it, which it keeps over its commit (R158). -/
def State.noteScope (s : State) (c : BitVec 5) : State :=
  if s.p.stage = 0 then { s with p := { s.p with scope := s.myScope c } } else s

/-- FENCE (R234). -/
def execFence (c : BitVec 5) (s : State) : Out :=
  issue {} s fun s => atCommit (s.noteScope c) fun s =>
    let l := s.commandsIn s.p.scope
    if l.isEmpty then .next s.retire else .next (s.retire.stall (.fence l))

/-- BAR.SCOPE (R138): it commits, waits as FENCE does, and arrives; the first arrival of a phase fixes the count, and with it the groups
that a count of 0 stands for (Table 5.7). -/
def execBarScope (c : BitVec 5) (k a : BitVec 7) (s : State) : Out :=
  issue { rd := [.s a 1, .s k 1] } s fun s => atCommit (s.noteScope c) fun s =>
    let l := s.commandsIn s.p.scope
    if s.p.stage = 1 ∧ !l.isEmpty then .next { s with p := { s.p with stage := 2, wait := .fence l } }
    else
      let key := (s.readS k).toNat
      let id := (s.g.ctx, dieOf s.g.core, c.toNat, key)
      let v := (s.readS a).toNat
      (s.modDev fun d =>
        if d.scopeBars.any fun e => e.1 == id then d
        else
          let members := if v = 0 then s.scopeLive s.myTeam.grid (dieOf s.g.core) s.p.scope else []
          { d with scopeBars := d.scopeBars ++ [(id, { newBarrier v v with members := members })] }).arriveAt (.barScope c.toNat key)

/-- WAITX (R398). -/
def execWaitx (m : BitVec 4) (a : BitVec 7) (s : State) : Out :=
  issue { rd := [.s a 1] } s fun s => atCommit s fun s => s.arriveAt (.waitx m.toNat (s.readS a))

/-- RCOMMIT (R219). -/
def execRcommit (s : State) : Out := issue {} s fun s => atCommit s fun s => .next s.retire

end Sys2Proof.Machine
end

