-- ==== Sys2Proof/Machine/Global.lean ====
section
/-! DEFINITION. Sys2Proof/Machine/Global.lean: global loads, stores and atomics, prefetch, forward tags and transactions
(09_global_memory_and_order.md, R235 to R244), with the served accesses of mapped regions (R197). -/

namespace Sys2Proof.Machine

/-! ## Capacities (R220, R224, R242) -/

/-- The lines of a region's write set: stored lines and decremented cards' lines. -/
def Region.writeLines (r : Region) : List Nat := (r.stores.map Prod.fst ++ r.depdecs.map lineOf).eraseDups

/-- Whether lines added to a set bring it above its capacity. -/
def overfull (cap : Nat) (held new : List Nat) : Bool := decide (cap < held.length + (new.filter fun l => !held.contains l).length)

/-- The capacity commit before an access that would overfill its region (R224): the instruction begins the next region. -/
def State.capacityCommit (s : State) : State :=
  ({ s with g := { s.g with region := { s.g.region with committing := some s.p.idx, atIssue := s.cur } } }).after 190
    (.capacityCommit s.g.core s.g.slot)

/-! ## Reserved mode (R225) -/

/-- The lines that a region in reserved mode reads are reserved at their slices for 4,096 clk, each for itself where others have reserved
it too. -/
def State.reserve (s : State) (lines : List Nat) : State :=
  if s.g.region.reserved then
    lines.foldl (fun s l =>
      if s.dev.reservations.any fun r => r.1 == l && r.2.1 == s.g.core && r.2.2.1 == s.g.slot then s
      else (s.modDev fun d => { d with reservations := d.reservations ++ [(l, s.g.core, s.g.slot, s.clock + 4096)] }).after 4096
        (.reservationLapse l)) s
  else s

/-- RESERVATION_LAPSE (R225): 4,096 clk after it was made, a reservation is gone. -/
def execReservationLapse (line : Nat) (s : State) : Out :=
  .next (s.modDev fun d => { d with reservations := d.reservations.filter fun r => !(r.1 == line && decide (r.2.2.2 ≤ s.clock)) })

/-! ## Mapped regions (R197 to R199) -/

/-- The first line of a map that an access needs filled: the map, and the line in the region. -/
def State.unfilled (s : State) (l : List LaneAt) : Option (Nat × Nat) :=
  l.findSome? fun e =>
    match e.place with
    | .map m off =>
      match keyFind s.myTeam.maps m with
      | some r => if r.filled.contains ((off - r.off) / 128) then none else some (m, (off - r.off) / 128)
      | none => none
    | .pa _ _ => none

/-- The lanes whose store goes to a map that is armed read-only (R197). -/
def State.readOnlyLanes (s : State) (l : List LaneAt) : List Nat :=
  l.filterMap fun e =>
    match e.place with
    | .map m _ => if ((keyFind s.myTeam.maps m).map MapRegion.ro).getD false then some e.lane else none
    | .pa _ _ => none

/-- Whether a store goes to a line of a map whose write-back has begun and whose commit is still to be made (R199). -/
def State.awaitsWriteBack (s : State) (l : List LaneAt) : Bool :=
  l.any fun e =>
    match e.place with
    | .map m off => ((keyFind s.myTeam.maps m).map fun r => r.wb.contains ((off - r.off) / 128)).getD false
    | .pa _ _ => false

/-- A served store: the bytes, and the words it touches dirty (R197, R199). -/
def State.storeServed (s : State) (m off n v : Nat) : State :=
  let s := s.spadWrite s.g.core (s.myTeam.spbase + off) n v
  s.modTeam s.g.team fun tm =>
    { tm with maps := keyModify tm.maps m fun r =>
        { r with dirty := ((off - r.off) / 4 :: (List.range n).map fun i => (off - r.off + i) / 4).foldl
                            (fun d w => if d.contains w then d else w :: d) r.dirty } }

/-- A line to be filled: the map unit is asked, and the split waits; the fault that its fill has met is taken (R198). -/
def State.askFill (s : State) (m line : Nat) : State :=
  let va := ((keyFind s.myTeam.maps m).map fun r => r.va + 128 * line).getD 0
  match s.p.walkFault with
  | some f =>
    if f.acc = 4 ∧ f.page = 65536 * m + line then
      s.pageTrap { cause := f.cause, kind := f.kind, level := f.level } accR (BitVec.ofNat 80 va) none
    else (s.stall (.fill m line)).after 150 (.lineFill s.g.team m line)
  | none => (s.stall (.fill m line)).after 150 (.lineFill s.g.team m line)

/-! ## Transactions: recording (R241, R242) -/

/-- Whether lane `l` of the issuing split is recorded by a transaction: it is a member lane that has not aborted. -/
def Tx.records (x : Tx) (l : Nat) : Bool := bitOf x.lanes l && !bitOf x.aborted l

/-- A lane's record. -/
def Tx.lane (x : Tx) (l : Nat) : TxLane := (keyFind x.perLane l).getD {}

/-- A lane's record seen as a region. -/
def TxLane.asRegion (t : TxLane) : Region := { stores := t.stores, reads := t.reads }

/-- The distinct lines that a transaction has read, or written, over all lanes. -/
def Tx.lines (x : Tx) (reads : Bool) : List Nat :=
  (x.perLane.flatMap fun e => (if reads then e.2.reads else e.2.stores).map Prod.fst).eraseDups

/-- The transaction that an access records itself in: the open one, unless the instruction acts outside it (R241, R242). -/
def State.txFor (s : State) (inTx : Bool) : Option Tx := if inTx then s.g.tx else none

/-- Whether a lane's access of `n` bytes adds to what its transaction has read, or written: a load that takes every byte from its lane's own
stores reads no line (R220, R241). -/
def Tx.adds (x : Tx) (reads : Bool) (n : Nat) (e : LaneAt) : Bool :=
  x.records e.lane &&
    match e.place with
    | .pa pa _ => !(reads && (List.range n).all fun i => (lineEntry (x.lane e.lane).stores (lineOf pa)).has (pa % 128 + i))
    | .map _ _ => false

/-- Whether the places of an access of `n` bytes bring a transaction above its capacity (R242). -/
def Tx.overCapacity (x : Tx) (reads : Bool) (n : Nat) (l : List LaneAt) : Bool :=
  overfull (if reads then 64 else 32) (x.lines reads) (placeLines (l.filter (x.adds reads n)))

/-! ## LD.G and ST.G (R235) -/

/-- The value that a lane loads, and the state with the load noted: from a map, from its transaction's lane, or from the region
(R197, R220, R241). A lane that is no member of the open transaction is the region's, whether or not it has begun (log 70). -/
def State.loadLane (s : State) (n : Nat) (inTx : Bool) (e : LaneAt) : State × Nat :=
  match e.place with
  | .map _ off => (s, s.spadRead s.g.core (s.myTeam.spbase + off) n)
  | .pa pa t =>
    let outside := ({ s with g := { s.g with region := regionNote s s.g.region e.va pa n t } }, regionRead s.g.region s.phys pa n)
    match s.txFor inTx with
    | some x =>
      if x.records e.lane then
        let r := (x.lane e.lane).asRegion
        let r' := regionNote s r e.va pa n t
        ({ s with g := { s.g with tx := some { x with perLane := keyPut x.perLane e.lane { stores := r.stores, reads := r'.reads } } } },
          regionRead r s.phys pa n)
      else if bitOf x.lanes e.lane then (s, regionRead {} s.phys pa n)
      else outside
    | none => outside

/-- Every lane's load, in ascending lanes. -/
def State.loadLanes (s : State) (n : Nat) (inTx : Bool) : List LaneAt → State × List (Nat × Nat)
  | [] => (s, [])
  | e :: r =>
    let (s, v) := s.loadLane n inTx e
    let (s, l) := s.loadLanes n inTx r
    (s, (e.lane, v) :: l)

/-- A lane's store: into a map, its transaction's lane, or the store buffer (R197, R220, R241); an aborted lane's is discarded
(R242), and one that is no member is the region's (log 70). -/
def State.storeLane (s : State) (n : Nat) (inTx : Bool) (e : LaneAt) (v : Nat) : State :=
  match e.place with
  | .map m off => s.storeServed m off n v
  | .pa pa t =>
    let outside := { s with g := { s.g with region := regionWrite s.g.region s.g.ctx e.va pa n v t } }
    match s.txFor inTx with
    | some x =>
      if x.records e.lane then
        let r := regionWrite (x.lane e.lane).asRegion s.g.ctx e.va pa n v t
        { s with g := { s.g with tx := some { x with perLane := keyPut x.perLane e.lane { stores := r.stores, reads := r.reads } } } }
      else if bitOf x.lanes e.lane then s
      else outside
    | none => outside

/-- The places of an access as the region meets them: those that are neither served nor a transaction's lanes. -/
def State.regionPlaces (s : State) (inTx : Bool) (l : List LaneAt) : List LaneAt :=
  l.filter fun e =>
    (match e.place with | .map _ _ => false | .pa _ _ => true) &&
      (match s.txFor inTx with | some x => !bitOf x.lanes e.lane | none => true)

/-- A transaction that the access brings above its capacity aborts every lane with TXCAP (R242). -/
def State.txCap (s : State) (reads inTx : Bool) (n : Nat) (l : List LaneAt) : State :=
  match s.txFor inTx with
  | some x => if x.overCapacity reads n l then s.txAbortAll 10 else s
  | none => s

/-- The lines of a load reach their slices (R217, R218), and in reserved mode those that the region reads are reserved (R225). -/
def State.touchLines (s : State) (l : List LaneAt) (new : List Nat) : State :=
  ((placeLines l).foldl (fun s x => s.touchSlice ((streamingLines l).contains x) x) s).reserve new

/-- The lines from which a region's loads of these places take bytes that its store buffer does not hold (R220). -/
def State.newReads (s : State) (n : Nat) (l : List LaneAt) : List Nat :=
  (l.filterMap fun e =>
    match e.place with
    | .pa pa _ =>
      if (List.range n).all fun i => (lineEntry s.g.region.stores (lineOf pa)).has (pa % 128 + i) then none else some (lineOf pa)
    | .map _ _ => none).eraseDups

/-- A global load's effect at the places of its lanes: it waits for a fill or for an engine's write; it may make a capacity
commit; else it reads, and `k` goes on with the lane values. -/
def loadAt (n : Nat) (inTx : Bool) (l : List LaneAt) (s : State) (k : State → List (Nat × Nat) → Out) : Out :=
  match s.unfilled l with
  | some (m, line) => .next (s.askFill m line)
  | none =>
    match s.firstOwned (placeLines l) with
    | some line => .next (s.stall (.owned line))
    | none =>
      let s' := s.txCap true inTx n l
      let new := s'.newReads n (s'.regionPlaces inTx l)
      if overfull 128 (s'.g.region.reads.map Prod.fst) new then .next s'.capacityCommit
      else
        let (s', vals) := s'.loadLanes n inTx l
        k (s'.touchLines l new) vals

/-- A global store's effect at the places of its lanes: it waits for a fill, and for a line that is being written back (R198, R199). -/
def storeAt (n : Nat) (inTx : Bool) (val : Nat → Nat) (l : List LaneAt) (s : State) (k : State → Out) : Out :=
  match s.unfilled l with
  | some (m, line) => .next (s.askFill m line)
  | none =>
    if s.awaitsWriteBack l then .next (s.stall (.clock (s.clock + 8)))
    else
    let s' := s.txCap false inTx n l
    if overfull 64 s'.g.region.writeLines (placeLines (s'.regionPlaces inTx l)) then .next s'.capacityCommit
    else k (l.foldl (fun s e => s.storeLane n inTx e (val e.lane)) s')

/-- The agenda item that completes a load, a served store, or an access without lanes (R40). -/
def State.returnSoon (s : State) (clk id : Nat) : State := s.after clk (.globalLoadReturn s.g.core s.g.slot id)

/-- The addresses of the active lanes of an M-format or AT-format access. -/
def State.laneAddresses (s : State) (base : Dword) (a : BitVec 8) : List (Nat × Nat) :=
  s.active.map fun l => (l, (s.laneVa base a l).toNat)

/-- What the reads of a target callable come to. -/
inductive EvalRead where
  | ok (s : State) (l : List (Nat × Nat))
  | again (s : State)
  | fault (s : State) (va : Nat) (f : XFault)

/-- The reads of a target callable, lane by lane, as engine read commits (R376). -/
def State.evalReads (s : State) (n : Nat) : List (Nat × Nat) → EvalRead
  | [] => .ok s []
  | (l, va) :: r =>
    match s.engineAt s.g.core s.g.ctx va accR fun _ => false with
    | .again s => .again s
    | .fault s f => .fault s va f
    | .ok s pa =>
      match s.evalReads n r with
      | .ok s' t => .ok s' ((l, leNat ((span pa n).map s.phys)) :: t)
      | x => x

/-- LD.G on the evaluator (R376): it waits for its lines, and for its result. -/
def evalLoad (n : Nat) (lanes : List (Nat × Nat)) (w : List (Nat × Nat) → Writes) (s : State) : Out :=
  let bad := lanes.filter fun e => e.2 % n != 0
  if !bad.isEmpty then
    .next (s.trap { cause := cMISALIGN, lanes := some (laneMask (bad.map Prod.fst)), va := BitVec.ofNat 80 ((bad.head?.map Prod.snd).getD 0) })
  else
    match s.evalReads n lanes with
    | .again s => .next (s.stall (.clock (s.clock + 16)))
    | .fault s va f => .next (s.pageTrap f accR (BitVec.ofNat 80 va) none)
    | .ok s vals => .next ({ s with g := applyWrites s.g (w vals) }).retire

/-- LD.G (R235): counts on P0, writes its run asynchronously; in a target callable it is an engine's read (R376). -/
def execLdG (b : BitVec 7) (a d : BitVec 8) (z : BitVec 2) (s : State) : Out :=
  let f := addrFields s.p.mods
  let regs := if f.sub = 0 then dataRegs z else 1
  issue { rd := [.s b 2, offsetRegs s.p.mods a], wr := [.v d regs], path := some 0
          modx := { addr := .load z, addrReg := a } } s fun s =>
    let n := accessSize s.p.mods z
    let w := fun (s : State) (vals : List (Nat × Nat)) => s.loadWrites d regs s.p.exec (vals.map fun e => (e.1, extendSub f.sub f.sx e.2))
    if s.g.evaluates.isSome then evalLoad n (s.laneAddresses (s.readS64 b) a) (w s) s
    else
    withPlaces (if s.g.tx.isSome then accTx else accR) n false true (s.laneAddresses (s.readS64 b) a) s fun l =>
      loadAt n true l s fun s vals =>
        let from_ := s.inFlight l
        let s := s.popSources [a]
        let id := s.nextId
        .next ((s.startPath 0 (w s vals) (vdests d regs) [] (origin := from_)).returnSoon (if l.isEmpty then 1 else 190) id).retire

/-- ST.G (R235): counts on P1 until its region commits; a store whose lanes are all served completes by itself (R197). -/
def execStG (b : BitVec 7) (a d : BitVec 8) (z : BitVec 2) (s : State) : Out :=
  let f := addrFields s.p.mods
  let regs := if f.sub = 0 then dataRegs z else 1
  issue { rd := [.s b 2, offsetRegs s.p.mods a, .v d regs], path := some 1
          modx := { addr := .store z, addrReg := a } } s fun s =>
    let n := accessSize s.p.mods z
    withPlaces (if s.g.tx.isSome then accRW else accW) n false true (s.laneAddresses (s.readS64 b) a) s fun l =>
      let ro := s.readOnlyLanes l
      if !ro.isEmpty then .next (s.trap { cause := cSPBOUND, lanes := some (laneMask ro) })
      else
        storeAt n true (fun i => s.dataOf d regs i % 256 ^ n) l s fun s =>
          let s := s.popSources [a, d]
          let buffered := !(placeLines l).isEmpty
          let id := s.nextId
          let s := s.startPath 1 {} [] [] buffered
          .next (if buffered then s else s.returnSoon 22 id).retire

/-- LDFWD (R237): as LD.G of 32 bits; a line read on the consumer core that its tag names is dropped at the region's commit. -/
def execLdfwd (b : BitVec 7) (a d : BitVec 8) (s : State) : Out :=
  issue { rd := [.s b 2, offsetRegs s.p.mods a], wr := [.v d 1], path := some 0
          modx := { addr := .fwdLoad, addrReg := a } } s fun s =>
    withPlaces accR 4 false false (s.laneAddresses (s.readS64 b) a) s fun l =>
      loadAt 4 false l s.txForbid fun s vals =>
        let from_ := s.inFlight l
        let s := s.popSources [a]
        let id := s.nextId
        let w := s.loadWrites d 1 s.p.exec vals
        let mine := (placeLines l).filter fun line => s.dev.forwards.contains (line, s.g.core)
        let s := { s with g := { s.g with region := { s.g.region with
          drops := s.g.region.drops ++ mine.filter fun x => !s.g.region.drops.contains x } } }
        .next ((s.startPath 0 w (vdests d 1) [] (origin := from_)).returnSoon (if l.isEmpty then 1 else 190) id).retire

/-- STFWD (R237): as ST.G of 32 bits; its lines become forward-held for the core named in s(S + 2) at the region's commit. -/
def execStfwd (b : BitVec 7) (a d : BitVec 8) (s : State) : Out :=
  issue { rd := [.s b 3, offsetRegs s.p.mods a, .v d 1], path := some 1
          modx := { addr := .fwdStore, addrReg := a } } s fun s =>
    withPlaces accW 4 false false (s.laneAddresses (s.readS64 b) a) s fun l =>
      let consumer := field (s.readS (b + 2#7)) 8 0
      storeAt 4 false (fun i => s.dataOf d 1 i) l s.txForbid fun s =>
        let s := s.popSources [a, d]
        let buffered := !l.isEmpty
        let id := s.nextId
        let tags := if consumer < 320 then (placeLines l).map fun x => (x, consumer) else []
        let s := { s with g := { s.g with region := { s.g.region with
          forwards := (s.g.region.forwards.filter fun (t : Nat × Nat) => !(placeLines l).contains t.1) ++ tags } } }
        let s := s.startPath 1 {} [] [] buffered
        .next (if buffered then s else s.returnSoon 1 id).retire

/-! ## LDS, LDS64, STS, STS64, PREF (R236) -/

/-- The address of a scalar access: window 0 over the pair plus the offset, which wraps at 64 bits. -/
def State.scalarVa (s : State) (o b : BitVec 7) : Nat := (s.win 0 ++ (s.readS64 b + (s.readS o).setWidth 64)).toNat

/-- A scalar load of `n` bytes, on P0. -/
def scalarLoad (n : Nat) (o b d : BitVec 7) (s : State) : Out :=
  issue { rd := [.s b 2, .s o 1], wr := [.s d (n / 4)], path := some 0 } s fun s =>
    withPlaces accR n true false [(0, s.scalarVa o b)] s fun l =>
      loadAt n false l s.txForbid fun s vals =>
        let v := (vals.head?.map Prod.snd).getD 0
        let regs := (List.range (n / 4)).map fun i => (d.toNat + i, BitVec.ofNat 32 (v / 2 ^ (32 * i)))
        let id := s.nextId
        .next ((s.startPath 0 { s := regs } [] (regs.map Prod.fst) (origin := s.inFlight l)).returnSoon 190 id).retire

/-- LDS (R236). -/
def execLds (o b d : BitVec 7) (s : State) : Out := scalarLoad 4 o b d s
/-- LDS64 (R236). -/
def execLds64 (o b d : BitVec 7) (s : State) : Out := scalarLoad 8 o b d s

/-- A scalar store of `n` bytes, on P1. -/
def scalarStore (n : Nat) (o b a : BitVec 7) (s : State) : Out :=
  issue { rd := [.s b 2, .s o 1, .s a (n / 4)], path := some 1 } s fun s =>
    withPlaces accW n true false [(0, s.scalarVa o b)] s fun l =>
      let v := if n = 4 then (s.readS a).toNat else (s.readS64 a).toNat
      storeAt n false (fun _ => v) l s.txForbid fun s => .next (s.startPath 1 {} [] [] true).retire

/-- STS (R236). -/
def execSts (o b a : BitVec 7) (s : State) : Out := scalarStore 4 o b a s
/-- STS64 (R236). -/
def execSts64 (o b a : BitVec 7) (s : State) : Out := scalarStore 8 o b a s

/-- A prefetch (R236): the line at an address reaches its slice, by a translation that the core holds or by a walk, which stays; where the
translation fails it is dropped. -/
def State.prefetch (s : State) (va : Nat) : State :=
  match s.lookup va accR with
  | .hit pa t => s.touchSlice t.streaming (lineOf pa)
  | .fault _ => s
  | .miss =>
    match s.engineVa s.g.core s.g.ctx va accR with
    | (s, .leaf t _ _) => s.touchSlice t.streaming (lineOf (t.apply va))
    | (s, _) => s

/-- PREF (R236): it never faults, uses no path or flag and joins no set; of the level 1 that its hint names the model has no copies (log 58). -/
def execPref (o b h : BitVec 7) (s : State) : Out :=
  issue { rd := [.s b 2, .s o 1, .s h 1] } s fun s => .next (s.prefetch (s.scalarVa o b)).retire

/-! ## A load or an atomic in flight that fails (R409, R428) -/

/-- Whether a translation names the peer of a port. -/
def Tlb.ofPeer (t : Tlb) (port : Nat) : Bool := t.peer && nfield t.pa 54 52 == port

/-- A split back at an instruction of its own that is in flight and did not complete; it stays where it is when it has been split or joined since
(log 54). -/
def Split.backTo (q : Split) (f : IssuedAt) (pc : Word) (count : Nat) : Split :=
  if q.member = f.split.member ∧ q.set = f.split.set ∧ q.turn = none then
    { q with pc := pc, count := count, mods := {}, stage := 0, reply := none, kept := none, exec := f.split.exec, y0 := f.split.y0
             y1 := f.split.y1, inClause := f.split.inClause, seta := f.split.seta, setb := f.split.setb, wait := .none, ready := false }
  else q

/-- A LOAD OR ATOMIC IN FLIGHT FAILS at the places that `bad` selects (R409, R428): it is withdrawn, its split stands at it again, and its
group traps at it, unless a record of the group is pending; a target callable ends its job (R378). -/
def State.failOp (s : State) (bad : LaneAt → Bool) (cause : Nat) (infoA : Word) (core slot : Nat) (o : Async) (f : IssuedAt) : State :=
  match s.group core slot with
  | none => s
  | some g =>
    match g.evaluates with
    | some j => (s.focus core slot 0).endEvaluator j 2
    | none =>
      let (pc, count) := match f.split.mods.start with
        | some (pc, count, _) => (pc, count)
        | none => (f.issue.pc, f.split.count)
      let hit := f.places.filter bad
      let sub := if o.atomic.isSome then 4 else 0
      let s := s.modGroup core slot fun g =>
        { g with ops := creditOps [] (g.ops.filter fun x => x.id != o.id)
                 splits := g.splits.map fun q => if q.idx = f.split.idx then q.backTo f pc count else q }
      if g.trapped then s
      else
        let r : TrapRec :=
          { cause := cause, sub := sub, split := f.split.idx, nr := s.nonRestart g.team, pc := pc, ctx := g.ctx
            va := BitVec.ofNat 80 ((hit.head?.map LaneAt.va).getD 0), lanes := laneMask (hit.map LaneAt.lane), exec := f.split.exec
            infoA := infoA, action := defaultAction cause sub, tslot := (s.team g.team).tslot, team := g.team
            clock := BitVec.ofNat 64 s.clock, hwmval := g.sys.privhwm }
        (s.modGroup core slot fun g =>
          { g with trapped := true, skip := (f.issue.pc + BitVec.ofNat 32 f.issue.len, f.split.count + 1) }).sendTrap g r

/-- The same for every load and atomic in flight of a group, in issue order. -/
def State.failOps (s : State) (bad : LaneAt → Bool) (cause : Nat) (infoA : Word) (core slot : Nat) : State :=
  (((s.group core slot).map Group.ops).getD []).foldl (fun s o =>
    match o.origin with
    | some f => if !o.done && o.returned.isNone && f.places.any bad then s.failOp bad cause infoA core slot o f else s
    | none => s) s

/-- Whether a lane's place lies in the peer module of a port; whether it lies in a line. -/
def LaneAt.ofPeer (port : Nat) (e : LaneAt) : Bool := match e.place with | .pa _ t => t.ofPeer port | _ => false
def LaneAt.inLine (line : Nat) (e : LaneAt) : Bool := match e.place with | .pa pa _ => lineOf pa == line | _ => false

/-! ## ATOM.G and RED.G (R238 to R240) -/

/-- ATOM.G and RED.G: every check is made before the region commits; the operation is then on its way to the slice. -/
def atomG (op : Nat) (b : BitVec 5) (a d : BitVec 8) (s : State) : Out :=
  let f := addrFields s.p.mods
  let off := if f.a64 then 2 else 1
  let n := if op = 1 then 2 else 1
  let red := d == 0xEA#8
  let base := b.setWidth 7
  issue { rd := [.s base 2, .v a (off + n)], wr := [.v d 1], path := some (if red then 1 else 0)
          modx := { addr := .atomic (decide (10 ≤ op)), addrReg := a, addrData := n } } s fun s =>
    let size := accessSize s.p.mods 0#2
    withKeptPlaces accRW size (s.laneAddresses (s.readS64 base) a) s fun l s =>
      atCommit s fun s =>
        let v := fun i => (s.g.vreg (a.toNat + off) i).toNat
        let nx := fun i => (s.g.vreg (a.toNat + off + 1) i).toNat
        let lanes := l.filterMap fun e => match e.place with | .pa pa _ => some (e.lane, pa, v e.lane, nx e.lane) | .map _ _ => none
        let id := s.nextId
        let at_ : Atomic :=
          { op := op, size := size, lanes := lanes, dst := d.toNat, mask := s.p.exec, streaming := streamingLines l
            queues := if 0xF0 ≤ d.toNat then s.pushTargets (d.toNat - 0xF0) else [] }
        let s := s.startPath (if red then 1 else 0) {} (vdests d 1) [] false (some at_) none (s.inFlight l)
        .next (s.after 190 (.atomicCommit s.g.core s.g.slot id)).retire

/-- ATOM.G.XCHG (R238, Table 3.6). -/
def execAtomGXchg (b : BitVec 5) (a d : BitVec 8) (s : State) : Out := atomG 0 b a d s
/-- ATOM.G.CAS (R238, Table 3.6). -/
def execAtomGCas (b : BitVec 5) (a d : BitVec 8) (s : State) : Out := atomG 1 b a d s
/-- ATOM.G.IADD (R238, Table 3.6). -/
def execAtomGIadd (b : BitVec 5) (a d : BitVec 8) (s : State) : Out := atomG 2 b a d s
/-- ATOM.G.IMINI (R238, Table 3.6). -/
def execAtomGIminI (b : BitVec 5) (a d : BitVec 8) (s : State) : Out := atomG 3 b a d s
/-- ATOM.G.IMAXI (R238, Table 3.6). -/
def execAtomGImaxI (b : BitVec 5) (a d : BitVec 8) (s : State) : Out := atomG 4 b a d s
/-- ATOM.G.IMINN (R238, Table 3.6). -/
def execAtomGIminN (b : BitVec 5) (a d : BitVec 8) (s : State) : Out := atomG 5 b a d s
/-- ATOM.G.IMAXN (R238, Table 3.6). -/
def execAtomGImaxN (b : BitVec 5) (a d : BitVec 8) (s : State) : Out := atomG 6 b a d s
/-- ATOM.G.AND (R238, Table 3.6). -/
def execAtomGAnd (b : BitVec 5) (a d : BitVec 8) (s : State) : Out := atomG 7 b a d s
/-- ATOM.G.OR (R238, Table 3.6). -/
def execAtomGOr (b : BitVec 5) (a d : BitVec 8) (s : State) : Out := atomG 8 b a d s
/-- ATOM.G.XOR (R238, Table 3.6). -/
def execAtomGXor (b : BitVec 5) (a d : BitVec 8) (s : State) : Out := atomG 9 b a d s
/-- ATOM.G.FADD (R238, Table 3.6). -/
def execAtomGFadd (b : BitVec 5) (a d : BitVec 8) (s : State) : Out := atomG 10 b a d s
/-- ATOM.G.FMIN (R238, Table 3.6). -/
def execAtomGFmin (b : BitVec 5) (a d : BitVec 8) (s : State) : Out := atomG 11 b a d s
/-- ATOM.G.FMAX (R238, Table 3.6). -/
def execAtomGFmax (b : BitVec 5) (a d : BitVec 8) (s : State) : Out := atomG 12 b a d s
/-- RED.G.IADD (R238, Table 3.6). -/
def execRedGIadd (b : BitVec 5) (a : BitVec 8) (s : State) : Out := atomG 2 b a 0xEA#8 s
/-- RED.G.IMINI (R238, Table 3.6). -/
def execRedGIminI (b : BitVec 5) (a : BitVec 8) (s : State) : Out := atomG 3 b a 0xEA#8 s
/-- RED.G.IMAXI (R238, Table 3.6). -/
def execRedGImaxI (b : BitVec 5) (a : BitVec 8) (s : State) : Out := atomG 4 b a 0xEA#8 s
/-- RED.G.IMINN (R238, Table 3.6). -/
def execRedGIminN (b : BitVec 5) (a : BitVec 8) (s : State) : Out := atomG 5 b a 0xEA#8 s
/-- RED.G.IMAXN (R238, Table 3.6). -/
def execRedGImaxN (b : BitVec 5) (a : BitVec 8) (s : State) : Out := atomG 6 b a 0xEA#8 s
/-- RED.G.AND (R238, Table 3.6). -/
def execRedGAnd (b : BitVec 5) (a : BitVec 8) (s : State) : Out := atomG 7 b a 0xEA#8 s
/-- RED.G.OR (R238, Table 3.6). -/
def execRedGOr (b : BitVec 5) (a : BitVec 8) (s : State) : Out := atomG 8 b a 0xEA#8 s
/-- RED.G.XOR (R238, Table 3.6). -/
def execRedGXor (b : BitVec 5) (a : BitVec 8) (s : State) : Out := atomG 9 b a 0xEA#8 s
/-- RED.G.FADD (R238, Table 3.6). -/
def execRedGFadd (b : BitVec 5) (a : BitVec 8) (s : State) : Out := atomG 10 b a 0xEA#8 s
/-- RED.G.FMIN (R238, Table 3.6). -/
def execRedGFmin (b : BitVec 5) (a : BitVec 8) (s : State) : Out := atomG 11 b a 0xEA#8 s
/-- RED.G.FMAX (R238, Table 3.6). -/
def execRedGFmax (b : BitVec 5) (a : BitVec 8) (s : State) : Out := atomG 12 b a 0xEA#8 s

/-- The addresses of an atomic with the lanes that present each, in ascending lanes (R239). -/
def Atomic.runs (a : Atomic) : List (Nat × List (Nat × Nat × Nat)) :=
  (a.lanes.map fun e => e.2.1).eraseDups.map fun pa =>
    (pa, (a.lanes.filter fun e => e.2.1 == pa).map fun e => (e.1, e.2.2.1, e.2.2.2))

/-- Every address of an atomic updated at its slice: memory, the old values by lane, the flags. -/
def Atomic.applyTo (a : Atomic) (rd : Nat → Nat) : List (Nat × Nat) × List (Nat × Nat) × FFlags :=
  a.runs.foldl (fun st e =>
    let (olds, last, fl) := aggregate a.op (8 * a.size) (rd e.1) e.2
    (st.1 ++ [(e.1, last)], st.2.1 ++ olds, st.2.2 ||| fl)) ([], [], 0#5)

/-- ATOMIC_COMMIT (R228, R238): one commit of all its addresses when the slices apply it; it waits for lines that an engine owns
(R230) or that another group has reserved (R225), and is MEMERR at a poisoned one (R428). RED.G completes with it; ATOM.G when its old values have come back. -/
def execAtomicCommit (core slot op : Nat) (s : State) : Out :=
  match (s.group core slot).bind fun g => (g.op op).bind fun o => o.atomic.map fun a => (g, o, a) with
  | none => .next s
  | some (_, o, a) =>
    let lines := (a.lanes.map fun e => lineOf e.2.1).eraseDups
    let lost := fun (e : LaneAt) => match e.place with | .pa pa _ => s.dev.poisoned.contains (lineOf pa) | .map _ _ => false
    match o.origin.filter fun f => f.places.any lost with
    | some f => .next (s.failOp lost cMEMERR 0#32 core slot o f)
    | none =>
    if lines.any fun l => s.ownedLine l || s.reservedElse core slot l then .next (s.after 20 (.atomicCommit core slot op))
    else
      let (news, olds, fl) := a.applyTo fun pa => leNat ((span pa a.size).map s.phys)
      let s := lines.foldl (fun s x => s.touchSlice (a.streaming.contains x) x) s
      let s := news.foldl (fun s e => s.commitBytes e.1 (leBytes a.size e.2)) s
      let w : Writes :=
        { v := if a.dst < 232 then [(a.dst, a.mask, olds.foldl (fun st e => storeWrite st e.1 (BitVec.ofNat 32 e.2)) [])] else []
          q := a.queues.map fun q => (q, olds.foldl (fun st e => storeWrite st e.1 (BitVec.ofNat 32 e.2)) [])
          fl := fl }
      let s := s.modGroup core slot fun g => g.modOp op fun o => { o with atomic := none, writes := w }
      if o.path = some 1 then .next (s.finishOp core slot op w) else .next (s.after 20 (.globalLoadReturn core slot op))

/-! ## Transactions (R241 to R244) -/

/-- TXBEGIN (R241): the region commits and a transaction opens on the active lanes; inside one it has no effect. -/
def execTxbegin (s : State) : Out :=
  issue {} s fun s =>
    if s.g.tx.isSome then .next s.retire
    else commitThen s fun s =>
      .next ({ s with nextId := s.nextId + 1, g := { s.g with tx := some { num := s.nextId, lanes := s.p.exec } }
                      p := { s.p with tx := some s.nextId } }).retire

/-- TXABORT (R243): the active member lanes abort with cause EXPLICIT, and the code is recorded; the cause's bit is set even when no member lane
is active (log 70). -/
def execTxabort (n : BitVec 6) (s : State) : Out :=
  issue {} s fun s =>
    .next ({ s with g := { s.g with tx := s.g.tx.map fun (x : Tx) =>
      let x := x.abort s.p.exec 11
      { x with cause := (x.cause &&& ~~~63#32) ||| n.setWidth 32 } } }).retire

/-- Whether two lanes' records share a line that at least one of them wrote (R244). -/
def TxLane.conflicts (a b : TxLane) : Bool :=
  let ar := a.reads.map Prod.fst
  let aw := a.stores.map Prod.fst
  let br := b.reads.map Prod.fst
  let bw := b.stores.map Prod.fst
  aw.any (fun l => bw.contains l || br.contains l) || ar.any fun l => bw.contains l

/-- The close of a transaction (R244): conflicts in ascending lanes, then the reads of the survivors. -/
def Tx.close (x : Tx) (s : State) : Tx :=
  let x := laneList.foldl (fun x l =>
    if x.records l && laneList.any fun k => decide (k < l) && x.records k && (x.lane k).conflicts (x.lane l)
    then x.abort (laneBit l) 8 else x) x
  laneList.foldl (fun x l => if x.records l && !((x.lane l).reads.all (validLine s)) then x.abort (laneBit l) 9 else x) x

/-- The results of TXEND as an asynchronous write of s(S1) and s(S1 + 1) (R244); exec takes the mask at once. -/
def State.txResult (s : State) (d : BitVec 7) (aborted cause : Word) : State :=
  if d.toNat < 124 then
    let regs := (d.toNat, aborted) :: (if d.toNat < 123 then [(d.toNat + 1, cause)] else [])
    let id := s.nextId
    (s.addOp { id := 0, flag := none, path := none, sdst := regs.map Prod.fst, writes := { s := regs } }).after 8
      (.flagOperationComplete s.g.core s.g.slot id)
  else s.writeS d aborted

/-- A poisoned line that a transaction would write, or has read (R428). -/
def State.poisonedTx (s : State) (x : Tx) : Bool := (x.lines false ++ x.lines true).any s.dev.poisoned.contains

/-- TXEND (R244): by the split that opened it, a transaction closes and the writes of its surviving lanes are published in one
commit; else it is a commit point, and with no transaction open it writes 0. -/
def execTxend (d : BitVec 7) (s : State) : Out :=
  issue { wr := [.s d (if d.toNat < 123 then 2 else 1)] } s fun s =>
    match s.g.tx with
    | none => atCommit s fun s => .next (s.txResult d 0#32 0#32).retire
    | some x =>
      if s.p.tx ≠ some x.num then atCommit s fun s => .next s.retire
      else if s.p.stage = 0 ∧ s.poisonedTx x then .next (s.trap { cause := cMEMERR, sub := 4 })
      else commitThen s fun s =>
        if s.poisonedTx x then .next (s.trap { cause := cMEMERR, sub := 4 })
        else
        let y := x.close s
        let lines := (y.lines false).eraseDups
        match lines.find? fun l => s.ownedLine l || s.reservedElse s.g.core s.g.slot l with
        | some l => .next (s.holdAct (.owned l))
        | none =>
          let live := y.perLane.filter fun e => y.records e.1
          let s := live.foldl (fun s e => e.2.stores.foldl (fun s e => s.publish false e) s) s
          let s := { s with p := { s.p with tx := none }, g := { s.g with
            tx := none, ops := creditOps [] (s.g.ops.map fun (o : Async) => if o.path = some 1 ∧ o.inRegion then { o with done := true } else o) } }
          .next (s.txResult d y.aborted y.cause).retire

end Sys2Proof.Machine
end

