-- ==== Sys2Proof/Machine/Scratch.lean ====
section
/-! DEFINITION. Sys2Proof/Machine/Scratch.lean: the scratchpad (08_scratchpad_and_carding.md, R184 to R200): bounds, SPLD, SPST and
SPAT, peer accesses, and mapped regions. -/

namespace Sys2Proof.Machine

/-! ## Bounds (R185, R186) -/

/-- Whether two ranges share a byte. -/
def rangesMeet (a n b m : Nat) : Bool := decide (a < b + m) && decide (b < a + n) && decide (0 < n) && decide (0 < m)

/-- Whether a range of a team's allocation meets a claimed carding table, or a mapped region whose SPMAP has issued (R186). -/
def Team.guarded (tm : Team) (off n : Nat) : Bool :=
  tm.tables.any (fun e => e.2.claimed && rangesMeet off n e.2.off e.2.size) ||
    tm.maps.any (fun e => rangesMeet off n e.2.off e.2.size)

/-- Whether a range lies in a team's allocation and outside what is guarded (R186). -/
def Team.inBounds (tm : Team) (off n : Nat) : Bool := decide (off + n ≤ tm.spsize) && !tm.guarded off n

/-- The team that a peer selector names for the issuing group (R185); none where it names no position of the cluster. -/
def State.peerTeam (s : State) (sel : Nat) : Option Nat :=
  if sel = 0 then some s.g.team
  else
    match s.clusterOf s.g.team with
    | some c => if sel ≤ c.w * c.h then c.teams[sel - 1]? else none
    | none => none

/-- The team and the offset that a scratchpad address of `n` bytes names; none out of bounds (R185, R186). -/
def State.spPlace (s : State) (e n : Nat) : Option (Nat × Nat) :=
  if 2 ^ 24 ≤ e then none
  else
    match s.peerTeam (e / 2 ^ 20) with
    | some t => if (s.team t).inBounds (e % 2 ^ 20) n then some (t, e % 2 ^ 20) else none
    | none => none

/-- Whether an offset of the issuing team's own allocation is in bounds for `n` bytes: the checks of descriptors (R186). -/
def State.ownBounds (s : State) (off n : Nat) : Bool := decide (off < 2 ^ 20) && s.myTeam.inBounds off n

/-- The checks of R187 and R188: the lanes in bounds go on, with the mask of the lanes that lenient mode switches off. -/
def withSpad (n : Nat) (ea : Lanes64) (s : State) (k : List SpLane → Word → Out) : Out :=
  let places := s.active.map fun l => (l, s.spPlace (ea l).toNat n)
  let bad := (places.filter fun e => e.2.isNone).map Prod.fst
  let good := places.filterMap fun e => e.2.map fun (p : Nat × Nat) => ({ lane := e.1, team := p.1, off := p.2 } : SpLane)
  let crooked := (good.filter fun e => e.off % n != 0).map SpLane.lane
  if !bad.isEmpty && !s.g.sys.mode.getLsbD 1 then .next (s.trap { cause := cSPBOUND, lanes := some (laneMask bad) })
  else if !crooked.isEmpty then .next (s.trap { cause := cMISALIGN, lanes := some (laneMask crooked) })
  else k good (laneMask bad)

/-- The same of an access that may be a commit point (R194, R219): the checks are made at issue, and it goes on with what they found after
its commit. -/
def withKeptSpad (n : Nat) (ea : Lanes64) (s : State) (k : List SpLane → Word → State → Out) : Out :=
  match s.p.kept with
  | some (.lanes l off) => k l off s
  | _ => withSpad n ea s fun l off => k l off { s with p := { s.p with kept := some (.lanes l off) } }

/-- The lanes switched off are cleared from exec and recorded (R188). -/
def State.switchOff (s : State) (m : Word) : State :=
  if m = 0#32 then s
  else { s with p := { s.p with exec := s.p.exec &&& ~~~m }
                g := { s.g with sys := { s.g.sys with faultmask := s.g.sys.faultmask ||| m } } }

/-- The core of a team with the offset of its allocation there. -/
def State.spadAt (s : State) (t off : Nat) : Nat × Nat := ((s.team t).core, (s.team t).spbase + off)

/-- Whether an access goes to another core than the issuing one. -/
def State.isPeer (s : State) (e : SpLane) : Bool := (s.team e.team).core != s.g.core

/-! ## The actions on a scratchpad, in ascending lanes (R191) -/

/-- Stores of `n` bytes: offset and value by lane. -/
def State.spStores (s : State) (t n : Nat) (l : List (Nat × Nat × Nat × Nat)) : State :=
  l.foldl (fun s e => let (c, a) := s.spadAt t e.2.1; s.spadWrite c a n e.2.2.1) s

/-- Loads of `n` bytes. -/
def State.spLoads (s : State) (t n : Nat) (l : List (Nat × Nat × Nat × Nat)) : List (Nat × Nat) :=
  l.map fun e => let (c, a) := s.spadAt t e.2.1; (e.1, s.spadRead c a n)

/-- Operations of Table 3.6: each lane sees what the lanes below it left; old values and flags (R190, R191). -/
def State.spAtomics (s : State) (t op n : Nat) : List (Nat × Nat × Nat × Nat) → State × List (Nat × Nat) × FFlags
  | [] => (s, [], 0#5)
  | e :: r =>
    let (c, a) := s.spadAt t e.2.1
    let old := s.spadRead c a n
    let (new, fl) := atomStep op (8 * n) old e.2.2.1 e.2.2.2
    let (s', olds, fl') := (s.spadWrite c a n new).spAtomics t op n r
    (s', (e.1, old) :: olds, fl ||| fl')

/-- Writes of two parts of one instruction joined. -/
def Writes.join (a b : Writes) : Writes :=
  { v := a.v ++ b.v
    q := match a.q, b.q with
      | [], q => q
      | q, [] => q
      | (k, x) :: r, (_, y) :: _ => ((k, x) :: r).map fun e => (e.1, y.foldl (fun st w => storeWrite st w.1 w.2) e.2)
    s := a.s ++ b.s
    fl := a.fl ||| b.fl }

/-- The time of a peer access: 110 clk and 6 clk a hop of the mesh (Table 8.6). -/
def hops (a b : Nat) : Nat :=
  let d := fun (x y : Nat) => (x - y) + (y - x)
  d (a % 16) (b % 16) + d (a % 160 / 16) (b % 160 / 16)

/-- Accesses to peers sent, one message to each core, for operation `op` of the issuing group (R194). -/
def State.sendPeers (s : State) (op kind code n dst : Nat) (l : List SpLane) (data : Nat → Nat × Nat) : State :=
  ((l.map SpLane.team).eraseDups).foldl (fun s t =>
    let m : PeerAccess :=
      { team := t, core := s.g.core, slot := s.g.slot, op := op, kind := kind, code := code, size := n, dst := dst
        mask := laneMask ((l.filter fun e => e.team == t).map SpLane.lane), ctx := s.g.ctx
        queues := if kind ≠ 0 ∧ 0xF0 ≤ dst then s.pushTargets (dst - 0xF0) else []
        lanes := (l.filter fun e => e.team == t).map fun e => (e.lane, e.off, (data e.lane).1, (data e.lane).2) }
    let id := s.nextId
    let s := { s with nextId := id + 1 }.modDev fun d => { d with peers := keyPut d.peers id m }
    s.after (55 + 3 * hops s.g.core (s.team t).core) (.peerScratchpadAccess id)) s

/-- A flag-class scratchpad access that has acted on its own core: it completes after `clk`, or when its peers have answered. -/
def State.spIssue (s : State) (clk kind code n : Nat) (d : BitVec 8) (regs : Nat) (w : Writes) (peers : List SpLane)
    (data : Nat → Nat × Nat) : State :=
  if peers.isEmpty then s.startFlag clk w (if kind = 0 then [] else vdests d regs) []
  else
    let id := s.nextId
    let s := s.addOp { id := 0, flag := s.flagTarget, path := none, vdst := if kind = 0 then [] else vdests d regs, writes := w }
    s.sendPeers id kind code n d.toNat peers data

/-- The scratchpad addresses of the lanes (R189). -/
def State.spadAddr (s : State) (b : BitVec 7) (a : BitVec 8) : Lanes64 := s.laneOffset (s.readS64 b) a

/-- SPLD (R189): the values are read at issue, in scratchpad order. -/
def execSpld (b : BitVec 7) (a d : BitVec 8) (z : BitVec 2) (s : State) : Out :=
  let f := addrFields s.p.mods
  let regs := if f.sub = 0 then dataRegs z else 1
  issue { rd := [.s b 2, .v a 1], wr := [.v d regs], modx := { addr := .spLoad z, addrReg := a, flag := true } } s fun s =>
    let n := accessSize s.p.mods z
    withSpad n (s.spadAddr b a) s fun l off =>
      let s := (s.popSources [a]).switchOff off
      let mine := l.filter fun e => !s.isPeer e
      let vals := s.spLoads s.g.team n (mine.map fun e => (e.lane, e.off, 0, 0))
      let w := s.loadWrites d regs (laneMask (mine.map SpLane.lane)) (vals.map fun e => (e.1, extendSub f.sub f.sx e.2))
      .next (s.spIssue 18 1 (f.sub + if f.sx then 4 else 0) n d regs w (l.filter s.isPeer) fun _ => (0, 0)).retire

/-- SPST (R189): the bytes are written at issue; to a peer, after the region's commit (R194). -/
def execSpst (b : BitVec 7) (a d : BitVec 8) (z : BitVec 2) (s : State) : Out :=
  let f := addrFields s.p.mods
  let regs := if f.sub = 0 then dataRegs z else 1
  issue { rd := [.s b 2, .v a 1, .v d regs], modx := { addr := .spStore z, addrReg := a, flag := true } } s fun s =>
    let n := accessSize s.p.mods z
    withKeptSpad n (s.spadAddr b a) s fun l off s =>
      atCommitIf (l.any s.isPeer) (s.takeSources [a, d]) fun s =>
        let data := fun i => s.dataOf d regs i
        let mine := l.filter fun e => !s.isPeer e
        let s' := ((s.spStores s.g.team n (mine.map fun e => (e.lane, e.off, data e.lane, 0))).popSources [a, d]).switchOff off
        .next (s'.spIssue 18 0 0 n d regs {} (l.filter s.isPeer) fun i => (data i, 0)).retire

/-- SPAT (R190): on 32-bit locations, or 8-bit and 16-bit ones under SUB. -/
def spat (op : Nat) (b : BitVec 5) (a d : BitVec 8) (s : State) : Out :=
  let cnt := if op = 1 then 2 else 1
  let base := b.setWidth 7
  let f := addrFields s.p.mods
  let off := if f.a64 then 2 else 1
  issue { rd := [.s base 2, .v a (off + cnt)], wr := [.v d 1]
          modx := { addr := .spAtomic (decide (10 ≤ op)), addrReg := a, addrData := cnt, flag := true } } s fun s =>
    let n := accessSize s.p.mods 0#2
    withKeptSpad n (s.spadAddr base a) s fun l sw s =>
      atCommitIf (l.any s.isPeer) s fun s =>
        let data := fun i => ((s.g.vreg (a.toNat + off) i).toNat, (s.g.vreg (a.toNat + off + 1) i).toNat)
        let mine := l.filter fun e => !s.isPeer e
        let (s', olds, fl) := s.spAtomics s.g.team op n (mine.map fun e => (e.lane, e.off, (data e.lane).1, (data e.lane).2))
        let s' := s'.switchOff sw
        let w := { s'.loadWrites d 1 (laneMask (mine.map SpLane.lane)) olds with fl := fl }
        .next (s'.spIssue 24 2 op n d 1 w (l.filter s.isPeer) data).retire

/-- SPAT.XCHG (R190, Table 3.6). -/
def execSpatXchg (b : BitVec 5) (a d : BitVec 8) (s : State) : Out := spat 0 b a d s
/-- SPAT.CAS (R190, Table 3.6). -/
def execSpatCas (b : BitVec 5) (a d : BitVec 8) (s : State) : Out := spat 1 b a d s
/-- SPAT.IADD (R190, Table 3.6). -/
def execSpatIadd (b : BitVec 5) (a d : BitVec 8) (s : State) : Out := spat 2 b a d s
/-- SPAT.IMINI (R190, Table 3.6). -/
def execSpatIminI (b : BitVec 5) (a d : BitVec 8) (s : State) : Out := spat 3 b a d s
/-- SPAT.IMAXI (R190, Table 3.6). -/
def execSpatImaxI (b : BitVec 5) (a d : BitVec 8) (s : State) : Out := spat 4 b a d s
/-- SPAT.IMINN (R190, Table 3.6). -/
def execSpatIminN (b : BitVec 5) (a d : BitVec 8) (s : State) : Out := spat 5 b a d s
/-- SPAT.IMAXN (R190, Table 3.6). -/
def execSpatImaxN (b : BitVec 5) (a d : BitVec 8) (s : State) : Out := spat 6 b a d s
/-- SPAT.AND (R190, Table 3.6). -/
def execSpatAnd (b : BitVec 5) (a d : BitVec 8) (s : State) : Out := spat 7 b a d s
/-- SPAT.OR (R190, Table 3.6). -/
def execSpatOr (b : BitVec 5) (a d : BitVec 8) (s : State) : Out := spat 8 b a d s
/-- SPAT.XOR (R190, Table 3.6). -/
def execSpatXor (b : BitVec 5) (a d : BitVec 8) (s : State) : Out := spat 9 b a d s
/-- SPAT.FADD (R190, Table 3.6). -/
def execSpatFadd (b : BitVec 5) (a d : BitVec 8) (s : State) : Out := spat 10 b a d s
/-- SPAT.FMIN (R190, Table 3.6). -/
def execSpatFmin (b : BitVec 5) (a d : BitVec 8) (s : State) : Out := spat 11 b a d s
/-- SPAT.FMAX (R190, Table 3.6). -/
def execSpatFmax (b : BitVec 5) (a d : BitVec 8) (s : State) : Out := spat 12 b a d s

/-! ## Peer accesses (R194) -/

/-- The registers that a peer access writes for its lanes, as the issuing group names them: values by lane (R41). -/
def PeerAccess.registerWrites (m : PeerAccess) (vals : List (Nat × Nat)) (fl : FFlags) : Writes :=
  let n := max 1 (m.size / 4)
  let row := fun i => vals.foldl (fun st (e : Nat × Nat) => storeWrite st e.1 (BitVec.ofNat 32 (e.2 / 2 ^ (32 * i)))) ([] : Store 32)
  if m.kind = 0 then { fl := fl }
  else if m.dst < 232 then { v := (List.range n).map fun i => (m.dst + i, m.mask, row i), fl := fl }
  else { q := m.queues.map fun q => (q, row 0), fl := fl }

/-- PEER_SCRATCHPAD_ACCESS (R194): a peer access takes its place in the target's scratchpad order, after those that its group sent to
the same core before it; with the last of them the instruction completes. A team that has gone is not touched, and what its bytes would read is free (log 35). -/
def execPeerScratchpadAccess (msg : Nat) (s : State) : Out :=
  match keyFind s.dev.peers msg with
  | none => .next s
  | some m =>
    let before := s.dev.peers.any fun e => decide (e.1 < msg) && e.2.core == m.core && e.2.slot == m.slot && e.2.team == m.team
    if before then .next (s.after 1 (.peerScratchpadAccess msg))
    else
      let s := s.modDev fun d => { d with peers := keyDrop d.peers msg }
      let there := (keyFind s.dev.teams m.team).isSome
      let (s, vals, fl) :=
        if !there then
          ({ s with nextId := s.nextId + 1 }, m.lanes.map (fun e =>
            (e.1, leNat ((List.range m.size).map fun i => Config.freeByte (256 * s.nextId + 8 * e.1 + i)))), (0#5 : FFlags))
        else match m.kind with
          | 0 => (s.spStores m.team m.size m.lanes, [], 0#5)
          | 1 => (s, (s.spLoads m.team m.size m.lanes).map fun e => (e.1, extendSub (m.code % 4) (m.code / 4 == 1) e.2), 0#5)
          | _ => s.spAtomics m.team m.code m.size m.lanes
      let w := m.registerWrites vals fl
      let s := s.modGroup m.core m.slot fun g => g.modOp m.op fun o => { o with writes := o.writes.join w }
      if s.dev.peers.any fun e => e.2.op == m.op && e.2.core == m.core && e.2.slot == m.slot then .next s
      else .next (s.after (55 + 3 * hops m.core (s.team m.team).core) (.flagOperationComplete m.core m.slot m.op))

/-! ## Mapped regions (R195 to R200) -/

/-- The tables claimed, or being claimed, on a core (R201), and the number of its armed maps (R196). -/
def State.coreTables (s : State) (core : Nat) : List CardTable :=
  (s.dev.teams.filter fun e => e.2.core == core).flatMap fun (e : Nat × Team) => e.2.tables.map Prod.snd
def State.coreMaps (s : State) (core : Nat) : Nat :=
  ((s.dev.teams.filter fun e => e.2.core == core).map fun (e : Nat × Team) => e.2.maps.length).foldl (fun a b => a + b) 0

/-- SPMAP (R196): the region is armed at issue and serves from completion. -/
def execSpmap (size va ctl : BitVec 7) (s : State) : Out :=
  issue { rd := [.s ctl 1, .s va 2, .s size 1], modx := { flag := true } } s fun s =>
    let c := s.readS ctl
    let m := field c 1 0
    let off := field c 31 12 * 4096
    let n := (s.readS size).toNat * 4096
    let tm := s.myTeam
    let bad := (s.readS64 va).toNat % 128 != 0 || n == 0 || decide (64 * 4096 < n) || field c 11 7 != 0 ||
      decide (tm.spsize < off + n) || tm.tables.any (fun e => rangesMeet off n e.2.off e.2.size) ||
      tm.maps.any (fun e => rangesMeet off n e.2.off e.2.size) || (keyFind tm.maps m).isSome || decide (8 ≤ s.coreMaps s.g.core)
    if bad then
      .next (s.trap { cause := cSPBOUND, lanes := some 0#32 })
    else
      let r : MapRegion :=
        { off := off, size := n, va := (s.win (field c 6 4)).toNat * 2 ^ 64 + (s.readS64 va).toNat, ro := c.getLsbD 3
          nofill := c.getLsbD 2 }
      let s := s.modTeam s.g.team fun tm => { tm with maps := keyPut tm.maps m r }
      .next (s.startFlag 16 {} [] [] (some (.serve m))).retire

/-- A write-back of a map begins: the lines that hold a dirty word are to be committed (R199). -/
def MapRegion.startWb (r : MapRegion) : MapRegion := { r with wb := (r.wb ++ r.dirty.map fun w => w / 32).eraseDups }

/-- SPWB and SPUNMAP begin, after the commit (R199, R200). Of a map that is not armed, SPUNMAP too completes with no effect; the bits of S1 that
no map names are ignored (log 66). -/
def writeBackMap (unmap : Bool) (a : BitVec 7) (s : State) : Out :=
  issue { rd := [.s a 1], modx := { flag := true } } s fun s =>
    atCommit s fun s =>
      let m := field (s.readS a) 1 0
      let s := s.modTeam s.g.team fun tm =>
        { tm with maps := keyModify tm.maps m fun r => if unmap then { r.startWb with closing := true, serving := false } else r.startWb }
      let lines := ((keyFind s.myTeam.maps m).map fun r => r.dirty.length).getD 0
      .next (s.startFlag (8 + 8 * lines) {} [] [] (some (.writeBack m unmap s.p.idx s.cur.pc))).retire

/-- SPUNMAP (R200). -/
def execSpunmap (m : BitVec 7) (s : State) : Out := writeBackMap true m s

/-- SPWB (R199). -/
def execSpwb (m : BitVec 7) (s : State) : Out := writeBackMap false m s

/-- The dirty words of a line of a map, by word of the line. -/
def MapRegion.dirtyOf (r : MapRegion) (line : Nat) : List Nat :=
  ((r.dirty.filter fun w => w / 32 == line).map fun w => w % 32)

/-- The lowest line of a map whose write-back is still to come. -/
def MapRegion.nextWb (r : MapRegion) : Option Nat :=
  r.wb.foldl (fun m l => match m with | none => some l | some k => some (min k l)) none

/-- Whether a fault of a map's fill or write-back waits for its answer (R198). -/
def State.mapFaulted (s : State) (t m : Nat) (b : Bool) : State :=
  s.modTeam t fun tm => { tm with maps := keyModify tm.maps m fun r => { r with faulted := b } }

/-- What a write-back comes to. -/
inductive WroteBack where
  | done (s : State)
  | again (s : State)
  | fault (s : State) (va : Nat) (f : XFault)

/-- The lines of a map that are to be written back, in ascending order, each line's dirty words in one commit; a line stored to after its
commit stays dirty (R199). -/
def State.writeBack (s : State) (t m : Nat) : Nat → WroteBack
  | 0 => .done s
  | fuel + 1 =>
    let tm := s.team t
    match keyFind tm.maps m with
    | none => .done s
    | some r =>
      match r.nextWb with
      | none => .done s
      | some line =>
        match s.engineAt tm.core tm.ctx (r.va + 128 * line) accW fun _ => false with
        | .again s => .again s
        | .fault s f => .fault (s.mapFaulted t m true) (r.va + 128 * line) f
        | .ok s pa =>
          let s := (r.dirtyOf line).foldl (fun s w =>
            s.commitBytes (pa + 4 * w) (bytesAt (s.core tm.core).spad (tm.spbase + r.off + 128 * line + 4 * w) 4)) s
          let s := s.modTeam t fun tm => { tm with maps := keyModify tm.maps m fun r =>
            { r with dirty := r.dirty.filter (fun w => w / 32 != line), wb := r.wb.filter (fun l => l != line), faulted := false } }
          s.writeBack t m fuel

/-- A map disarmed: the splits that wait for it go on (R200). -/
def State.disarm (s : State) (t m : Nat) : State :=
  let s := s.modTeam t fun tm => { tm with maps := keyDrop tm.maps m }
  s.mapGroups fun g => if g.team == t && g.isThread then
    { g with splits := g.splits.map fun q => if q.wait = .unmapping m then s.wake q else q } else g

/-- A fault found by an event for a group that has gone on (R198, R199): the task is aborted where the fault is restartable, or the
group stops with a record that names the instruction, and goes on where it stands when the record is answered (log 16). -/
def State.lateTrap (s : State) (core slot split : Nat) (pc : Word) (f : XFault) (acc va : Nat) : State :=
  match s.group core slot with
  | none => s
  | some g =>
    let t := xTrap f acc (BitVec.ofNat 80 va) none g.ctx
    let abort := f.restartable && !s.nonRestart g.team
    let cause := if f.restartable && s.nonRestart g.team then cNONRESTART else t.cause
    let q := (findSplit split g.splits).getD {}
    let r : TrapRec :=
      { cause := cause, sub := t.sub, split := split, aborted := abort, nr := s.nonRestart g.team, pc := pc, va := t.va, ctx := g.ctx
        lanes := q.exec, exec := q.exec, infoA := t.infoA, tslot := (s.team g.team).tslot, clock := BitVec.ofNat 64 s.clock
        action := defaultAction cause t.sub, hwmval := g.sys.privhwm, team := g.team }
    let s := s.stopWith g (q.pc, q.count) r
    if abort then s.abortTask g.team else s

/-- LINE_FILL (R198): the map unit translates the line's address and reads the line, or fills it with zeros; a fault is taken by the
splits that wait for it. -/
def execLineFill (team map line : Nat) (s : State) : Out :=
  let tm := s.team team
  let release := fun (s : State) (f : Option XFault) => s.mapGroups fun g =>
    if g.team == team && g.isThread then
      { g with splits := g.splits.map fun q => if q.wait = .fill map line then
          { s.wake q with walkFault := f.map fun x =>
              { page := 65536 * map + line, acc := 4, cause := x.cause, kind := x.kind, level := x.level } } else q }
    else g
  match keyFind tm.maps map with
  | none => .next (release s none)
  | some r =>
    if r.filled.contains line then .next (release s none)
    else
      let fill := fun (s : State) (bs : List Byte) =>
        let s := s.spadPut tm.core (tm.spbase + r.off + 128 * line) bs
        release (s.modTeam team fun tm => { tm with maps := keyModify tm.maps map fun r => { r with filled := line :: r.filled } }) none
      if r.nofill then .next (fill s (List.replicate 128 0#8))
      else
        match s.engineAt tm.core tm.ctx (r.va + 128 * line) accR fun _ => false with
        | .again s => .next (s.after 438 (.lineFill team map line))
        | .fault s f => .next (release (s.mapFaulted team map true) (some f))
        | .ok s pa => .next (fill (s.mapFaulted team map false) ((span pa 128).map s.phys))

end Sys2Proof.Machine
end

