-- ==== Sys2Proof/Machine/Engine.lean ====
section
/-! DEFINITION. Sys2Proof/Machine/Engine.lean: what the engines share: barrier-object bytes, and the
completion of the operations that engines are given. -/

namespace Sys2Proof.Machine

/-- Every split that waits with `w` in the group of a slot made ready, changed by `f`. -/
def State.release (s : State) (core slot : Nat) (w : Wait) (f : Split → Split) : State :=
  s.modGroup core slot fun g =>
    { g with splits := g.splits.map fun q => if q.wait = w then f (s.wake q) else q }

/-- An engine command of the issuing group's open region, held until its commit (R226). -/
def State.hold (s : State) (agent id path : Nat) : State :=
  { s with g := { s.g with region := { s.g.region with held := s.g.region.held ++ [{ agent := agent, id := id, path := some path }] } } }

/-! ## Scratchpads as engines reach them (R192, R213) -/

/-- The team of the cluster of team `t` that a scratchpad address's peer selector names (R185). -/
def State.peerOf (s : State) (t sel : Nat) : Option Nat :=
  if sel = 0 then some t
  else
    match s.clusterOf t with
    | some c => if sel ≤ c.w * c.h then c.teams[sel - 1]? else none
    | none => none

/-- Whether a range of a team's allocation lies in it and outside what refuses deliveries (R186, R213). -/
def State.deliverable (s : State) (t off n : Nat) : Bool :=
  (keyFind s.dev.teams t).isSome && (s.team t).inBounds off n

/-- Bytes of a team's allocation, and bytes delivered there. -/
def State.teamBytes (s : State) (t off n : Nat) : List Byte := let (c, a) := s.spadAt t off; bytesAt (s.core c).spad a n
def State.teamPut (s : State) (t off : Nat) (bs : List Byte) : State := let (c, a) := s.spadAt t off; s.spadPut c a bs

/-- A word of a team's allocation, and its writing. -/
def State.teamWord (s : State) (t off : Nat) : Word := let (c, a) := s.spadAt t off; BitVec.ofNat 32 (s.spadRead c a 4)
def State.putTeamWord (s : State) (t off : Nat) (x : Word) : State := let (c, a) := s.spadAt t off; s.spadWrite c a 4 x.toNat

/-! ## Barrier objects (R293, R294) -/

/-- The statuses of a barrier object (Table 11.6). -/
def barFault : Nat := 2
def barOverflow : Nat := 3
def barCancelled : Nat := 4

/-- check(obj) (R294). -/
def State.barCheck (s : State) (t off : Nat) : State :=
  let expected := s.teamWord t off
  let arrived := s.teamWord t (off + 4)
  if expected ≠ 0#32 ∧ expected ≤ arrived then
    ((s.putTeamWord t (off + 4) (arrived - expected)).putTeamWord t off 0#32).putTeamWord t (off + 8) (s.teamWord t (off + 8) + 1#32)
  else s

/-- credit(obj, n, st) (R294), unless the object lies where no delivery is performed (R213). -/
def State.credit (s : State) (t off n st : Nat) : State :=
  if s.deliverable t off 16 then
    let s := if st ≠ 0 ∧ s.teamWord t (off + 12) = 0#32 then s.putTeamWord t (off + 12) (BitVec.ofNat 32 st) else s
    (s.putTeamWord t (off + 4) (s.teamWord t (off + 4) + BitVec.ofNat 32 n)).barCheck t off
  else s

/-! ## Global memory as engines reach it (R228, R230, R281) -/

/-- What an engine's access to a range of bytes meets: the pieces by line, each a physical address and a length; a second try; or the
offset of the byte that faults. -/
inductive Pieces where
  | ok (s : State) (l : List (Nat × Nat))
  | again (s : State)
  | fault (s : State) (off : Nat) (f : XFault)

/-- The pieces of `n` bytes from a virtual address on, line by line; `done` bytes stand before it; at most `fuel` lines. -/
def State.pieces (s : State) (core ctx acc : Nat) (mine : Nat → Bool) : Nat → Nat → Nat → Nat → Pieces
  | 0, _, _, _ => .ok s []
  | fuel + 1, va, done, n =>
    if n = 0 then .ok s []
    else
      match s.engineAt core ctx va acc mine with
      | .again s => .again s
      | .fault s f => .fault s done f
      | .ok s pa =>
        let k := min n (128 - va % 128)
        match s.pieces core ctx acc mine fuel (va / 2 ^ 64 * 2 ^ 64 + (va + k) % 2 ^ 64) (done + k) (n - k) with
        | .ok s l => .ok s ((pa, k) :: l)
        | x => x

/-- The number of lines that `n` bytes can touch. -/
def linesOf (n : Nat) : Nat := n / 128 + 2

/-- The bytes of a list of pieces. -/
def State.pieceBytes (s : State) (l : List (Nat × Nat)) : List Byte := l.flatMap fun e => (span e.1 e.2).map s.phys

/-- Bytes committed to a list of pieces (R228). -/
def State.putPieces (s : State) : List (Nat × Nat) → List Byte → State
  | [], _ => s
  | (pa, k) :: r, bs => (s.commitBytes pa (bs.take k)).putPieces r (bs.drop k)

end Sys2Proof.Machine
end

