-- ==== Sys2Proof/Machine/Carding.lean ====
section
/-! DEFINITION. Sys2Proof/Machine/Carding.lean: carding tables (08_scratchpad_and_carding.md, R201 to R213, R482). -/

namespace Sys2Proof.Machine

/-! ## Tables (R201 to R203) -/

/-- Slots of a bucket, key bytes, value bytes and slot stride of a shape (R202). -/
def cardShape (shape : Nat) : Nat × Nat × Nat × Nat :=
  match shape with
  | 0 => (8, 4, 4, 8)
  | 1 => (5, 8, 4, 12)
  | _ => (4, 8, 8, 16)

def CardTable.nslots (t : CardTable) : Nat := (cardShape t.shape).1
def CardTable.keyBytes (t : CardTable) : Nat := (cardShape t.shape).2.1
def CardTable.valBytes (t : CardTable) : Nat := (cardShape t.shape).2.2.1
def CardTable.stride (t : CardTable) : Nat := (cardShape t.shape).2.2.2
def CardTable.buckets (t : CardTable) : Nat := t.size / 64

/-- The home of a key (R203). -/
def CardTable.home (t : CardTable) (key : Nat) : Nat :=
  (blockingHash (BitVec.ofNat 64 key) (BitVec.ofNat 32 t.seed)).toNat % t.buckets

/-- The slots of a key's window, by bucket * 8 + slot, in their order (R203). -/
def CardTable.window (t : CardTable) (key : Nat) : List Nat :=
  (List.range 8).flatMap fun j => (List.range t.nslots).map fun i => (t.home key + j) % t.buckets * 8 + i

/-- The state of a slot: 0 empty, 1 full, 2 tombstone (R202). -/
def CardTable.slotState (t : CardTable) (x : Nat) : Nat := (storeRead t.slots x).toNat

/-- The offset of a slot in the team's allocation (R202). -/
def CardTable.slotOff (t : CardTable) (x : Nat) : Nat := t.off + 64 * (x / 8) + t.stride * (x % 8)

/-- Table `k` of team `t`; none unless it is claimed, or being claimed. -/
def State.table (s : State) (t k : Nat) : Option CardTable := keyFind (s.team t).tables k

/-- A table changed. -/
def State.modTable (s : State) (t k : Nat) (f : CardTable → CardTable) : State :=
  s.modTeam t fun tm => { tm with tables := keyModify tm.tables k f }

/-- `n` bytes of a team's allocation, and their writing. -/
def State.teamRead (s : State) (t off n : Nat) : Nat := let (c, a) := s.spadAt t off; s.spadRead c a n
def State.teamWrite (s : State) (t off n v : Nat) : State := let (c, a) := s.spadAt t off; s.spadWrite c a n v

/-! ## A step of the carding unit, and what can stop it (R482) -/

/-- What a step comes to: a value; a spill access that failed for good; one that must be made again; one that faulted restartably; or a
spill area that is still to be supplied. -/
inductive Carded (α : Type) where
  | ok (x : α) (s : State)
  | fatal (s : State)
  | again (s : State)
  | fault (s : State) (va : Nat) (write : Bool)
  | area (s : State)

/-- One step after another. -/
def Carded.bind {α β : Type} (c : Carded α) (f : α → State → Carded β) : Carded β :=
  match c with
  | .ok x s => f x s
  | .fatal s => .fatal s
  | .again s => .again s
  | .fault s va w => .fault s va w
  | .area s => .area s

/-- The virtual address of a spill entry (R201, R204). -/
def State.spillVa (s : State) (t : Nat) (c : CardTable) (i : Nat) : Nat :=
  (storeRead (s.ctx (s.team t).ctx).win c.win).toNat * 2 ^ 64 + (c.spillBase + 32 * i) % 2 ^ 64

/-- The progress of the issuing split's carding instruction changed. -/
def State.modCarded (s : State) (f : CardWork → CardWork) : State := { s with p := { s.p with carded := f s.p.carded } }

/-- A spill access (R482): its physical address. The access that was terminated ends as a fatal one. -/
def State.spillAt (s : State) (t : Nat) (c : CardTable) (i acc : Nat) : Carded Nat :=
  let va := s.spillVa t c i
  if s.p.carded.dead then .fatal (s.modCarded fun w => { w with dead := false })
  else
    match s.engineAt (s.team t).core (s.team t).ctx va acc fun _ => false with
    | .ok s pa => .ok pa s
    | .again s => .again s
    | .fault s f => if f.engineRestart then .fault s va (acc == accW) else .fatal s

/-- The 32 bytes of an entry (R204). -/
def SpillEntry.bytes (e : SpillEntry) : List Byte :=
  leBytes 8 e.key ++ leBytes 8 e.val ++ leBytes 4 e.home ++ leBytes 4 (if e.dead then 1 else 0) ++ List.replicate 8 0#8

/-- Entry `i` of the log (R482): as the step in hand has read it already, or read now. A state word that is neither live nor deleted, as only
a program can leave it, reads as deleted (log 67). -/
def State.spillEntry (s : State) (t : Nat) (c : CardTable) (i : Nat) : Carded SpillEntry :=
  match s.p.carded.log[i]? with
  | some e => .ok e s
  | none => (s.spillAt t c i accR).bind fun pa s =>
      let b := (span pa 32).map s.phys
      let e : SpillEntry :=
        { key := leNat (b.take 8), val := leNat ((b.drop 8).take 8), home := leNat ((b.drop 16).take 4)
          dead := leNat ((b.drop 20).take 4) != 0 }
      .ok e (s.modCarded fun w => { w with log := w.log ++ [e] })

/-- The log from entry `i` on, `n` of them. -/
def State.spillLog (s : State) (t : Nat) (c : CardTable) (i : Nat) : Nat → Carded (List SpillEntry)
  | 0 => .ok [] s
  | n + 1 => (s.spillEntry t c i).bind fun e s => (s.spillLog t c (i + 1) n).bind fun l s => .ok (e :: l) s

/-- The whole log. -/
def State.wholeLog (s : State) (t : Nat) (c : CardTable) : Carded (List SpillEntry) := s.spillLog t c 0 c.count

/-- Where an entry stands: a slot, or a place in the log. -/
inductive CardAt where
  | slot (x : Nat)
  | log (i : Nat) (e : SpillEntry)
deriving DecidableEq, Repr

/-- The first live entry of a key in the log from entry `i` on, `n` of them; the log is read no further (R205). -/
def State.logFind (s : State) (t : Nat) (c : CardTable) (key : Nat) (i : Nat) : Nat → Carded (Option CardAt)
  | 0 => .ok none s
  | n + 1 => (s.spillEntry t c i).bind fun e s =>
      if !e.dead && e.key == key then .ok (some (.log i e)) s else s.logFind t c key (i + 1) n

/-- find (R205). -/
def State.cardFind (s : State) (t : Nat) (c : CardTable) (key : Nat) : Carded (Option CardAt) :=
  match (c.window key).find? fun x => c.slotState x == 1 && s.teamRead t (c.slotOff x) c.keyBytes == key with
  | some x => .ok (some (.slot x)) s
  | none => if c.spilled.contains (c.home key) then s.logFind t c key 0 c.count else .ok none s

/-- The value of an entry found. -/
def State.cardGet (s : State) (t : Nat) (c : CardTable) : CardAt → Nat
  | .slot x => s.teamRead t (c.slotOff x + c.keyBytes) c.valBytes
  | .log _ e => e.val % 2 ^ (8 * c.valBytes)

/-- The value of an entry replaced; in the log, an access that needs W and writes the whole entry (log 67). -/
def State.cardSet (s : State) (t : Nat) (c : CardTable) (at_ : CardAt) (v : Nat) : Carded Unit :=
  match at_ with
  | .slot x => .ok () (s.teamWrite t (c.slotOff x + c.keyBytes) c.valBytes v)
  | .log i e =>
    (s.spillAt t c i accW).bind fun pa s => .ok () (s.commitBytes pa { e with val := v % 2 ^ (8 * c.valBytes) }.bytes)

/-- place (R205): whether there was room. An append needs W, as R482 says of it (log 67). -/
def State.cardPlace (s : State) (t k : Nat) (c : CardTable) (key v : Nat) : Carded Bool :=
  match (c.window key).find? fun x => c.slotState x != 1 with
  | some x =>
    let s := (s.teamWrite t (c.slotOff x) c.keyBytes key).teamWrite t (c.slotOff x + c.keyBytes) c.valBytes v
    .ok true (s.modTable t k fun c => { c with slots := storeWrite c.slots x 1#8 })
  | none =>
    if c.spillCap ≤ c.count ∨ c.refused then .ok false s
    else if c.spillBase = 0 then .area s
    else
      (s.spillAt t c c.count accW).bind fun pa s =>
        let e : SpillEntry := { key := key, val := v % 2 ^ (8 * c.valBytes), home := c.home key, dead := false }
        .ok true ((s.commitBytes pa e.bytes).modTable t k fun c =>
          { c with count := c.count + 1
                   spilled := if c.spilled.contains (c.home key) then c.spilled else c.home key :: c.spilled })

/-- remove (R205). -/
def State.cardRemove (s : State) (t k : Nat) (c : CardTable) (at_ : CardAt) : Carded Unit :=
  match at_ with
  | .slot x => .ok () (s.modTable t k fun c => { c with slots := storeWrite c.slots x 2#8 })
  | .log i e => (s.spillAt t c i accW).bind fun pa s => .ok () (s.commitBytes pa { e with dead := true }.bytes)

/-! ## The accumulate operations (R209, Table 8.5) -/

/-- An f64 input of X64 as an i64 (R209). -/
def x64Of (scale x : Nat) : Nat × FFlags :=
  match unpack f64 x with
  | .nan _ => (0, flNV)
  | .inf n => (if n then 2 ^ 63 else 2 ^ 63 - 1, flOF)
  | .fin n m e =>
    let (k, nx) := roundAt 0 n m (e + scale) 0
    let fl : FFlags := if nx then flNX else 0#5
    if n then (if 2 ^ 63 < k then (2 ^ 63, flOF ||| fl) else ((2 ^ 64 - k) % 2 ^ 64, fl))
    else if 2 ^ 63 ≤ k then (2 ^ 63 - 1, flOF ||| fl) else (k, fl)

/-- value op operand (Table 8.5). -/
def CardTable.acc (c : CardTable) (a b : Nat) : Nat × FFlags :=
  let w := 8 * c.valBytes
  let t := if w = 64 then f64 else f32
  match c.op with
  | 1 => fadd t 0 a b
  | 2 => (if signedOf w a ≤ signedOf w b then a else b, 0#5)
  | 3 => (if signedOf w b ≤ signedOf w a then a else b, 0#5)
  | 4 => fminmax t false a b
  | 5 => fminmax t true a b
  | 6 => (a ||| b, 0#5)
  | _ => ((a + b) % 2 ^ w, 0#5)

/-- The fold of the lanes of a key (R208, R209). -/
def CardTable.fold (c : CardTable) (l : List Nat) : Nat × FFlags :=
  let conv := fun x => if c.op = 7 then x64Of c.scale x else (x, (0#5 : FFlags))
  match l with
  | [] => (0, 0#5)
  | x :: r =>
    r.foldl (fun a y =>
      let y' := conv y
      let z := c.acc a.1 y'.1
      (z.1, a.2 ||| y'.2 ||| z.2)) (conv x)

/-! ## One key (R207) -/

/-- The step of CTINS, CTPRB, CTDEL or CTACC (`op` 0 to 3) on one key (R207). -/
def State.cardStep (s : State) (op t k : Nat) (opt : Bool) (key v : Nat) (fl : FFlags) : Carded CardLane :=
  match s.table t k with
  | none => .ok { status := 4, out := 0 } s
  | some c =>
    (s.cardFind t c key).bind fun found s =>
      match found with
      | none =>
        if op = 1 ∨ op = 2 ∨ (op = 3 ∧ opt) then .ok { status := 2, out := 0, fl := fl } s
        else (s.cardPlace t k c key v).bind fun ok s =>
          .ok (if ok then { status := 1, out := v, fl := fl } else { status := 3, out := 0, fl := fl }) s
      | some at_ =>
        let old := s.cardGet t c at_
        match op with
        | 0 =>
          if opt then (s.cardSet t c at_ v).bind fun _ s => .ok { status := 0, out := v } s
          else .ok { status := 0, out := old } s
        | 1 => .ok { status := 0, out := old } s
        | 2 => (s.cardRemove t k c at_).bind fun _ s => .ok { status := 0, out := old } s
        | _ =>
          let (new, f) := c.acc old v
          (s.cardSet t c at_ new).bind fun _ s => .ok { status := 0, out := new, fl := fl ||| f } s

/-- A lane has acted: what it reports stands, and the entries that its step read are forgotten. -/
def State.laneDone (s : State) (l : Nat) (x : CardLane) : State := s.modCarded fun w => { w with lanes := w.lanes ++ [(l, x)], log := [] }

/-- The lanes of an instruction in ascending order (R208), but for those that acted before the unit stopped: CTACC acts on a key at its lowest
lane; a lane whose spill access fails reports status 4 (R482). -/
def State.cardLanes (s : State) (op t k : Nat) (opt : Bool) (keyOf valOf : Nat → Nat) (all : List Nat) :
    List Nat → Carded (List (Nat × CardLane))
  | [] => .ok s.p.carded.lanes s
  | l :: r =>
    let acted := s.p.carded.lanes
    if acted.any fun e => e.1 == l then s.cardLanes op t k opt keyOf valOf all r
    else
      match (if op = 3 then acted.find? fun e => keyOf e.1 == keyOf l else none) with
      | some e => (s.laneDone l { e.2 with fl := 0#5 }).cardLanes op t k opt keyOf valOf all r
      | none =>
        let (v, fl) :=
          if op = 3 then
            (match s.table t k with
              | some c => c.fold ((all.filter fun m => keyOf m == keyOf l).map valOf)
              | none => (0, 0#5))
          else (valOf l, 0#5)
        match s.cardStep op t k opt (keyOf l) v fl with
        | .ok x s => (s.laneDone l x).cardLanes op t k opt keyOf valOf all r
        | .fatal s => (s.laneDone l { status := 4, out := 0, fl := fl }).cardLanes op t k opt keyOf valOf all r
        | .again s => .again s
        | .fault s va w => .fault s va w
        | .area s => .area s

/-! ## The unit's turn (R210, R482) -/

/-- Whether the split that holds the carding unit of a core still stands at its instruction. -/
def State.cardingHeld (s : State) (core : Nat) : Bool :=
  match (s.core core).carding with
  | none => false
  | some (slot, i) =>
    match s.group core slot with
    | some g =>
      let at_ := fun (q : Split) => q.pc == (s.core core).cardPlace.1 && q.count == (s.core core).cardPlace.2
      g.live && ((findSplit i g.splits).map at_).getD false
    | none => false

/-- The issuing split holds the carding unit: its instruction has the place in the order that it took (R210). -/
def State.holdCard (s : State) : State :=
  s.modCore s.g.core fun k => { k with carding := some (s.g.slot, s.p.idx), cardPlace := (s.p.pc, s.p.count) }

/-- A carding instruction takes its turn: it waits while an earlier one, stopped at a spill access, holds the unit. -/
def cardTurn (s : State) (k : State → Out) : Out :=
  if s.cardingHeld s.g.core && !((s.core s.g.core).carding == some (s.g.slot, s.p.idx)) then .next (s.stall .carding)
  else k s

/-- A spill area is asked for (R201): of the control node in host-assisted mode, else of the supervisor (R449). -/
def State.askArea (s : State) (team table : Nat) : State :=
  if s.dev.hmode.getLsbD 3 then s.say (.cardingSpill team table)
  else s.modDev fun d => { d with asked := if d.asked.contains (.cardingSpill team table) then d.asked else d.asked ++ [.cardingSpill team table] }

/-- The scalar operands of a carding instruction, as they stood at its issue. -/
def State.cardArgs (s : State) (l : List Nat) : List Nat := if s.p.carded.args.isEmpty then l else s.p.carded.args

/-- A carding instruction stops with the operands `args`: it holds the unit, and what it has done stands. -/
def State.cardHalt (s : State) (args : List Nat) : State :=
  let s := s.holdCard.modCarded fun w => { w with args := args }
  { s with p := { s.p with stage := 1 } }

/-- What the unit does when a spill access of a table stops it (R482): only that access is made again. -/
def cardStop {α : Type} (table : Nat) (args : List Nat) : Carded α → State
  | .ok _ s => s
  | .fatal s => s
  | .again s => (s.cardHalt args).stall (.clock (s.clock + 438))
  | .area s => ((s.askArea s.g.team table).cardHalt args).stall (.spillArea table)
  | .fault s va w =>
    let core := s.g.core
    let s := s.cardHalt args
    if !s.faultRoom core then s.stall (.clock (s.clock + 1))
    else
      let id := s.nextId
      (({ s with nextId := id + 1 }).postEngine core 2 id (faultWords va s.g.ctx core table (4 + if w then 1 else 0) 0 0)).stall
        (.request id)

/-- A carding instruction that has acted: its writes come when it completes (R206, R210). -/
def State.cardDone (s : State) (clk : Nat) (w : Writes) (vdst sdst : List Nat) (act : Option OpAct) : State :=
  let id := s.nextId
  let s := s.startFlag clk w vdst sdst act
  (s.modCore s.g.core fun k => { k with carding := none, cardOrder := k.cardOrder ++ [(s.g.slot, id)] }).retire

/-! ## The key instructions (R206) -/

/-- Whether `n` registers from a code on are a run of v or of w registers (R162), an even pair where `n` is a pair (R44). -/
def cardRun (a : BitVec 8) (n : Nat) (pair : Bool) : Bool := vrunOk a n && (!pair || a.toNat % 2 == 0)

/-- CTINS, CTPRB, CTDEL, CTACC. -/
def cardKey (op : Nat) (opt nv : Bool) (t : BitVec 2) (a d : BitVec 8) (s : State) : Out :=
  issue { modx := { flag := true } } s fun s =>
    let team := s.g.team
    let k := t.toNat
    match (s.table team k).filter CardTable.claimed with
    | none => .next (s.trap { cause := cSPBOUND })
    | some c =>
      let kn := c.keyBytes / 4
      let vn := c.valBytes / 4
      if !(cardRun a kn (kn == 2) && cardRun d (vn + 1) (vn == 2)) then .next (s.trap s.illegal)
      else
        issue { rd := [.v a kn], wr := [.v d (vn + 1)], modx := { flag := true } } s fun s =>
          cardTurn s fun s =>
            match s.cardLanes op team k opt (s.dataOf a kn) (s.dataOf d vn) s.active s.active with
            | .ok l s' =>
              let row := fun i => l.foldl (fun st (e : Nat × CardLane) => storeWrite st e.1 (BitVec.ofNat 32 (e.2.out / 2 ^ (32 * i))))
                ([] : Store 32)
              let stat := l.foldl (fun st (e : Nat × CardLane) => storeWrite st e.1 (BitVec.ofNat 32 e.2.status)) ([] : Store 32)
              let regs := if nv then [vn] else List.range (vn + 1)
              let w : Writes :=
                { v := regs.map fun i => (d.toNat + i, s.p.exec, if i = vn then stat else row i)
                  fl := l.foldl (fun f e => f ||| e.2.fl) 0#5 }
              .next (s'.cardDone (20 + (l.length + 3) / 4) w (regs.map (d.toNat + ·)) [] none)
            | stop => .next (cardStop k [] stop)

/-- CTINS (R207, R208): [0] NV, [1] REPL. -/
def execCtins (f t : BitVec 2) (a d : BitVec 8) (s : State) : Out := cardKey 0 (f.getLsbD 1) (f.getLsbD 0) t a d s
/-- CTPRB (R207, R208). -/
def execCtprb (f : BitVec 1) (t : BitVec 2) (a d : BitVec 8) (s : State) : Out := cardKey 1 false (f.getLsbD 0) t a d s
/-- CTDEL (R207, R208). -/
def execCtdel (f : BitVec 1) (t : BitVec 2) (a d : BitVec 8) (s : State) : Out := cardKey 2 false (f.getLsbD 0) t a d s
/-- CTACC (R207, R208, R209): [0] NV, [1] NOINS. -/
def execCtacc (f t : BitVec 2) (a d : BitVec 8) (s : State) : Out := cardKey 3 (f.getLsbD 1) (f.getLsbD 0) t a d s

/-! ## The table-wide instructions (R201, R211, R212) -/

/-- A carding configuration read from its 32 bytes; none for BADCFG (Table 8.3). -/
def cardConfig (x : Nat) : Option (Nat × CardTable) :=
  let b := fun hi lo => nfield x hi lo
  let size := 4096 * 2 ^ b 34 32
  let op := b 51 48
  let shape := b 41 40
  let ok := decide (b 34 32 ≤ 6) && b 39 35 == 0 && shape != 3 && b 47 44 == 0 && decide (op ≤ 7) && b 55 52 == 0 && b 63 62 == 0 &&
    (op == 7 || b 61 56 == 0) && b 103 99 == 0 && b 127 104 == 0 && b 255 224 == 0 && b 191 128 % 128 == 0 && b 31 0 % size == 0 &&
    (op != 7 || shape == 2)
  if ok then
    some (b 43 42, { off := b 31 0, size := size, shape := shape, op := op, scale := b 61 56, seed := b 95 64, win := b 98 96
                     spillBase := b 191 128, spillCap := b 223 192 })
  else none

/-- The status of a CTINIT, and the table it claims (R201). -/
def State.cardClaim (s : State) (cfg : Nat) : Nat × Option (Nat × CardTable) :=
  match cardConfig cfg with
  | none => (3, none)
  | some (k, c) =>
    let tm := s.myTeam
    let all := s.coreTables s.g.core
    if (keyFind tm.tables k).isSome then (1, none)
    else if 4 ≤ all.length ∨ 256 * 1024 < (all.map CardTable.size).foldl (· + ·) 0 + c.size then (2, none)
    else if tm.spsize < c.off + c.size || tm.tables.any (fun e => rangesMeet c.off c.size e.2.off e.2.size) ||
        tm.maps.any (fun e => rangesMeet c.off c.size e.2.off e.2.size) then (4, none)
    else (0, some (k, c))

/-- CTINIT (R201): the configuration is read at issue, in scratchpad order; the claim and the status come at completion. -/
def execCtinit (d a : BitVec 7) (s : State) : Out :=
  issue { rd := [.s a 1], wr := [.s d 1], modx := { flag := true } } s fun s =>
    let off := (s.readS a).toNat
    if !s.ownBounds off 32 then .next (s.trap { cause := cSPBOUND, lanes := some 0#32 })
    else if off % 32 ≠ 0 then .next (s.trap { cause := cMISALIGN, lanes := some 0#32 })
    else cardTurn s fun s =>
      let (status, t) := s.cardClaim (s.teamRead s.g.team off 32)
      let w : Writes := if d.toNat < 124 then { s := [(d.toNat, BitVec.ofNat 32 status)] } else {}
      let dst := if d.toNat < 124 then [d.toNat] else []
      match t with
      | some (k, c) =>
        .next ((s.modTeam s.g.team fun tm => { tm with tables := keyPut tm.tables k c }).cardDone (40 + c.buckets / 16) w [] dst
          (some (.claim k)))
      | none => .next (s.cardDone 40 w [] dst none)

/-- CTFREE (R212): the table is unclaimed at issue. -/
def execCtfree (a : BitVec 7) (s : State) : Out :=
  issue { rd := [.s a 1], modx := { flag := true } } s fun s =>
    cardTurn s fun s =>
      let k := field (s.readS a) 1 0
      let s := match (s.table s.g.team k).filter CardTable.claimed with
        | some _ => s.modTeam s.g.team fun tm => { tm with tables := keyDrop tm.tables k }
        | none => s
      .next (s.cardDone 12 {} [] [] none)

/-- Three counts written to consecutive scalars. -/
def threeScalars (d : Nat) (x y z : Nat) : Writes :=
  { s := [(d, BitVec.ofNat 32 x), (d + 1, BitVec.ofNat 32 y), (d + 2, BitVec.ofNat 32 z)] }

/-- CTSTAT (R212, R482). The bits of S1 that no table names are ignored, as Table 8.2 says of CTFREE (log 66). -/
def execCtstat (d a : BitVec 7) (s : State) : Out :=
  issue { rd := [.s a 1], wr := [.s d 3], modx := { flag := true } } s fun s =>
    cardTurn s fun s =>
      let args := s.cardArgs [field (s.readS a) 1 0]
      let k := args.headD 0
      let n := d.toNat
      let out := fun (s : State) w => s.cardDone 12 w [] [n, n + 1, n + 2] none
      match (s.table s.g.team k).filter CardTable.claimed with
      | none => .next (out s (threeScalars n 0 0 0))
      | some c =>
        match s.wholeLog s.g.team c with
        | .ok l s =>
          let live := (l.filter fun e => !e.dead).length
          let full := (c.slots.filter fun e => e.2 == 1#8).length
          .next (out s (threeScalars n (full + live) live ((c.slots.filter fun e => e.2 == 2#8).length + (l.length - live))))
        | .fatal s => .next (out s (threeScalars n 0xFFFFFFFF 0xFFFFFFFF 0xFFFFFFFF))
        | stop => .next (cardStop k args stop)

/-- An entry put in its place of the drain order: home, key, value (R211). -/
def drainInsert (e : Nat × Nat × Nat) : List (Nat × Nat × Nat) → List (Nat × Nat × Nat)
  | [] => [e]
  | x :: r => if e.1 < x.1 ∨ (e.1 = x.1 ∧ e.2.1 < x.2.1) then e :: x :: r else x :: drainInsert e r

/-- The drain order of entries (R211). -/
def drainSort (l : List (Nat × Nat × Nat)) : List (Nat × Nat × Nat) := l.foldl (fun acc e => drainInsert e acc) []

/-- The full slots of a table as entries of the drain order. -/
def State.fullSlots (s : State) (t : Nat) (c : CardTable) : List (Nat × Nat × Nat) :=
  (c.slots.filter fun e => e.2 == 1#8).map fun e =>
    let key := s.teamRead t (c.slotOff e.1) c.keyBytes
    (c.home key, key, s.cardGet t c (.slot e.1))

/-- Records written to the scratchpad from an offset on (R211). -/
def State.drainOut (s : State) (t off : Nat) : List (Nat × Nat × Nat) → State
  | [] => s
  | (_, key, v) :: r => ((s.teamWrite t off 8 key).teamWrite t (off + 8) 8 v).drainOut t (off + 16) r

/-- CTDRAIN (R211, R482). -/
def execCtdrain (cur out ctl : BitVec 7) (s : State) : Out :=
  issue { rd := [.s ctl 1, .s out 1, .s cur 1], wr := [.s cur 1], modx := { flag := true } } s fun s =>
    let args := s.cardArgs [(s.readS ctl).toNat, (s.readS out).toNat, (s.readS cur).toNat]
    let n := nfield (args.getD 0 0) 31 16
    let k := nfield (args.getD 0 0) 1 0
    let off := args.getD 1 0
    let c : Word := BitVec.ofNat 32 (args.getD 2 0)
    let fin := fun (s : State) m (x : Word) => s.cardDone (30 + 2 * m) { s := [(cur.toNat, x)] } [] [cur.toNat] none
    if !s.ownBounds off (16 * n) then .next (s.trap { cause := cSPBOUND, lanes := some 0#32 })
    else if off % 16 ≠ 0 then .next (s.trap { cause := cMISALIGN, lanes := some 0#32 })
    else cardTurn s fun s =>
      if c.getLsbD 31 then .next (fin s 0 c)
      else
        match (s.table s.g.team k).filter CardTable.claimed with
        | none => .next (fin s 0 (c ||| 0x80000000#32))
        | some tb =>
          let pos := c.toNat
          let drain := fun (s : State) (l : List (Nat × Nat × Nat)) (cut : Option Nat) =>
            let stop := cut.getD l.length
            let l' := (l.take stop).drop pos |>.take n
            let s := s.drainOut s.g.team off l'
            let next := pos + l'.length
            let x : Word :=
              if cut.isSome && decide (stop < pos + n) then 0xFFFFFFFF#32
              else BitVec.ofNat 32 (next % 2 ^ 31) ||| (if cut.isNone && decide (l.length ≤ next) then 0x80000000#32 else 0#32)
            .next (fin s l'.length x)
          match s.wholeLog s.g.team tb with
          | .ok log s =>
            let live := (log.filter fun e => !e.dead).map fun e => (e.home, e.key, e.val % 2 ^ (8 * tb.valBytes))
            drain s (drainSort (s.fullSlots s.g.team tb ++ live)) none
          | .fatal s =>
            let l := drainSort (s.fullSlots s.g.team tb)
            let first := tb.spilled.foldl min tb.buckets
            drain s l (some (l.filter fun e => e.1 < first).length)
          | stop => .next (cardStop k args stop)

/-! ## Completions -/

/-- CARDING_SPILL_ALLOCATION (R201, R449): the area of a table is supplied, or refused; what waits for it goes on. -/
def execCardingSpillAllocation (team table : Nat) (base : BitVec 64) (refuse : Bool) (s : State) : Out :=
  let s := (s.modTable team table fun c =>
    if c.spillBase != 0 then c else if refuse then { c with refused := true } else { c with spillBase := base.toNat }).modDev fun d =>
      { d with asked := d.asked.filter (· != .cardingSpill team table) }
  .next (s.mapGroups fun g =>
    if g.team == team && g.isThread then
      { g with splits := g.splits.map fun q => if q.wait = .spillArea table then s.wake q else q }
    else g)

/-- The access at which a restartable fault holds a carding instruction is made again; one that was terminated fails for good (R298, R482). -/
def State.cardAnswer (s : State) (core id : Nat) (kill : Bool) : State :=
  match (s.core core).carding with
  | none => s
  | some (slot, _) => s.release core slot (.request id) fun q => { q with carded := { q.carded with dead := kill } }

end Sys2Proof.Machine
end

