-- ==== Sys2Proof/Machine/MatrixMath.lean ====
section
/-! DEFINITION. Sys2Proof/Machine/MatrixMath.lean: what the matrix array and the quantiser compute (04_number_formats.md, R93 to R107;
12_matrix_engine.md, R306, R307, R315 to R317). -/

namespace Sys2Proof.Machine

/-! ## Formats and pairs (Tables 4.6, 12.5) -/

/-- The bits of an element of a format (Table 4.6); 0 for a code that names no format. -/
def fmtBits (code : Nat) : Nat :=
  match code with
  | 0 => 64 | 1 => 32 | 2 => 32 | 3 => 16 | 4 => 16 | 5 => 64 | 6 => 32 | 7 => 32 | 8 => 16 | 9 => 16 | 10 => 8 | 11 => 8
  | 12 => 4 | 13 => 4 | 14 => 2 | 15 => 2 | 16 => 1
  | n => if 17 ≤ n ∧ n ≤ 23 then n - 15 else 0

def fmtBfp (code : Nat) : Bool := decide (17 ≤ code) && decide (code ≤ 23)
def fmtInt (code : Nat) : Bool := decide (8 ≤ code) && decide (code ≤ 14)

/-- Whether a pair allows formats `a` and `b` (Table 12.5). -/
def pairAllows (pair a b : Nat) : Bool :=
  match pair with
  | 8 => a == 3 && fmtBfp b
  | 9 => a == 4 && fmtBfp b
  | 10 => fmtBfp a && fmtBfp b
  | 11 => fmtInt a && fmtInt b
  | 12 => fmtInt a && fmtInt b
  | 13 => a == 10 && b == 15
  | 14 => a == 10 && b == 15
  | 15 => a == 15 && b == 15
  | 16 => a == 15 && b == 15
  | 17 => a == 16 && b == 16
  | 18 => a == 16 && b == 16
  | 19 => fmtBfp a && b == 3
  | 20 => fmtBfp a && b == 4
  | p => decide (p ≤ 7) && a == p && b == p

/-- Whether a pair uses two tiles (Table 12.5). -/
def pairTwo (pair : Nat) : Bool := pair == 0 || pair == 5 || pair == 6 || pair == 7

/-- The rate of a pair against BF16 (Table 12.5), as a fraction: `d` from the widest mantissa or integer. -/
def pairRate (pair a b : Nat) : Nat × Nat :=
  let w := max (if fmtBfp a || fmtInt a then fmtBits a else 0) (if fmtBfp b || fmtInt b then fmtBits b else 0)
  let d := max 1 ((w + 1) / 2)
  match pair with
  | 0 => (1, 16) | 1 => (1, 4) | 2 => (1, 2) | 3 => (1, 1) | 4 => (1, 1) | 5 => (1, 16) | 6 => (1, 4) | 7 => (1, 4)
  | 8 => (4, d) | 9 => (4, d) | 10 => (8, d) | 11 => (8, d) | 12 => (8, d) | 13 => (8, 1) | 14 => (8, 1) | 15 => (8, 1) | 16 => (8, 1)
  | 17 => (16, 1) | 18 => (16, 1)
  | _ => (4, d)

/-- The clk that an MMA occupies the array (R318). -/
def occupancy (pair a b k : Nat) : Nat :=
  let (num, den) := pairRate pair a b
  max 2 ((k * den + num - 1) / num)

/-! ## The fields of a slot record (Table 12.2) -/

def recFmt (r : BitVec 64) : Nat := nfield r.toNat 4 0
def recLay (r : BitVec 64) : Bool := r.getLsbD 5
def recDO (r : BitVec 64) : Nat := nfield r.toNat 21 8
def recBMO (r : BitVec 64) : Nat := nfield r.toNat 45 32
def recEXO (r : BitVec 64) : Nat := nfield r.toNat 61 48

/-- Whether the zero fields of a record are zero and its origins aligned (R305). -/
def recordOk (r : BitVec 64) : Bool :=
  nfield r.toNat 63 62 == 0 && nfield r.toNat 47 46 == 0 && nfield r.toNat 31 22 == 0 && nfield r.toNat 7 6 == 0 &&
    recDO r % 8 == 0 && recBMO r % 8 == 0 && recEXO r % 16 == 0

/-- Whether the data that a record names for `n` elements lie within the slot (R316). -/
def recordFits (r : BitVec 64) (n : Nat) : Bool :=
  let f := recFmt r
  if fmtBfp f then decide (recDO r + 512 * fmtBits f ≤ 16384) && decide (recBMO r + 512 ≤ 16384) && decide (recEXO r + 1024 ≤ 16384)
  else decide (recDO r + (fmtBits f * n + 7) / 8 ≤ 16384)

/-! ## Operands (R306, R307) -/

/-- The bits of element `n` of a run of `w`-bit elements that begins at a byte (R94). -/
def elemBits (data : Store 8) (origin w n : Nat) : Nat :=
  if 8 ≤ w then readBytes data (origin + n * (w / 8)) (w / 8)
  else readBytes data (origin + n * w / 8) 1 / 2 ^ (n * w % 8) % 2 ^ w

/-- Element (r, c) of a matrix of `rows` and `cols` in a slot (R306), as its bits. -/
def matrixElem (data : Store 8) (r : BitVec 64) (rows cols i j : Nat) : Nat :=
  elemBits data (recDO r) (fmtBits (recFmt r)) (if recLay r then j * rows + i else i * cols + j)

/-- An element of a BFP row (R95 to R97): whether a block starts at it, the block's exponent, its mantissa, 0 in a zero block. -/
structure BfpElem where
  start : Bool
  exp : Nat
  mant : Int
deriving DecidableEq, Repr

/-- The starts of a row's blocks below `k`: the first 16 set bits, bit 0 taken as set; and whether a further one is ignored (R95, R96,
R99). -/
def bfpStarts (bitmap k : Nat) : List Nat × Bool :=
  let l := (List.range k).filter fun i => i == 0 || bitmap.testBit i
  (l.take 16, decide (16 < l.length))

/-- A row of a BFP operand, its first `k` elements (R307): with BIGN, NVBLK. -/
def bfpRow (data : Store 8) (r : BitVec 64) (row k : Nat) : List BfpElem × Bool × Bool :=
  let m := fmtBits (recFmt r)
  let (starts, big) := bfpStarts (readBytes data (recBMO r + 8 * row) 8) k
  let bits := readBytes data (recDO r + 8 * m * row) (8 * m)
  let strip := readBytes data (recEXO r + 16 * row) 16
  let block := fun i => (starts.filter fun s => decide (s ≤ i)).length - 1
  let exp := fun j => strip / 256 ^ j % 256
  let l := (List.range k).map fun i =>
    let e := exp (block i)
    { start := starts.contains i, exp := e
      mant := if e = 0 ∨ e = 255 then 0 else signedOf m (bits / 2 ^ (m * i) % 2 ^ m) : BfpElem }
  (l, big, (List.range starts.length).any fun j => exp j == 255)

/-- The exact value of an element of a row of m-bit mantissas (R97). -/
def BfpElem.val (m : Nat) (x : BfpElem) : FVal :=
  .fin (decide (x.mant < 0)) x.mant.natAbs ((x.exp : Int) - 127 - (m - 1))

/-- The binary format of a float code, for its unpacking. -/
def floatFmt (code : Nat) : Fmt :=
  match code with
  | 0 => f64
  | 2 => { e := 8, f := 23 }
  | 3 => bf16
  | 4 => f16
  | 6 => f16
  | 7 => bf16
  | _ => f32

/-- The value of an FP19 operand: its 32 bits cut to FP19 (R78). -/
def fp19Of (x : Nat) : Nat := x / 8192 * 8192

/-- The integer value of an element (Table 4.6). -/
def intElem (code x : Nat) : Int :=
  match code with
  | 9 => x
  | 11 => x
  | 13 => x
  | 15 => if x = 1 then 1 else if x = 3 then -1 else 0
  | 16 => if x = 1 then 1 else -1
  | c => signedOf (fmtBits c) x

/-! ## Sums (R102 to R106) -/

/-- Consecutive parts of `n` of a list. -/
def chunks {α : Type} (n : Nat) : Nat → List α → List (List α)
  | 0, _ => []
  | _, [] => []
  | fuel + 1, l => l.take n :: chunks n fuel (l.drop n)

/-- The sum of a run of products (R102): none for an exact zero, else an f32, with its flags. -/
def runSum (ps : List FVal) : Option (Nat × FFlags) :=
  let isInf := fun (b : Bool) => ps.any fun p => p == .inf b
  if ps.any FVal.isNaN || (isInf true && isInf false) then some (f32.nan, flNV)
  else if isInf true then some (signed f32 true f32.inf, 0#5)
  else if isInf false then some (f32.inf, 0#5)
  else
    let nz := ps.filterMap fun p => match p with | .fin n m e => if m = 0 then none else some (n, m, e) | _ => none
    match nz with
    | [] => none
    | (_, m0, e0) :: r =>
      let lead := r.foldl (fun a p => max a (exOf p.2.1 p.2.2)) (exOf m0 e0)
      let g := lead - 34
      let x : Int := nz.foldl (fun (a : Int) p =>
        let q : Nat := if g ≤ p.2.2 then p.2.1 * 2 ^ (p.2.2 - g).toNat else p.2.1 / 2 ^ (g - p.2.2).toNat
        if p.1 then a - q else a + q) 0
      if x = 0 then none else some (pack f32 0 (decide (x < 0)) x.natAbs g)

/-- One run added into an accumulator (R102). -/
def addRun (acc : Nat × FFlags) (ps : List FVal) : Nat × FFlags :=
  match runSum ps with
  | none => acc
  | some (s, fl) =>
    let (r, fl') := fadd f32 0 acc.1 s
    (r, acc.2 ||| fl ||| fl')

/-- The products of a row and a column, added in runs of `n` (R102, R106). -/
def runDot (n : Nat) (acc : Nat) (ps : List FVal) : Nat × FFlags := (chunks n ps.length ps).foldl addRun (acc, 0#5)

/-- The exact product, or what is not one. -/
def prodV (a b : FVal) : FVal := (mulV a b).1

/-- A segment's sum added into an accumulator (R103). -/
def addSegment (acc : Nat × FFlags) (s e : Int) : Nat × FFlags :=
  if s = 0 then acc
  else
    let (r, fl) := addV f32 0 (unpack f32 acc.1) (.fin (decide (s < 0)) s.natAbs e)
    (r, acc.2 ||| fl)

/-- BFP times BFP (R103): the sum of the open segment and its exponent go along. -/
def bfpDot (ma mb : Nat) : List (BfpElem × BfpElem) → Nat × FFlags → Int → Int → Nat × FFlags
  | [], acc, s, e => addSegment acc s e
  | (x, y) :: r, acc, s, e =>
    let e' : Int := (x.exp : Int) - 127 - (ma - 1) + ((y.exp : Int) - 127 - (mb - 1))
    if x.start || y.start then bfpDot ma mb r (addSegment acc s e) (x.mant * y.mant) e'
    else bfpDot ma mb r acc (s + x.mant * y.mant) e

/-- Integer products added one at a time (R104): the accumulator, and whether a saturating pair clamped. -/
def intDot (sat : Bool) : List (Int × Int) → Int → Bool → Int × Bool
  | [], acc, c => (acc, c)
  | (x, y) :: r, acc, c =>
    let v := acc + x * y
    if sat then
      if v < -(2 ^ 31 : Int) then intDot sat r (-(2 ^ 31 : Int)) true
      else if (2 ^ 31 - 1 : Int) < v then intDot sat r (2 ^ 31 - 1) true
      else intDot sat r v c
    else intDot sat r (signedOf 32 (v % (2 ^ 32 : Int)).toNat) c

/-- FP64 products added one at a time (R105). -/
def f64Dot (acc : Nat) (l : List (Nat × Nat)) : Nat × FFlags :=
  l.foldl (fun a e => let (r, fl) := ffma f64 0 e.1 e.2 a.1; (r, a.2 ||| fl)) (acc, 0#5)

/-! ## The whole product (R317) -/

/-- One operand as it is summed: 64 lines of K elements. -/
inductive Operand where
  | bits (l : List (List Nat))
  | val (l : List (List FVal))
  | bfp (m : Nat) (l : List (List BfpElem))
deriving DecidableEq, Repr

/-- What an MMA leaves: the elements by 64 * row + column, in one tile or two, the flags, the status bits. -/
structure MmaOut where
  lo : List Nat
  hi : List Nat := []
  fl : FFlags := 0#5
  status : Nat := 0
deriving DecidableEq, Repr

/-- The 64 lines of an operand as bits: rows of A (`isA`), or columns of B (R306). -/
def operandBits (data : Store 8) (r : BitVec 64) (isA tb : Bool) (k : Nat) : List (List Nat) :=
  (List.range 64).map fun i => (List.range k).map fun j =>
    if isA then matrixElem data r 64 k i j else if tb then matrixElem data r 64 k i j else matrixElem data r k 64 j i

/-- The 64 rows of a BFP operand, with the status bits and flags of reading them (R96, R97). -/
def operandBfp (data : Store 8) (r : BitVec 64) (k : Nat) : List (List BfpElem) × Nat :=
  let rows := (List.range 64).map fun i => bfpRow data r i k
  (rows.map Prod.fst, (if rows.any fun x => x.2.1 then 1 else 0) + (if rows.any fun x => x.2.2 then 2 else 0))

/-- The lines of a float operand, or of a BFP one, as values. -/
def operandVals (data : Store 8) (r : BitVec 64) (isA tb : Bool) (k : Nat) : List (List FVal) × Nat :=
  let f := recFmt r
  if fmtBfp f then
    let (l, st) := operandBfp data r k
    (l.map fun row => row.map (BfpElem.val (fmtBits f)), st)
  else ((operandBits data r isA tb k).map fun row => row.map fun x => unpack (floatFmt f) (if f = 2 then fp19Of x else x), 0)

/-- Every output element of a product: `dot` of line i of A, line j of B, and the number of the element. -/
def outer {α β : Type} (a : List α) (b : List α) (dot : α → α → Nat → β) : List β :=
  (a.zipIdx).flatMap fun x => (b.zipIdx).map fun y => dot x.1 y.1 (64 * x.2 + y.2)

/-- The flags of a list of results. -/
def joinFlags (l : List (Nat × FFlags)) : FFlags := l.foldl (fun f e => f ||| e.2) 0#5

/-- The real and imaginary parts of a complex element. -/
def complexOf (f x : Nat) : FVal × FVal :=
  let t := floatFmt f
  let w := t.width
  (unpack t (x % 2 ^ w), unpack t (x / 2 ^ w % 2 ^ w))

/-- A(64 × K) · B(K × 64) added to the accumulator (R317): `lo` and `hi` read it, 0 under OVW. -/
def mmaCompute (pair : Nat) (tb : Bool) (k : Nat) (a b : Store 8) (ra rb : BitVec 64) (lo hi : Nat → Nat) : MmaOut :=
  if pair = 0 then
    let r := outer (operandBits a ra true tb k) (operandBits b rb false tb k) fun x y n => f64Dot (lo n + 2 ^ 32 * hi n) (x.zip y)
    { lo := r.map fun e => e.1 % 2 ^ 32, hi := r.map fun e => e.1 / 2 ^ 32, fl := joinFlags r }
  else if pairTwo pair then
    let f := recFmt ra
    let la := (operandBits a ra true tb k).map fun row => row.map (complexOf f)
    let lb := (operandBits b rb false tb k).map fun row => row.map (complexOf f)
    let re := outer la lb fun x y n => runDot 32 (lo n) ((x.zip y).flatMap fun e => [prodV e.1.1 e.2.1, negV (prodV e.1.2 e.2.2)])
    let im := outer la lb fun x y n => runDot 32 (hi n) ((x.zip y).flatMap fun e => [prodV e.1.1 e.2.2, prodV e.1.2 e.2.1])
    { lo := re.map Prod.fst, hi := im.map Prod.fst, fl := joinFlags re ||| joinFlags im }
  else if pair = 10 then
    let (la, sa) := operandBfp a ra k
    let (lb, sb) := operandBfp b rb k
    let r := outer la lb fun x y n => bfpDot (fmtBits (recFmt ra)) (fmtBits (recFmt rb)) (x.zip y) (lo n, 0#5) 0 0
    let st := sa ||| sb
    { lo := r.map Prod.fst, fl := joinFlags r ||| (if st.testBit 1 then flNV else 0#5), status := st }
  else if 11 ≤ pair ∧ pair ≤ 18 then
    let sat := pair % 2 == 0
    let conv := fun (f : Nat) (l : List (List Nat)) => l.map fun row => row.map (intElem f)
    let r := outer (conv (recFmt ra) (operandBits a ra true tb k)) (conv (recFmt rb) (operandBits b rb false tb k))
      fun x y n => intDot sat (x.zip y) (signedOf 32 (lo n)) false
    { lo := r.map fun e => (e.1 % (2 ^ 32 : Int)).toNat, status := if r.any fun e => e.2 then 4 else 0 }
  else
    let (la, sa) := operandVals a ra true tb k
    let (lb, sb) := operandVals b rb false tb k
    let r := outer la lb fun x y n => runDot 16 (lo n) ((x.zip y).map fun e => prodV e.1 e.2)
    let st := sa ||| sb
    { lo := r.map Prod.fst, fl := joinFlags r ||| (if st.testBit 1 then flNV else 0#5), status := st }

/-! ## The quantiser (R100, R101) -/

/-- ex(x) of a value that is not zero and not a NaN (R100). -/
def exQ (x : FVal) : Option Int :=
  match x with
  | .nan _ => none
  | .inf _ => some 128
  | .fin _ m e => if m = 0 then none else some (exOf m e)

/-- The block starts of a half-row (R100), from local index `i` on; the starts so far, the newest first. -/
def quantStarts (delta : Int) : Nat → List FVal → Option Int → Nat → List Nat → List Nat
  | _, [], _, _, starts => starts.reverse
  | i, x :: r, ref, blen, starts =>
    match exQ x with
    | none => quantStarts delta (i + 1) r ref (blen + 1) starts
    | some e =>
      match ref with
      | none => quantStarts delta (i + 1) r (some e) (blen + 1) starts
      | some q =>
        if delta < ((e - q).natAbs : Int) ∧ 2 ≤ blen ∧ i ≤ 30 ∧ starts.length < 8 then
          quantStarts delta (i + 1) r (some e) 1 (i :: starts)
        else quantStarts delta (i + 1) r (some (max q e)) (blen + 1) starts

/-- round_rne(x / scale(e)) of a value for m-bit mantissas (R101); a large number for an infinity. -/
def quantRound (m : Nat) (e : Int) (x : FVal) : Int :=
  match x with
  | .nan _ => 0
  | .inf n => if n then -(2 ^ 300 : Int) else 2 ^ 300
  | .fin n v k =>
    let (r, _) := roundAt 0 n v k (e - 127 - (m - 1))
    if n then -(r : Int) else r

/-- The exponent of a block (R101). -/
def quantExp (m : Nat) (l : List FVal) : Nat :=
  if l.all fun x => (exQ x).isNone then 0
  else
    let fits := fun (e : Nat) => l.all fun x =>
      let v := quantRound m e x
      decide (-(2 ^ (m - 1) : Int) ≤ v) && decide (v ≤ 2 ^ (m - 1) - 1)
    (((List.range 254).map (· + 1)).find? fits).getD 254

/-- A mantissa and the flags of one element (R101). -/
def quantElem (m e : Nat) (x : FVal) : Int × FFlags :=
  match x with
  | .nan _ => (0, flNV)
  | _ =>
    let v := quantRound m e x
    let lo : Int := -(2 ^ (m - 1) : Int)
    let hi : Int := 2 ^ (m - 1) - 1
    let mant := if e = 0 then 0 else max lo (min hi v)
    let fl : FFlags :=
      match x with
      | .inf _ => flOF ||| flNX
      | .fin n k q =>
        let same := match cmpV (.fin n k q) (.fin (decide (mant < 0)) mant.natAbs ((e : Int) - 127 - (m - 1))) with
          | some .eq => true
          | _ => false
        (if e ≠ 0 ∧ mant ≠ v then flOF else 0#5) ||| (if k ≠ 0 ∧ mant = 0 then flUF else 0#5) ||| (if same then 0#5 else flNX)
      | .nan _ => 0#5
    (mant, fl)

/-- A half-row quantised: its starts, its exponents, its mantissas, the flags (R100, R101). -/
def quantise (m delta : Nat) (l : List FVal) : List Nat × List Nat × List Int × FFlags :=
  let d : Int := if delta = 0 then 1 else if 8 < delta then 8 else delta
  let starts := quantStarts d 0 l none 0 [0]
  let ends := starts.tail ++ [l.length]
  let blocks := (starts.zip ends).map fun b => (l.drop b.1).take (b.2 - b.1)
  let exps := blocks.map (quantExp m)
  let out := (blocks.zip exps).flatMap fun b => b.1.map (quantElem m b.2)
  (starts, exps, out.map Prod.fst, out.foldl (fun f e => f ||| e.2) 0#5)

/-- The data of a slot after a half-row is written (R310). -/
def quantWrite (data : Store 8) (r : BitVec 64) (m row half : Nat) (q : List Nat × List Nat × List Int × FFlags) : Store 8 :=
  let bm := recBMO r + 8 * row
  let ex := recEXO r + 16 * row
  let low := readBytes data bm 4
  let bits := q.1.foldl (fun a i => a ||| 2 ^ i) 0
  let b0 := ((List.range 32).filter fun i => i == 0 || low.testBit i).length
  let strip := leNat (bytesAt data ex 16)
  let exps := q.2.1.zipIdx.foldl (fun a e => a + e.1 * 256 ^ e.2) 0
  let data :=
    if half = 0 then writeBytes (writeBytes data bm 8 bits) ex 16 exps
    else writeBytes (writeBytes data (bm + 4) 4 bits) ex 16 (strip % 256 ^ b0 + exps * 256 ^ b0)
  let mants := q.2.2.1.zipIdx.foldl (fun a e => a + (e.1 % (2 ^ m : Int)).toNat * 2 ^ (m * e.2)) 0
  writeBytes data (recDO r + 8 * m * row + 4 * m * half) (4 * m) mants

end Sys2Proof.Machine
end

