-- ==== Sys2Proof/Machine/Matrix.lean ====
section
/-! DEFINITION. Sys2Proof/Machine/Matrix.lean: operand slots, accumulator tiles, the rendezvous latch and the matrix array
(12_matrix_engine.md, R302 to R320; 05_groups_and_control.md, R136, R137). Slots stand at 0 to 15 of the orders, tiles at 16 to 23. -/

namespace Sys2Proof.Machine

/-! ## Ownership and orders (R303, R308, R312) -/

/-- The slot, and the tile, of a core with a number. -/
def State.opSlot (s : State) (core n : Nat) : Option OpSlot := keyFind (s.core core).slots n
def State.tile (s : State) (core n : Nat) : Option AccTile := keyFind (s.core core).tiles n

/-- Whether the group in a slot of a core is the issuing group, or one that its sys.gang names (R303). -/
def State.inGang (s : State) (team owner : Nat) : Bool :=
  team == s.g.team &&
    (owner == s.g.slot ||
      match s.group s.g.core owner with
      | some g => g.team == s.g.team && bitOf s.g.sys.gang g.gid
      | none => false)

/-- Whether the issuing group may act on a slot, on a tile (R303). -/
def State.ownsSlot (s : State) (n : Nat) : Bool :=
  match s.opSlot s.g.core n with
  | some o => !o.releasing && s.inGang o.team o.owner
  | none => false
def State.ownsTile (s : State) (n : Nat) : Bool :=
  match s.tile s.g.core n with
  | some o => !o.releasing && s.inGang o.team o.owner
  | none => false

/-- Whether everything before in the order of a slot or a tile has taken effect, and its zeroing is complete (R304, R308). -/
def State.orderFree (s : State) (core n : Nat) : Bool :=
  if n < 16 then
    match s.opSlot core n with
    | some o => o.order.isEmpty && !o.zeroing
    | none => true
  else
    match s.tile core (n - 16) with
    | some o => o.order.isEmpty && !o.zeroing
    | none => true

/-- Whether a slot or a tile is being zeroed. -/
def State.zeroingAt (s : State) (core n : Nat) : Bool :=
  if n < 16 then ((s.opSlot core n).map OpSlot.zeroing).getD false else ((s.tile core (n - 16)).map AccTile.zeroing).getD false

/-- A token put at the end of an order. -/
def State.token (s : State) (core n id : Nat) : State :=
  s.modCore core fun k =>
    if n < 16 then { k with slots := keyModify k.slots n fun o => { o with order := o.order ++ [id] } }
    else { k with tiles := keyModify k.tiles (n - 16) fun o => { o with order := o.order ++ [id] } }

/-- Whether what has its place by number `id` stands behind the release of its claim: the slot or tile is free, or has been claimed anew. -/
def State.lostAt (s : State) (core n id : Nat) : Bool :=
  match (if n < 16 then (s.opSlot core n).map OpSlot.claim else (s.tile core (n - 16)).map AccTile.claim) with
  | none => true
  | some c => decide (id < c)

/-- Whether operation `id` is at its turn in an order (R308, R312); with its claim released it has nothing more to wait for (log 68). -/
def State.atTurn (s : State) (core n id : Nat) : Bool :=
  s.lostAt core n id ||
    (!s.zeroingAt core n &&
      (if n < 16 then ((s.opSlot core n).map fun o => o.order.head? == some id).getD true
      else ((s.tile core (n - 16)).map fun o => o.order.head? == some id).getD true))

/-- What reading a slot, and a tile, gives behind the release of its claim: the spec states no value (log 68). -/
def freeSlot (x : Nat) : OpSlot :=
  { owner := 0, team := 0, data := storeFill [] (List.range 16384) fun a => Config.freeByte (2 ^ 21 * x + a)
    record := BitVec.ofNat 64 (leNat ((List.range 8).map fun i => Config.freeByte (2 ^ 21 * x + 16384 + i))) }
def freeTile (x : Nat) : AccTile :=
  let word := fun i => BitVec.ofNat 32 (leNat ((List.range 4).map fun j => Config.freeByte (2 ^ 21 * x + 4 * i + j)))
  { owner := 0, team := 0, data := storeFill [] (List.range 4096) word, status := word 4096 }

/-- The slots and tiles `lost` as what has lost its claim on them meets them: values that nothing constrains, and no one else's data. -/
def State.lend (s : State) (core : Nat) (lost : List Nat) : State :=
  lost.foldl (fun (s : State) n => ({ s with nextId := s.nextId + 1 } : State).modCore core fun k =>
    if n < 16 then { k with slots := keyPut k.slots n (freeSlot s.nextId) }
    else { k with tiles := keyPut k.tiles (n - 16) (freeTile s.nextId) }) s

/-- The slots and tiles `lost` again as they stand in `old`: nothing that was done to them remains. -/
def State.takeBack (s old : State) (core : Nat) (lost : List Nat) : State :=
  lost.foldl (fun s n => s.modCore core fun k =>
    if n < 16 then
      match old.opSlot core n with
      | some o => { k with slots := keyPut k.slots n o }
      | none => { k with slots := keyDrop k.slots n }
    else
      match old.tile core (n - 16) with
      | some o => { k with tiles := keyPut k.tiles (n - 16) o }
      | none => { k with tiles := keyDrop k.tiles (n - 16) }) s

/-- Whether the issuing group may act on a slot; an instruction that has its place in the slot's order has passed this check. -/
def State.mayAct (s : State) (n : Nat) : Bool := s.p.turn.isSome || s.ownsSlot n

/-- A failed check of ownership or range (R303). -/
def noSlot (s : State) : Out := .next (s.trap { cause := cSPBOUND, lanes := some 0#32 })


/-- The places that token `id` has in orders given up. -/
def State.leaveOrders (s : State) (core id : Nat) (names : List Nat) : State := names.foldl (fun s n => s.tokenDone core n id) s

/-- An instruction that acts on slots and tiles takes its place in their orders, and acts when it is at its turn in each (R308, R312); until
then its group issues nothing else (R303). Its places are given up when it has acted. Behind the release of a claim it acts on nothing
(log 68). -/
def inOrder (names : List Nat) (s : State) (k : State → Out) : Out :=
  let core := s.g.core
  match s.p.turn with
  | some id =>
    match names.find? fun n => !s.atTurn core n id with
    | some n => .next (s.stall (.slotOrder n))
    | none =>
      let lost := names.filter fun n => s.lostAt core n id
      match k ({ s with p := { s.p with turn := none } }.lend core lost) with
      | .next t => .next ((t.takeBack s core lost).leaveOrders core id names)
      | out => out
  | none =>
    match names.find? fun n => !s.orderFree core n with
    | none => k s
    | some n =>
      let id := s.nextId
      let s := names.foldl (fun s n => s.token core n id) { s with nextId := id + 1, p := { s.p with turn := some id, stage := 1 } }
      .next (s.stall (.slotOrder n))

/-- The roles of major 0x3D and of MMA: M and G (Table 3.8). -/
def mgRoles : BitVec 4 := 0xA#4

/-! ## Slots (R304, R305, R309, R310) -/

/-- OCLAIM (R304). -/
def execOclaim (d : BitVec 7) (i : BitVec 4) (s : State) : Out :=
  issue { wr := [.s d 1], roles := mgRoles } s fun s =>
    let n := i.toNat
    let core := s.g.core
    match s.opSlot core n with
    | some o =>
      let mine := o.owner = s.g.slot ∧ o.team = s.g.team ∧ o.releasing = false
      .next (s.writeS d (if mine then 2#32 else 1#32)).retire
    | none =>
      let o : OpSlot := { owner := s.g.slot, team := s.g.team, claim := s.nextId, zeroing := true }
      let s := ({ s with nextId := s.nextId + 1 } : State).modCore core fun k => { k with slots := keyPut k.slots n o }
      .next ((s.after 64 (.zeroingComplete core n)).writeS d 0#32).retire

/-- ORELEASE (R304): the issuing group's own claim alone; the slot is free when everything before in its order has taken effect. -/
def execOrelease (i : BitVec 4) (s : State) : Out :=
  issue { roles := mgRoles } s fun s =>
    let n := i.toNat
    match s.opSlot s.g.core n with
    | some o =>
      if o.owner = s.g.slot ∧ o.team = s.g.team then
        inOrder [n] s fun s => .next (s.modCore s.g.core fun k => { k with slots := keyDrop k.slots n }).retire
      else .next s.retire
    | none => .next s.retire

/-- OSETFMT (R305). -/
def execOsetfmt (r : BitVec 7) (i : BitVec 4) (s : State) : Out :=
  issue { rd := [.s r 2], roles := mgRoles } s fun s =>
    let n := i.toNat
    if !s.mayAct n then noSlot s
    else if !recordOk (s.readS64 r) then noSlot s
    else inOrder [n] s fun s =>
      .next (s.modCore s.g.core fun k => { k with slots := keyModify k.slots n fun o => { o with record := s.readS64 r } }).retire

/-- The check of a byte offset in a slot (R309); an instruction that has to wait for its turn pops its sources at its issue (R47). -/
def withSlotOff (r : BitVec 7) (rd : List (BitVec 8)) (n : Nat) (s : State) (k : Nat → State → Out) : Out :=
  let o := (s.readS r).toNat
  if !s.mayAct n then noSlot s
  else if o % 128 ≠ 0 then .next (s.trap { cause := cMISALIGN, lanes := some 0#32 })
  else if 16384 ≤ o then noSlot s
  else inOrder [n] (s.takeSources rd) (k o)

/-- OFILL (R309). -/
def execOfill (r : BitVec 7) (i : BitVec 4) (d : BitVec 8) (s : State) : Out :=
  issue { rd := [.s r 1, .v d 1], roles := mgRoles } s fun s =>
    let n := i.toNat
    withSlotOff r [d] n s fun o s =>
      let f := s.vsource d
      let s := s.modCore s.g.core fun k => { k with slots := keyModify k.slots n fun x =>
        { x with data := (laneList.filter (bitOf s.p.exec)).foldl (fun m l => writeBytes m (o + 4 * l) 4 (f l).toNat) x.data } }
      .next (s.popSources [d]).retire

/-- The data and the record of a slot. -/
def State.slotData (s : State) (n : Nat) : Store 8 := ((s.opSlot s.g.core n).map OpSlot.data).getD []
def State.slotRecAt (s : State) (core n : Nat) : BitVec 64 := ((s.opSlot core n).map OpSlot.record).getD 0#64
def State.slotRec (s : State) (n : Nat) : BitVec 64 := s.slotRecAt s.g.core n

/-- OREAD (R309). -/
def execOread (r : BitVec 7) (i : BitVec 4) (d : BitVec 8) (s : State) : Out :=
  issue { rd := [.s r 1], wr := [.v d 1], roles := mgRoles } s fun s =>
    withSlotOff r [] i.toNat s fun o s =>
      syncResult [] d (fun l => BitVec.ofNat 32 (readBytes (s.slotData i.toNat) (o + 4 * l) 4)) s

/-- OREAD.REC (R309). -/
def execOreadRec (i : BitVec 4) (d : BitVec 8) (s : State) : Out :=
  issue { wr := [.v d 1], roles := mgRoles } s fun s =>
    if !s.mayAct i.toNat then noSlot s
    else inOrder [i.toNat] s fun s =>
      let r := s.slotRec i.toNat
      syncResult [] d (fun l => if l = 0 then lo32 r else if l = 1 then hi32 r else 0#32) s

/-- QBFP (R310): the lanes and the flags are of the issue; the slot is written at completion, in its order. -/
def execQbfp (r : BitVec 7) (i : BitVec 4) (d : BitVec 8) (s : State) : Out :=
  issue { rd := [.s r 1, .v d 1], modx := { flag := true }, roles := mgRoles } s fun s =>
    let n := i.toNat
    let ctl := s.readS r
    let row := field ctl 9 4
    let half := field ctl 10 10
    let delta := field ctl 3 0
    let record := s.slotRec n
    let m := fmtBits (recFmt record)
    if !s.ownsSlot n then noSlot s
    else if !fmtBfp (recFmt record) || decide (16384 < recBMO record + 8 * row + 8) || decide (16384 < recEXO record + 16 * row + 16) ||
        decide (16384 < recDO record + 8 * m * row + 4 * m * half + 4 * m) then noSlot s
    else if s.zeroingAt s.g.core n then .next (s.stall (.slotOrder n))
    else
      let f := s.vsource d
      let q := quantise m delta (laneList.map fun l => unpack f32 (f l).toNat)
      let id := s.nextId
      let s := (s.popSources [d]).startFlag 20 { fl := q.2.2.2 } [] [] (some (.qbfp n m row half delta (storeFill [] laneList f)))
      .next (s.token s.g.core n id).retire

/-! ## Tiles (R311 to R314) -/

/-- ACLAIM (R311). -/
def execAclaim (d : BitVec 7) (i : BitVec 3) (s : State) : Out :=
  issue { wr := [.s d 1], roles := mgRoles } s fun s =>
    let n := i.toNat
    let core := s.g.core
    match s.tile core n with
    | some o =>
      let mine := o.owner = s.g.slot ∧ o.team = s.g.team ∧ o.releasing = false
      .next (s.writeS d (if mine then 2#32 else 1#32)).retire
    | none =>
      let o : AccTile := { owner := s.g.slot, team := s.g.team, claim := s.nextId, zeroing := true }
      let s := ({ s with nextId := s.nextId + 1 } : State).modCore core fun k => { k with tiles := keyPut k.tiles n o }
      .next ((s.after 64 (.zeroingComplete core (16 + n))).writeS d 0#32).retire

/-- ARELEASE (R311): the tile is free when everything before in its order has taken effect, the MMAs in flight on it among that. -/
def execArelease (i : BitVec 3) (s : State) : Out :=
  issue { roles := mgRoles } s fun s =>
    let n := i.toNat
    match s.tile s.g.core n with
    | some o =>
      if o.owner = s.g.slot ∧ o.team = s.g.team then
        inOrder [16 + n] s fun s => .next (s.modCore s.g.core fun k => { k with tiles := keyDrop k.tiles n }).retire
      else .next s.retire
    | none => .next s.retire

/-- Whether a released MMA names a tile (R312). -/
def Mma.names (m : Mma) (n : Nat) : Bool := m.acc == n || (pairTwo m.pair && m.acc + 1 == n)

/-- An access to a tile: ownership; ACCBUSY while an MMA that names it has not completed (R312); then it goes on. One that has its place in
the tile's order has passed these checks. -/
def withTile (n : Nat) (s : State) (k : State → Out) : Out :=
  if s.p.turn.isSome then k s
  else if !s.ownsTile n then noSlot s
  else
    match (s.core s.g.core).mmas.find? fun m => m.names n with
    | some m => .next (s.trap { cause := cACCBUSY, infoA := BitVec.ofNat 32 n, infoB := BitVec.ofNat 32 m.seq })
    | none => k s

/-- A tile with every element given, and its status word cleared (R313). -/
def State.fillTile (s : State) (core n : Nat) (data : Store 32) : State :=
  s.modCore core fun k => { k with tiles := keyModify k.tiles n fun o => { o with data := data, status := 0#32 } }

/-- A store of the numbers below `n` with a value each. -/
def storeTable {w : Nat} (n : Nat) (f : Nat → BitVec w) : Store w :=
  (List.range n).filterMap fun i => if f i = 0#w then none else some (i, f i)

/-- AINIT (R313). -/
def execAinit (i : BitVec 3) (s : State) : Out :=
  issue { roles := mgRoles } s fun s =>
    withTile i.toNat s fun s => inOrder [16 + i.toNat] s fun s => .next (s.fillTile s.g.core i.toNat []).retire

/-- AINIT.SET (R313). -/
def execAinitSet (r : BitVec 7) (i : BitVec 3) (s : State) : Out :=
  issue { rd := [.s r 1], roles := mgRoles } s fun s =>
    withTile i.toNat s fun s => inOrder [16 + i.toNat] s fun s =>
      .next (s.fillTile s.g.core i.toNat (storeTable 4096 fun _ => s.readS r)).retire

/-- AINIT.SLOT (R313). -/
def execAinitSlot (r : BitVec 7) (i : BitVec 3) (s : State) : Out :=
  issue { rd := [.s r 1], roles := mgRoles } s fun s =>
    withTile i.toNat s fun s =>
      let n := field (s.readS r) 3 0
      if !s.mayAct n then noSlot s
      else inOrder [16 + i.toNat, n] s fun s =>
        .next (s.fillTile s.g.core i.toNat (storeTable 4096 fun e => BitVec.ofNat 32 (readBytes (s.slotData n) (4 * e) 4))).retire

/-- A flag-class access to a tile begins, with its place in the tile's order (R312, R314). -/
def tileOp (clk n : Nat) (act : OpAct) (vdst : List Nat) (s : State) : Out :=
  withTile n s fun s =>
    if s.zeroingAt s.g.core (16 + n) then .next (s.stall (.slotOrder (16 + n)))
    else
      let id := s.nextId
      let s := s.startFlag clk {} vdst [] (some act)
      .next (s.token s.g.core (16 + n) id).retire

/-- The uses of a flag-class tile access. -/
def tileUses (rd wr : List Reg) : Uses := { rd := rd, wr := wr, modx := { flag := true }, roles := mgRoles }

/-- ALD (R314). -/
def execAld (r : BitVec 7) (i : BitVec 3) (d : BitVec 8) (s : State) : Out :=
  issue (tileUses [.s r 1] [.v d 2]) s fun s =>
    tileOp 12 i.toNat (.ald i.toNat false (field (s.readS r) 5 0) d.toNat s.p.exec) [d.toNat, d.toNat + 1] s

/-- ALD.COL (R314). -/
def execAldCol (r : BitVec 7) (i : BitVec 3) (d : BitVec 8) (s : State) : Out :=
  issue (tileUses [.s r 1] [.v d 2]) s fun s =>
    tileOp 12 i.toNat (.ald i.toNat true (field (s.readS r) 5 0) d.toNat s.p.exec) [d.toNat, d.toNat + 1] s

/-- ALD.STAT (R314). -/
def execAldStat (i : BitVec 3) (d : BitVec 8) (s : State) : Out :=
  issue (tileUses [] [.v d 1]) s fun s => tileOp 6 i.toNat (.aldStat i.toNat d.toNat s.p.exec) [d.toNat] s

/-- The lanes of a vector register as a store. -/
def Group.vstore (g : Group) (n : Nat) : Store 32 := storeFill [] laneList (g.vreg n)

/-- AST (R314). -/
def execAst (r : BitVec 7) (i : BitVec 3) (d : BitVec 8) (s : State) : Out :=
  issue (tileUses [.s r 1, .v d 2] []) s fun s =>
    tileOp 12 i.toNat (.ast i.toNat false (field (s.readS r) 5 0) (s.g.vstore d.toNat) (s.g.vstore (d.toNat + 1)) s.p.exec) [] s

/-- AST.COL (R314). -/
def execAstCol (r : BitVec 7) (i : BitVec 3) (d : BitVec 8) (s : State) : Out :=
  issue (tileUses [.s r 1, .v d 2] []) s fun s =>
    tileOp 12 i.toNat (.ast i.toNat true (field (s.readS r) 5 0) (s.g.vstore d.toNat) (s.g.vstore (d.toNat + 1)) s.p.exec) [] s

/-- The number of element `x` of lane `l`, of the first half or the second (R314). -/
def tileAt (col : Bool) (x l : Nat) : Nat := if col then 64 * l + x else 64 * x + l

/-- What a flag-class operation does at its completion to the slot or the tile it acts on: the state, and its register writes (R310,
R314). QBFP writes where the record says that stands at its turn: one that another member's OSETFMT has changed since its issue (log 68). -/
def State.matrixAct (s : State) (core : Nat) (act : OpAct) : State × Writes :=
  match act with
  | .ald n col x dst mask =>
    let data := ((s.tile core n).map AccTile.data).getD []
    let row := fun h => storeFill ([] : Store 32) laneList fun l => storeRead data (tileAt col x (h + l))
    (s, { v := [(dst, mask, row 0), (dst + 1, mask, row 32)] })
  | .aldStat n dst mask =>
    let st := ((s.tile core n).map AccTile.status).getD 0#32
    (s, { v := [(dst, mask, storeFill [] laneList fun _ => st)] })
  | .ast n col x lo hi mask =>
    let put := fun (src : Store 32) (h : Nat) (m : Store 32) =>
      (laneList.filter (bitOf mask)).foldl (fun m l => storeWrite m (tileAt col x (h + l)) (storeRead src l)) m
    (s.modCore core fun k => { k with tiles := keyModify k.tiles n fun o => { o with data := put hi 32 (put lo 0 o.data) } }, {})
  | .qbfp n m row half delta src =>
    let q := quantise m delta (laneList.map fun l => unpack f32 (storeRead src l).toNat)
    (s.modCore core fun k => { k with slots := keyModify k.slots n fun o => { o with data := quantWrite o.data o.record m row half q } }, { fl := q.2.2.2 })
  | _ => (s, {})

/-- The order that an action has its place in. -/
def OpAct.order : OpAct → Option Nat
  | .ald n _ _ _ _ => some (16 + n)
  | .aldStat n _ _ => some (16 + n)
  | .ast n _ _ _ _ _ => some (16 + n)
  | .qbfp n _ _ _ _ _ => some n
  | _ => none

/-- The same at its turn, by number: behind the release of its claim it acts on nothing (log 68). -/
def State.actAt (s : State) (core n id : Nat) (act : OpAct) : State × Writes :=
  let lost := if s.lostAt core n id then [n] else []
  let (t, w) := (s.lend core lost).matrixAct core act
  (t.takeBack s core lost, w)

/-- ZEROING_COMPLETE (R304, R311): the data are 0, and what waits for the slot or the tile may go on. -/
def execZeroingComplete (core slot : Nat) (s : State) : Out :=
  .next ((s.modCore core fun k =>
    if slot < 16 then { k with slots := keyModify k.slots slot fun o => { o with data := [], record := 0#64, zeroing := false } }
    else { k with tiles := keyModify k.tiles (slot - 16) fun o => { o with data := [], status := 0#32, zeroing := false } }).settle core slot)

/-! ## The latch (R136, R137, R316) -/

/-- The group index of an MMA held at the latch. -/
def State.latchGid (s : State) (core : Nat) (h : Held32) : Nat := ((s.group core h.slot).map Group.gid).getD 32

/-- A split whose MMA has been released goes on behind it, and P6 of its group is raised (R136). -/
def State.passLatch (s : State) (core : Nat) (h : Held32) : State × Nat :=
  let id := s.nextId
  let s := { s with nextId := id + 1 }
  (s.modGroup core h.slot fun g =>
    { g.modSplit h.split (fun q =>
        { q.goTo s.clock (q.pc + 4#32) with wait := .none }) with
      ops := g.ops ++ [{ id := id, flag := none, path := some 6, command := some core }] }, id)

/-- The same for every member, with their operations by group slot. -/
def State.passAll (s : State) (core : Nat) : List Held32 → State × List (Nat × Nat)
  | [] => (s, [])
  | h :: r =>
    let (s, id) := s.passLatch core h
    let (s, l) := s.passAll core r
    (s, (h.slot, id) :: l)

/-- The release of a gang's MMA (R136, R316): the claims are checked; then it takes its sequence number and its place in the orders. -/
def State.releaseMma (s : State) (core t : Nat) (gang : List Held32) (mask word : Word) : State :=
  let claimed := fun (team owner : Nat) (rel : Bool) => team == t && !rel &&
    match s.group core owner with
    | some g => g.team == t && bitOf mask g.gid
    | none => false
  let pair := field word 31 27
  let acc := field word 24 22
  let sla := field word 17 14
  let slb := field word 21 18
  let slotOk := fun n => ((s.opSlot core n).map fun o => claimed o.team o.owner o.releasing).getD false
  let tileOk := fun n => ((s.tile core n).map fun o => claimed o.team o.owner o.releasing).getD false
  let tiles := if pairTwo pair then [acc, acc + 1] else [acc]
  if slotOk sla && slotOk slb && tiles.all tileOk then
    let (s, members) := s.passAll core gang
    let id := s.nextId
    let k := s.core core
    let m : Mma :=
      { id := id, seq := k.mmaCount.toNat, pair := pair, tb := word.getLsbD 26, ovw := word.getLsbD 25, acc := acc, slb := slb, sla := sla
        k := 8 * (field word 13 11 + 1), team := t, members := members }
    let s := ({ s with nextId := id + 1 }).modCore core fun k => { k with mmas := k.mmas ++ [m], mmaCount := k.mmaCount + 1#16 }
    let names : List Nat := [sla, slb].eraseDups ++ tiles.map fun n => 16 + n
    let s := names.foldl (fun (s : State) n => s.token core n id) s
    s.after (max 1 (k.arrayFree - s.clock)) (.mmaStart core id)
  else gang.foldl (fun s h => s.gangmisAt t h) s

/-- The encoding that an MMA carries to the latch (R136, Table 12.4). -/
def mmaWord (p : BitVec 5) (t o : BitVec 1) (c : BitVec 3) (b a : BitVec 4) (k : BitVec 3) : Word :=
  p ++ t ++ o ++ c ++ b ++ a ++ k ++ 0x79#11

/-- MMA (R136, R137, R315): it enters its team's latch. -/
def execMma (p : BitVec 5) (t o : BitVec 1) (c : BitVec 3) (b a : BitVec 4) (k : BitVec 3) (s : State) : Out :=
  let word := mmaWord p t o c b a k
  issue { roles := mgRoles, path := some 6 } s fun s =>
    let team := s.g.team
    let core := s.g.core
    let latch := s.myTeam.latch
    if latch.any fun h => h.slot == s.g.slot then .next (s.stall .latchFree)
    else
      let m := s.g.sys.gang
      if latch.any fun h => bitOf m (s.latchGid core h) && !(h.mask == m && h.word == word) then
        let hit := latch.filter fun h => h.mask &&& m != 0#32
        let s := s.modTeam team fun tm => { tm with latch := tm.latch.filter fun h => !(h.mask &&& m != 0#32) }
        let s := hit.foldl (fun s h => s.gangmisAt team h) s
        .next (s.trap { cause := cGANGMIS, infoA := m })
      else
        let me : Held32 := { slot := s.g.slot, split := s.p.idx, mask := m, word := word }
        let gang := me :: latch.filter fun h => h.mask == m && h.word == word
        let here := gang.map (s.latchGid core)
        if (List.range 32).all fun g => !bitOf m g || here.contains g then
          let s := s.modTeam team fun tm => { tm with latch := tm.latch.filter fun h => !gang.contains h }
          .next (s.releaseMma core team gang m word)
        else
          let s := (s.modTeam team fun tm => { tm with latch := tm.latch ++ [me] }).stall .latch
          .next { s with p := { s.p.issues s.clock with begun := true, behind := s.cur.pc + BitVec.ofNat 32 s.cur.len, yielded := false } }

/-! ## The array (R316 to R318) -/

/-- Whether everything that a released MMA waits for has taken effect (R308, R312, R318). -/
def State.mmaReady (s : State) (core : Nat) (m : Mma) : Bool :=
  let k := s.core core
  let ids := k.mmas.map Mma.id
  decide (k.arrayFree ≤ s.clock) && (k.mmas.all fun o => o.started || decide (m.id ≤ o.id)) && s.atTurn core m.sla m.id &&
    s.atTurn core m.slb m.id &&
    (if pairTwo m.pair then [m.acc, m.acc + 1] else [m.acc]).all fun n =>
      s.lostAt core (16 + n) m.id || !s.zeroingAt core (16 + n) &&
        ((s.tile core n).map fun o => (o.order.takeWhile (· != m.id)).all ids.contains).getD true

/-- The format check of an MMA at its start (R316). -/
def mmaFormatOk (m : Mma) (ra rb : BitVec 64) : Bool :=
  pairAllows m.pair (recFmt ra) (recFmt rb) && (!fmtBfp (recFmt rb) || m.tb) && recordFits ra (64 * m.k) && recordFits rb (64 * m.k)

/-- MMA_START (R318): the array reads both slots. -/
def execMmaStart (core mma : Nat) (s : State) : Out :=
  match (s.core core).mmas.find? fun m => m.id == mma && !m.started with
  | none => .next s
  | some m =>
    if !s.mmaReady core m then .next (s.after 2 (.mmaStart core mma))
    else
      let read := fun n => if s.lostAt core n m.id then freeSlot (s.nextId + n) else (s.opSlot core n).getD (freeSlot (s.nextId + n))
      let ra := (read m.sla).record
      let rb := (read m.slb).record
      let ok := mmaFormatOk m ra rb
      let busy := if ok then occupancy m.pair (recFmt ra) (recFmt rb) m.k else 2
      let m' := { m with
        started := true, fmtErr := !ok, recA := ra, recB := rb
        a := (read m.sla).data, b := (read m.slb).data }
      let s := ({ s with nextId := s.nextId + 16 } : State).modCore core fun k =>
        { k with arrayFree := s.clock + busy, mmas := k.mmas.map fun o => if o.id = mma then m' else o }
      let s := (s.tokenDone core m.sla mma).tokenDone core m.slb mma
      .next (s.after (if ok then busy + 24 else busy) (.mmaComplete core mma))

/-- The elements of a tile written for an MMA, with bits of its status word; of a tile whose claim has been released the result is discarded
(R311). -/
def State.writeTile (s : State) (core n id : Nat) (data : Option (List Nat)) (status : Nat) : State :=
  if s.lostAt core (16 + n) id then s
  else
  s.modCore core fun k => { k with tiles := keyModify k.tiles n fun o =>
    { o with
      data := match data with
        | some l => (l.zipIdx).filterMap fun e => if e.1 % 2 ^ 32 = 0 then none else some (e.2, BitVec.ofNat 32 e.1)
        | none => o.data
      status := o.status ||| BitVec.ofNat 32 status } }

/-- MMA_COMPLETE (R317, R318): the tile is written, the flags go to every member that is still there, and P6 of each is lowered. -/
def execMmaComplete (core mma : Nat) (s : State) : Out :=
  match (s.core core).mmas.find? fun m => m.id == mma && m.started with
  | none => .next s
  | some m =>
    if (s.core core).mmas.any fun o => decide (o.id < mma) then .next (s.after 1 (.mmaComplete core mma))
    else
      let data := fun n => ((s.tile core n).map AccTile.data).getD []
      let lo := fun i => if m.ovw then 0 else (storeRead (data m.acc) i).toNat
      let hi := fun i => if m.ovw then 0 else (storeRead (data (m.acc + 1)) i).toNat
      let tiles := if pairTwo m.pair then [m.acc, m.acc + 1] else [m.acc]
      let (s, fl) :=
        if m.fmtErr then (tiles.foldl (fun s n => s.writeTile core n mma none 8) s, (0#5 : FFlags))
        else
          let r := mmaCompute m.pair m.tb m.k m.a m.b m.recA m.recB lo hi
          let s := s.writeTile core m.acc mma (some r.lo) r.status
          (if pairTwo m.pair then s.writeTile core (m.acc + 1) mma (some r.hi) r.status else s, r.fl)
      let s := s.modCore core fun k => { k with mmas := k.mmas.filter fun o => o.id != mma }
      let s := tiles.foldl (fun s n => s.tokenDone core (16 + n) mma) s
      .next (m.members.foldl (fun s e => if (s.group core e.1).any fun g => (g.op e.2).isSome then s.finishOp core e.1 e.2 { fl := fl } else s) s)

end Sys2Proof.Machine
end

