-- ==== Sys2Proof/Machine/Copy.lean ====
section
/-! DEFINITION. Sys2Proof/Machine/Copy.lean: the copy engines and the barrier instructions (11_copy_engines.md, R276 to R300). A row of a
command is read and written in one step (R281, R297). -/

namespace Sys2Proof.Machine

/-! ## The descriptor (R279 to R282) -/

/-- `n` bytes of a descriptor, held as a little-endian number, from byte `i` on. -/
def descField (d i n : Nat) : Nat := d / 256 ^ i % 256 ^ n

/-- A signed 48-bit stride. -/
def stride48 (x : Nat) : Int := signedOf 48 x

/-- A dimension of a box: extent, source stride, destination stride. -/
structure Dim where
  e : Nat
  src : Int
  dst : Int
deriving DecidableEq, Repr

/-- The fields of a copy descriptor (Table 11.2). -/
structure Box where
  n : Nat
  code : Nat
  sk : Nat
  dk : Nat
  src : Nat
  dst : Nat
  dims : List Dim
deriving DecidableEq, Repr

/-- The bytes of an element (Table 11.3). -/
def elemBytes (code : Nat) : Nat := if code ≤ 4 then 2 ^ code else 8 * code

/-- The alignment of an element (Table 11.3). -/
def elemAlign (code : Nat) : Nat := if code ≤ 4 then 2 ^ code else 8

/-- The fields of a descriptor. -/
def boxOf (d : Nat) : Box :=
  { n := descField d 0 1 % 16, code := descField d 1 1 % 16, sk := descField d 2 1 % 4, dk := descField d 2 1 / 4 % 8
    src := descField d 8 8, dst := descField d 16 8
    dims := (List.range (min 9 (descField d 0 1 % 16))).map fun k =>
      { e := descField d (64 + 16 * k) 4, src := stride48 (descField d (68 + 16 * k) 6), dst := stride48 (descField d (74 + 16 * k) 6) } }

def Box.z (b : Box) : Nat := elemBytes b.code
def Box.empty (b : Box) : Bool := b.dims.any fun x => x.e == 0
/-- Whether an element is a row record of its own (R280). -/
def Box.bfp (b : Box) : Bool := decide (5 ≤ b.code)

/-- The dimensions that number the rows (R280). -/
def Box.outer (b : Box) : List Dim := if b.bfp then b.dims else b.dims.tail
/-- The number of rows, and the elements and bytes of one. -/
def Box.rows (b : Box) : Nat := if b.empty then 0 else (b.outer.map Dim.e).foldl (· * ·) 1
def Box.rowElems (b : Box) : Nat := if b.bfp then 1 else (b.dims.head?.map Dim.e).getD 1
def Box.rowBytes (b : Box) : Nat := b.rowElems * b.z

/-- The indices of row `r` in the outer dimensions (R280). -/
def rowIndex : List Dim → Nat → List Nat
  | [], _ => []
  | x :: l, r => r % max 1 x.e :: rowIndex l (r / max 1 x.e)

/-- The sum of indices times strides. -/
def strideSum (l : List (Nat × Int)) : Int := l.foldl (fun a e => a + e.1 * e.2) 0

/-- An i64 address (R280). -/
def addr64 (base : Nat) (x : Int) : Nat := (((base : Int) + x) % (2 ^ 64 : Int)).toNat

/-- The descriptor's other fields. -/
def descUnit (d : Nat) : Bool := (descField d 3 1).testBit 6
def descNobar (d : Nat) : Bool := (descField d 3 1).testBit 7
def descBar (d : Nat) : Nat := descField d 24 4
def descTarget (d : Nat) : Nat := descField d 4 2
def descAux (d i : Nat) : Nat := descField d (32 + i) 4

/-- The source and destination kinds of a command (Table 11.4), by F of Table 11.1. -/
def copyKinds (kind : Nat) : List Nat × List Nat :=
  match kind with
  | 0 => ([0, 1], [0, 1, 3])
  | 1 => ([0, 1], [0, 1])
  | 2 => ([1], [0, 3])
  | 3 => ([0, 1], [2])
  | 4 => ([1], [0, 3])
  | 5 => ([0, 1], [0, 1])
  | _ => ([2], [0, 1, 3])

/-- Check 2 of R282: every zero field is zero, and n lies in 1 to 9. -/
def descZeros (kind d : Nat) : Bool :=
  let b := boxOf d
  decide (1 ≤ b.n) && decide (b.n ≤ 9) && descField d 0 1 / 16 == 0 && descField d 1 1 / 16 == 0 && descField d 2 1 / 32 == 0 &&
    (match b.dk with
      | 1 => descTarget d / 16 == 0 && descField d 6 1 == 0
      | 2 => descTarget d / 4096 == 0 && descField d 6 1 / 32 == 0
      | _ => descTarget d == 0 && descField d 6 1 == 0) &&
    descField d 7 1 == 0 && descField d 28 4 == 0 && (!descNobar d || descBar d == 0) &&
    (match kind with
      | 1 => descField d 36 12 == 0
      | 2 => descField d 36 12 == 0
      | 4 => descField d 44 4 == 0
      | 5 => descField d 36 12 == 0
      | 6 => true
      | _ => descField d 32 16 == 0) &&
    descField d 48 16 == 0 && descField d (64 + 16 * b.n) (192 - 16 * b.n) == 0

/-- Check 3 of R282 with what R286, R288 and R289 add. -/
def descShape (kind d : Nat) : Bool :=
  let b := boxOf d
  let (ok1, ok2) := copyKinds kind
  decide (b.code ≤ 11) && ok1.contains b.sk && ok2.contains b.dk &&
    (match kind with
      | 1 => decide (2 ≤ b.n)
      | 2 => decide (2 ≤ b.n)
      | 4 => decide (b.code ≤ 2) && b.dims.all fun x => x.dst == 0
      | 5 => decide (b.code ≤ 2) && b.dims.all fun x => x.src == 0
      | 6 => decide (b.code ≤ 4)
      | _ => true)

/-- The byte range of a box from a base, as its lowest byte and its length (R282). -/
def boxRange (base z : Nat) (l : List (Nat × Int)) : Int × Nat :=
  let lo := l.foldl (fun a e => a + min 0 (((e.1 : Int) - 1) * e.2)) (0 : Int)
  let hi := l.foldl (fun a e => a + max 0 (((e.1 : Int) - 1) * e.2)) (0 : Int)
  ((base : Int) + lo, (hi - lo).toNat + z)

/-- Whether a box's range from a scratchpad address lies in bounds (R186). -/
def State.boxInBounds (s : State) (t base z : Nat) (l : List (Nat × Int)) : Bool :=
  let (lo, n) := boxRange (base % 2 ^ 20) z l
  decide (base < 2 ^ 24) && decide (0 ≤ lo) &&
    match s.peerOf t (base / 2 ^ 20) with
    | some u => s.deliverable u lo.toNat n
    | none => false

/-- A slot that a group of the team has claimed (R282, R283): it is one until its release has taken effect (R304). -/
def State.slotOfTeam (s : State) (core t n : Nat) : Bool := ((s.opSlot core n).map fun o => o.team == t).getD false

/-- The cluster positions a peer mask names. -/
def maskPositions (m : Nat) : List Nat := (List.range 12).filter m.testBit

/-- Checks 1 to 6 of R282, with R287's. -/
def State.copyChecks (s : State) (kind off d : Nat) : Bool :=
  let t := s.g.team
  let b := boxOf d
  let src := b.dims.map fun x => (x.e, x.src)
  let dst := b.dims.map fun x => (x.e, x.dst)
  off % 64 == 0 && s.ownBounds off 256 && descZeros kind d && descShape kind d &&
    (b.empty || b.sk != 1 || s.boxInBounds t b.src b.z src) &&
    (b.empty || b.dk != 0 || kind == 2 || s.boxInBounds t b.dst b.z dst) &&
    (descNobar d || (descBar d % 16 == 0 && s.ownBounds (descBar d) 16)) &&
    (match kind with
      | 1 => descAux d 0 % 4 == 0 && s.ownBounds (descAux d 0) (4 * ((b.dims[1]?).map Dim.e).getD 0)
      | 2 => descAux d 0 % 4 == 0 && s.ownBounds (descAux d 0) (4 * ((b.dims[1]?).map Dim.e).getD 0)
      | 4 => s.ownBounds (descAux d 0) 1024 && s.ownBounds (descAux d 8) 4
      | 5 => descAux d 0 % 128 == 0 && s.ownBounds (descAux d 0) 20480
      | _ => true) &&
    (match b.dk with
      | 1 =>
        let (lo, n) := boxRange b.dst b.z dst
        s.slotOfTeam s.g.core t (descTarget d) && (b.empty || (decide (0 ≤ lo) && decide (lo.toNat + n ≤ 16384)))
      | 2 =>
        match s.clusterOf t with
        | none => false
        | some c =>
          let m := descTarget d
          m != 0 && decide (m < 2 ^ (c.w * c.h)) && decide (b.dst < 2 ^ 20) &&
            (maskPositions m).all fun p =>
              (s.scopeMask s.g.ctx s.g.core t (descField d 6 1)).getLsbD (c.core + 16 * (p / c.w) + p % c.w)
      | _ => true)

/-- Check 7 of R282. -/
def copyAligned (d : Nat) : Bool :=
  let b := boxOf d
  let a := elemAlign b.code
  let ok := fun (base : Nat) (l : List Int) => base % a == 0 && l.all fun x => x % (a : Int) == 0
  (b.sk == 2 || ok b.src (b.dims.map Dim.src)) && ok b.dst (b.dims.map Dim.dst)

/-! ## Rows and the lines they write (R230, R280, R286) -/

/-- The source and destination addresses of the elements of row `r` (R280, R286). -/
def Box.elems (b : Box) (kind r : Nat) (idx : Nat) : List (Nat × Nat) :=
  let ix := rowIndex b.outer r
  let at1 := if b.bfp then 1 else 0
  let src := (ix.zipIdx.zip b.outer).map fun e => (if kind = 1 ∧ e.1.2 = at1 then idx else e.1.1, e.2.src)
  let dst := (ix.zipIdx.zip b.outer).map fun e => (if kind = 2 ∧ e.1.2 = at1 then idx else e.1.1, e.2.dst)
  let s0 := strideSum src
  let d0 := strideSum dst
  if b.bfp then [(addr64 b.src s0, addr64 b.dst d0)]
  else
    match b.dims with
    | [] => []
    | x :: _ => (List.range x.e).map fun (i : Nat) => (addr64 b.src (s0 + (i : Int) * x.src), addr64 b.dst (d0 + (i : Int) * x.dst))

/-- The place of row `r` in the indexed dimension. -/
def Box.indexed (b : Box) (r : Nat) : Nat := ((rowIndex b.outer r)[if b.bfp then 1 else 0]?).getD 0

/-- A command with the indices read that row `r` needs: each once, in ascending order, as it stands in the index vector (R286). -/
def State.readIdx (s : State) (c : CopyCmd) (b : Box) (r : Nat) : CopyCmd :=
  if c.kind = 1 ∨ c.kind = 2 then
    let n := b.indexed r + 1
    { c with idx := c.idx ++ (span c.idx.length (n - c.idx.length)).map fun j =>
        (s.teamWord c.team (descAux c.desc 0 + 4 * j)).toNat }
  else c

/-- The index that row `r` uses, once it has been read. -/
def CopyCmd.rowIdx (c : CopyCmd) (b : Box) (r : Nat) : Nat := c.idx.getD (b.indexed r) 0

/-- The number of bytes of a chunk (R289). -/
def chunkBytes : Nat := 4096

/-- The destination lines of a row in global memory, by virtual line. -/
def CopyCmd.rowLines (c : CopyCmd) (b : Box) (r : Nat) : List Nat :=
  ((b.elems c.kind r (c.rowIdx b r)).flatMap fun e =>
    let va := c.dstWin * 2 ^ 64 + e.2
    [va / 128, (va + b.z - 1) / 128]).eraseDups

/-- The destination lines of a command, by virtual line, each with the last row that writes it (R230). -/
def CopyCmd.destLines (c : CopyCmd) (b : Box) : List LineClaim :=
  if b.dk ≠ 3 then []
  else if c.kind = 4 then
    -- a base inside a line makes the last chunk end inside one more
    (List.range (32 * min (descAux c.desc 4) (b.rows * b.rowElems) + if b.dst % 128 = 0 then 0 else 1)).map fun (i : Nat) =>
      { va := (c.dstWin * 2 ^ 64 + addr64 b.dst ((128 * i : Nat) : Int)) / 128, line := none, last := b.rows }
  else
    ((List.range b.rows).foldl (fun m r => (c.rowLines b r).foldl (fun m l => keyPut m l r) m) ([] : Keyed Nat)).map fun e =>
      { va := e.1, line := none, last := e.2 }

/-- The claims of a command on its destination lines that now translate (R230): they stand beside those that it has, so that every line
passes between two commands in one order (log 45). -/
def State.claimLines (s : State) (core id : Nat) (c : CopyCmd) : State × CopyCmd :=
  let lines := c.lines.map fun e =>
    if e.line.isSome then e
    else match s.walk c.ctx (128 * e.va) with | .leaf t _ _ => { e with line := some (lineOf (t.apply (128 * e.va))) } | _ => e
  let mine := fun (o : Nat × Nat × Nat) => o.2.1 == core && o.2.2 == id
  let fresh := ((lines.filterMap LineClaim.line).filter fun l => !(s.dev.owned.any fun o => mine o && o.1 == l) &&
    !(c.lines.any fun e => e.line == some l)).eraseDups
  let s := if fresh.isEmpty then s
    else s.modDev fun d => { d with
      owned := (d.owned.takeWhile fun o => !mine o) ++ fresh.map (fun l => (l, core, id)) ++ d.owned.dropWhile fun o => !mine o }
  (s, { c with lines := lines })

/-- A command put back. -/
def State.putCopy (s : State) (core id : Nat) (c : CopyCmd) : State :=
  s.modCore core fun k => { k with copies := keyPut k.copies id c }

/-- A command that its engine receives takes the lines of its destination (R230): the indices of a scatter are then read. -/
def State.ownLines (s : State) (core id : Nat) (c : CopyCmd) : State :=
  let b := boxOf c.desc
  if b.dk = 3 ∧ b.empty = false then
    let c := if c.kind = 2 then s.readIdx c b (b.rows - 1) else c
    let (s, c) := s.claimLines core id { c with lines := c.destLines b }
    s.putCopy core id c
  else s

/-! ## Acceptance, start and end (R276, R278, R285, R299) -/

/-- The number of commands worked on at a time (R276). -/
def copyRun : Nat := 16

/-- The lowest free command slot (R276). -/
def freeNumber (l : Keyed CopyCmd) : Nat :=
  ((List.range copyMax).find? fun n => !(l.any fun e => e.2.number == n)).getD 0

/-- Released commands start in acceptance order while there is a place (R276); a suspended command keeps its place (log 72). -/
def State.startCopies (s : State) (core : Nat) : State :=
  let k := s.core core
  let busy := (k.copies.filter fun e => e.2.started).length
  let ready := (k.copies.filter fun e => !e.2.started && !e.2.held).map Prod.fst
  (ready.take (copyRun - busy)).foldl (fun s id =>
    (s.modCore core fun k => { k with copies := keyModify k.copies id fun c => { c with started := true } }).after 12
      (.copyCommandStart core id)) s

/-- A command ends: its place, its turn at a slot and its lines go, its P2 is lowered (R285). -/
def State.endCopy (s : State) (core id : Nat) : State :=
  match keyFind (s.core core).copies id with
  | none => s
  | some c =>
    let s := s.modCore core fun k =>
      let rest := keyDrop k.copies id
      { k with copies := rest, copyLog := if rest.isEmpty then [] else k.copyLog }
    let s := s.modDev fun d => { d with owned := d.owned.filter fun o => !(o.2.1 == core && o.2.2 == id) }
    let s := match c.turn with | some x => s.tokenGone core x | none => s
    ((if c.posting then s else s.finishOp core c.slot c.op {})).startCopies core

/-- A command is released (R278): a box without rows completes at once (R280), any other starts in its order (R276). -/
def State.releaseCopy (s : State) (core id : Nat) : State :=
  match keyFind (s.core core).copies id with
  | some c => if (boxOf c.desc).rows = 0 then s.endCopy core id else s.startCopies core
  | none => s

/-- A command ends with a status: its barrier objects are credited 0 (R294, R297, R299). -/
def State.stopCopy (s : State) (core id st : Nat) : State :=
  match keyFind (s.core core).copies id with
  | none => s
  | some c =>
    let s := if descNobar c.desc then s
      else (if c.kind = 3 then c.receivers.filter fun t => !c.failed.contains t else [c.team]).foldl
        (fun s t => s.credit t (descBar c.desc) 0 st) s
    s.endCopy core id

/-- The teams of the issuing team's cluster at the positions of a mask (R287). -/
def State.receiversOf (s : State) (m : Nat) : List Nat :=
  match s.clusterOf s.g.team with
  | some c => (maskPositions m).filterMap fun p => c.teams[p]?
  | none => []

/-- A command accepted (R276, R278): it takes a command slot, with the descriptor as it stands. -/
def State.acceptCopy (s : State) (kind d : Nat) : State × Nat :=
  let b := boxOf d
  let core := s.g.core
  let id := s.nextId
  let c : CopyCmd :=
    { number := freeNumber (s.core core).copies, kind := kind, team := s.g.team, slot := s.g.slot, op := id, ctx := s.g.ctx, desc := d
      srcWin := (s.win (descField d 3 1 % 8)).toNat, dstWin := (s.win (descField d 3 1 / 8 % 8)).toNat
      held := b.sk == 0 || b.dk == 3, posting := b.dk == 3, receivers := if kind = 3 then s.receiversOf (descTarget d) else [] }
  ({ s with nextId := id + 1 }.putCopy core id c, id)

/-- The commit that a command with a global destination is has succeeded (R278): P2 is raised, and the command is released. One that has
been cancelled meanwhile counts no more. -/
def State.postCopy (s : State) (id : Nat) : State :=
  let core := s.g.core
  match keyFind (s.core core).copies id with
  | none => s.retire
  | some c =>
    let op := s.nextId
    let c := { c with op := op, held := false, posting := false }
    let s := (s.addOp { id := 0, flag := none, path := some 2, command := some core }).putCopy core id c
    ((s.ownLines core id c).releaseCopy core id).retire

/-- CP.* of F 0 to 6 (R278). -/
def copyCommand (kind : Nat) (m : BitVec 7) (s : State) : Out :=
  issue { rd := [.s m 1], roles := 9#4, path := some 2, copy := true } s fun s =>
    if s.p.stage ≠ 0 then atCommit s fun s => .next (s.postCopy (s.p.reply.getD 0))
    else
      let off := (s.readS m).toNat
      let d := leNat (s.teamBytes s.g.team off 256)
      if !s.copyChecks kind off d then .next (s.trap { cause := cSPBOUND, lanes := some 0#32 })
      else if !copyAligned d then .next (s.trap { cause := cMISALIGN, lanes := some 0#32 })
      else
        let (s, id) := (s.dropPosting s.g).acceptCopy kind d
        if (boxOf d).dk = 3 then
          atCommit { s with p := { s.p with reply := some id } } fun s => .next (s.postCopy id)
        else
          let held := (boxOf d).sk == 0
          let op := s.nextId
          let s := s.addOp { id := 0, flag := none, path := some 2, inRegion := held, command := some s.g.core }
          let s := s.modCore s.g.core fun k => { k with copies := keyModify k.copies id fun c => { c with op := op } }
          if held then .next (s.hold 0 id 2).retire else .next (s.releaseCopy s.g.core id).retire

/-- CP.TENSOR (R277, R280). -/
def execCpTensor (d : BitVec 7) (s : State) : Out := copyCommand 0 d s
/-- CP.GATHER (R277, R286). -/
def execCpGather (d : BitVec 7) (s : State) : Out := copyCommand 1 d s
/-- CP.SCATTER (R277, R286). -/
def execCpScatter (d : BitVec 7) (s : State) : Out := copyCommand 2 d s
/-- CP.MCAST (R277, R287). -/
def execCpMcast (d : BitVec 7) (s : State) : Out := copyCommand 3 d s
/-- CP.PACK (R277, R292). -/
def execCpPack (d : BitVec 7) (s : State) : Out := copyCommand 4 d s
/-- CP.UNPACK (R277, R291). -/
def execCpUnpack (d : BitVec 7) (s : State) : Out := copyCommand 5 d s
/-- CP.FILL (R277, R288). -/
def execCpFill (d : BitVec 7) (s : State) : Out := copyCommand 6 d s

/-- Whether a command has begun a row that it still has to finish: one that waits for its turn at a slot, those of CP.PACK that are not yet
in written chunks, one whose fault is to be posted (R297, R299). -/
def CopyCmd.begun (c : CopyCmd) : Bool := !c.suspended && (c.turn.isSome || !c.pending.isEmpty || c.fault.isSome)

/-- A command cancelled (R299): it ends, at once where it has begun no row. -/
def State.cancelCopy (s : State) (core id : Nat) (c : CopyCmd) : State :=
  if c.begun then s.putCopy core id { c with cancelled := true } else s.stopCopy core id barCancelled

/-- A descriptor without a barrier object, as a CP.CANCEL holds it in its command slot. -/
def noDesc : Nat := 2 ^ 31 + 2 ^ 17

/-- CP.CANCEL (R276, R299): it takes a command slot too, and completes when the commands that it names have stopped. -/
def execCpCancel (b : BitVec 7) (s : State) : Out :=
  issue { rd := [.s b 1], roles := 9#4, path := some 2, copy := true } s fun s =>
    let core := s.g.core
    let off := (s.readS b).toNat
    let id := s.nextId
    let s := s.addOp { id := 0, flag := none, path := some 2, command := some core }
    let hit := (s.core core).copies.filter fun e => e.2.team == s.g.team && !descNobar e.2.desc && descBar e.2.desc == off
    let s := hit.foldl (fun s e => s.cancelCopy core e.1 e.2) s
    let c : CopyCmd :=
      { number := freeNumber (s.core core).copies, kind := 7, team := s.g.team, slot := s.g.slot, op := id, ctx := s.g.ctx, desc := noDesc
        srcWin := 0, dstWin := 0, held := true, cancels := hit.map Prod.fst }
    .next ((s.putCopy core id c).after 1 (.copyCommandStart core id)).retire

/-! ## Rows (R280, R281, R283 to R288) -/

/-- What a row comes to. -/
inductive RowEnd where
  /-- Written: the rows credited now, by number, the conversion's progress. -/
  | done (s : State) (c : CopyCmd) (credits : List Nat)
  /-- To be tried again: a migrating entry, a line that another engine owns, a slot at which it is not its turn. -/
  | again (s : State) (c : CopyCmd)
  /-- A fault, and the rows credited before it; the cursor is the command's row (R297). -/
  | fault (s : State) (c : CopyCmd) (credits : List Nat) (f : CopyFault)
  /-- The command ends with a status, and rows credited before it. -/
  | stop (s : State) (c : CopyCmd) (credits : List Nat) (status : Nat)

/-- The address tags of the log of R284: physical addresses stand for themselves; scratchpads; slots. -/
def spadKey (core a : Nat) : Nat := 2 ^ 60 + core * 2 ^ 20 + a
def slotKey (n a : Nat) : Nat := 2 ^ 61 + n * 2 ^ 14 + a

/-- Whether a line is free of other owners for a command (R230): the first claim on it is the command's own. -/
def State.mayTouch (s : State) (core id line : Nat) : Bool :=
  match s.dev.owned.find? fun o => o.1 == line with
  | some o => o.2.1 == core && o.2.2 == id
  | none => true

/-- The bytes of an element that a write may change (R284): those that no later command of the engine has written. -/
def State.logBytes (s : State) (core id key : Nat) (bs : List Byte) : State × List (Nat × Byte) :=
  let k := s.core core
  let keep := (bs.zipIdx.filter fun e => decide ((keyFind k.copyLog (key + e.2)).getD 0 ≤ id)).map fun e => (e.2, e.1)
  if k.copies.any fun e => decide (e.1 < id) then
    (s.modCore core fun k => { k with copyLog := keep.foldl (fun m e => keyPut m (key + e.1) id) k.copyLog }, keep)
  else (s, keep)

/-- Bytes of an element delivered to a team's scratchpad (R283). -/
def State.deliver (s : State) (core id t off : Nat) (bs : List Byte) : State :=
  let (c, a) := s.spadAt t off
  let (s, l) := s.logBytes core id (spadKey c a) bs
  l.foldl (fun s e => s.spadPut c (a + e.1) [e.2]) s

/-- Bytes of an element committed to a list of pieces (R228, R284). -/
def State.putLogged (s : State) (core id : Nat) : List (Nat × Nat) → List Byte → State
  | [], _ => s
  | (pa, k) :: r, bs =>
    let (s, l) := s.logBytes core id pa (bs.take k)
    let s := if l.isEmpty then s
      else s.commitBytes pa ((List.range k).map fun i => ((l.find? fun e => e.1 == i).map Prod.snd).getD (s.phys (pa + i)))
    s.putLogged core id r (bs.drop k)

/-- Bytes of an element written into a slot (R283). -/
def State.slotPut (s : State) (core id n off : Nat) (bs : List Byte) : State :=
  let (s, l) := s.logBytes core id (slotKey n off) bs
  s.modCore core fun k => { k with slots := keyModify k.slots n fun o =>
    { o with data := l.foldl (fun m e => storeWrite m (off + e.1) e.2) o.data } }

/-- Bytes that nothing states: those of a team that has ended (log 35). -/
def State.freeBytes (s : State) (n : Nat) : List Byte := (List.range n).map fun i => Config.freeByte (64 * s.nextId + i)

/-- Bytes of a team of the cluster, or free ones when it has ended. -/
def State.peerBytes (s : State) (t off n : Nat) : List Byte :=
  if (keyFind s.dev.teams t).isSome then s.teamBytes t off n else s.freeBytes n

/-- The source bytes of a row's elements read (R281); those of a gather that lie outside the team's allocation are free (log 72). -/
def State.readElems (s : State) (core id : Nat) (c : CopyCmd) (b : Box) :
    Nat → List (Nat × Nat) → Except (Option (Nat × XFault) × State) (State × List (Nat × List Byte))
  | _, [] => .ok (s, [])
  | i, (src, dst) :: r =>
    let rest := fun (s : State) (bs : List Byte) =>
      match s.readElems core id c b (i + 1) r with
      | .ok (s, l) => .ok (s, (dst, bs) :: l)
      | .error e => .error e
    match b.sk with
    | 0 =>
      match s.pieces core c.ctx accR (s.mayTouch core id) (linesOf b.z) (c.srcWin * 2 ^ 64 + src) (i * b.z) b.z with
      | .ok s l => rest s (s.pieceBytes l)
      | .again s => .error (none, s)
      | .fault s off f => .error (some (off, f), s)
    | 1 =>
      match s.peerOf c.team (src / 2 ^ 20) with
      | some t => rest s (if src % 2 ^ 20 + b.z ≤ (s.team t).spsize then s.peerBytes t (src % 2 ^ 20) b.z else s.freeBytes b.z)
      | none => rest s (s.freeBytes b.z)
    | _ => rest s (leBytes b.z (descField c.desc 32 16))

/-- The destination pieces of a row's elements in global memory. -/
def State.destPieces (s : State) (core id : Nat) (c : CopyCmd) (z : Nat) :
    Nat → List (Nat × List Byte) → Except (Option (Nat × XFault) × State) (State × List (List (Nat × Nat) × List Byte))
  | _, [] => .ok (s, [])
  | i, (dst, bs) :: r =>
    match s.pieces core c.ctx accW (s.mayTouch core id) (linesOf bs.length) (c.dstWin * 2 ^ 64 + dst) (i * z) bs.length with
    | .again s => .error (none, s)
    | .fault s off f => .error (some (off, f), s)
    | .ok s l =>
      match s.destPieces core id c z (i + 1) r with
      | .ok (s, q) => .ok (s, (l, bs) :: q)
      | .error e => .error e

/-- The places of a BFPm record in a slot (R307); none where the write is not performed. -/
def recordParts (record : BitVec 64) (code d : Nat) : Option (Nat × Nat × Nat) :=
  let m := code - 3
  let z := elemBytes code
  let r := d / z
  let x := record.toNat
  let mant := nfield x 21 8 + 8 * m * r
  let bmp := nfield x 45 32 + 8 * r
  let strip := nfield x 61 48 + 16 * r
  if d % z ≠ 0 ∨ 63 < r ∨ nfield x 4 0 ≠ 15 + m then none
  else if 16384 < mant + 8 * m ∨ 16384 < bmp + 8 ∨ 16384 < strip + 16 then none
  else some (mant, bmp, strip)

/-- Whether a released MMA with a number below `x` that names slot `n` has not completed (R283, R308). -/
def State.mmaBefore (s : State) (core n x : Nat) : Bool :=
  (s.core core).mmas.any fun m => (m.sla == n || m.slb == n) && decide (m.id < x)

/-- What a row that has arrived at a slot does. -/
inductive SlotTurn where
  | now (s : State) (c : CopyCmd)
  | wait (s : State) (c : CopyCmd)
  /-- The slot is no longer claimed by a group of the team (R283). -/
  | gone

/-- A row takes its place in the slot's order when it arrives, behind every MMA released before (R283, R308, R319); a slot in release takes
none (R304). -/
def State.slotTurn (s : State) (core n : Nat) (c : CopyCmd) : SlotTurn :=
  match s.opSlot core n with
  | none => .gone
  | some o =>
    if o.team ≠ c.team then .gone
    else
      match c.turn with
      | some x =>
        if !o.order.contains x then .gone
        else if s.atTurn core n x && !s.mmaBefore core n x then .now (s.tokenDone core n x) { c with turn := none }
        else .wait s c
      | none =>
        if o.releasing then .gone
        else if s.orderFree core n && !s.mmaBefore core n s.nextId then .now s c
        else .wait ({ s with nextId := s.nextId + 1 }.token core n s.nextId) { c with turn := some s.nextId }

/-- The elements of a row written to their destination (R283, R285). -/
def State.writeElems (s : State) (core id : Nat) (c : CopyCmd) (b : Box) (row : Nat) (l : List (Nat × List Byte)) : RowEnd :=
  match b.dk with
  | 0 =>
    let place := fun (e : Nat × List Byte) => if 2 ^ 24 ≤ e.1 then none else
      match s.peerOf c.team (e.1 / 2 ^ 20) with
      | some t => if s.deliverable t (e.1 % 2 ^ 20) e.2.length then some (t, e.1 % 2 ^ 20, e.2) else none
      | none => none
    if l.any fun e => (place e).isNone then .stop s c [] barFault
    else .done ((l.filterMap place).foldl (fun s e => s.deliver core id e.1 e.2.1 e.2.2) s) c [row]
  | 1 =>
    let n := descTarget c.desc
    match s.slotTurn core n c with
    | .gone => .stop s c [] barFault
    | .wait s c => .again s c
    | .now s c =>
      if b.bfp then
        match l with
        | [] => .done s c [row]
        | (d, bs) :: _ =>
          match recordParts (s.slotRecAt core n) b.code d with
          | none => .stop s c [] barFault
          | some (mant, bmp, strip) =>
            let s := s.slotPut core id n bmp (bs.take 8)
            let s := s.slotPut core id n strip ((bs.drop 8).take 16)
            .done (s.slotPut core id n mant (bs.drop 24)) c [row]
      else if l.any fun e => decide (16384 < e.1 + e.2.length) then .stop s c [] barFault
      else .done (l.foldl (fun s e => s.slotPut core id n e.1 e.2) s) c [row]
  | 2 =>
    let (lo, n) := boxRange b.dst b.z (b.dims.map fun x => (x.e, x.dst))
    let ok := fun (t : Nat) =>
      decide (0 ≤ lo) && s.deliverable t lo.toNat n && (descNobar c.desc || s.deliverable t (descBar c.desc) 16)
    let (good, bad) := (c.receivers.filter fun t => !c.failed.contains t).partition ok
    let s := bad.foldl (fun s t => if descNobar c.desc then s else s.credit t (descBar c.desc) 0 barFault) s
    .done (good.foldl (fun s t => l.foldl (fun s e => s.deliver core id t e.1 e.2) s) s) { c with failed := c.failed ++ bad } [row]
  | _ =>
    match s.destPieces core id c b.z 0 l with
    | .error (none, s) => .again s c
    | .error (some (off, f), s) =>
      .fault s c [] { va := 0, write := true, fatal := !f.engineRestart, byte := off }
    | .ok (s, q) => .done (q.foldl (fun s e => s.putLogged core id e.1 e.2) s) c [row]

/-- The virtual address of byte `off` of a row, by its elements' addresses. -/
def rowVa (win z : Nat) (l : List Nat) (off : Nat) : Nat :=
  win * 2 ^ 64 + ((l[off / max 1 z]?).getD 0 + off % max 1 z) % 2 ^ 64

/-- A row of a plain command (R280, R286 to R288). -/
def State.plainRow (s : State) (core id : Nat) (c : CopyCmd) (b : Box) : RowEnd :=
  let c := s.readIdx c b c.row
  let l := b.elems c.kind c.row (c.rowIdx b c.row)
  match s.readElems core id c b 0 l with
  | .error (none, s) => .again s c
  | .error (some (off, f), s) =>
    .fault s c [] { va := rowVa c.srcWin b.z (l.map Prod.fst) off, write := false, fatal := !f.engineRestart, byte := off }
  | .ok (s, q) =>
    match s.writeElems core id c b c.row q with
    | .fault s c credits f => .fault s c credits { f with va := rowVa c.dstWin b.z (l.map Prod.snd) f.byte }
    | x => x

/-! ## Compressed streams (R289 to R292) -/

/-- The bits of a chunk's bitstream (R289). -/
def chunkBits : Nat := 32640

/-- An entry of the decode table of a command, as it stands (R290): the code length and the symbol; none where it is corrupt. -/
def State.decodeEntry (s : State) (c : CopyCmd) (peek : Nat) : Option (Nat × Nat) :=
  let base := descAux c.desc 0
  let e := (s.teamWord c.team (base + 4 * (peek % 4096))).toNat
  let (e, lo, hi) :=
    if e.testBit 31 then
      if nfield e 30 6 = 0 then ((s.teamWord c.team (base + 16384 + 64 * (e % 64) + 4 * (peek / 4096))).toNat, 13, 16) else (2 ^ 32 - 1, 1, 0)
    else (e, 1, 12)
  let len := nfield e 12 8
  if nfield e 31 13 = 0 ∧ lo ≤ len ∧ len ≤ hi then some (len, e % 256) else none

/-- The next element of a chunk (R291): the progress and the element; none where the input is corrupt; `bits` the bitstream. -/
def State.unpackOne (s : State) (c : CopyCmd) (w bits : Nat) (v : Conv) : Option (Conv × Nat) :=
  if 0 < v.zeros then some ({ v with zeros := v.zeros - 1 }, 0)
  else if v.corrupt then none
  else
    match v.elem with
    | some x => some ({ v with elem := none }, x)
    | none =>
      match s.decodeEntry c (bits / 2 ^ v.pos % 65536) with
      | none => none
      | some (len, sym) =>
        if v.bitlen < v.pos + len ∨ 0xF0 < sym then none
        else
          let pos := v.pos + len
          let run := sym / 16
          let zs := min run (v.count - v.made)
          let made := v.made + zs
          if sym = 0xF0 ∨ v.count ≤ made then
            (if zs = 0 then none else some ({ v with pos := pos, made := made, zeros := zs - 1 }, 0))
          else
            let low := 8 * w - 4
            if v.bitlen < pos + low then
              (if zs = 0 then none else some ({ v with pos := pos, made := made, zeros := zs - 1, corrupt := true }, 0))
            else
              let x := sym % 16 * 2 ^ low + bits / 2 ^ pos % 2 ^ low
              let v := { v with pos := pos + low, made := made + 1 }
              if zs = 0 then some (v, x) else some ({ v with zeros := zs - 1, elem := some x }, 0)

/-- The range of a chunk on the compressed side, as bytes: of global memory, or of a scratchpad. -/
def State.chunkAt (s : State) (core id : Nat) (c : CopyCmd) (b : Box) (n : Nat) : Except (Option (Nat × XFault) × State) (State × Option Nat) :=
  let src := addr64 b.src (chunkBytes * n)
  match b.sk with
  | 0 =>
    match s.pieces core c.ctx accR (s.mayTouch core id) (linesOf chunkBytes) (c.srcWin * 2 ^ 64 + src) 0 chunkBytes with
    | .ok s l => .ok (s, some (leNat (s.pieceBytes l)))
    | .again s => .error (none, s)
    | .fault s off f => .error (some (off, f), s)
  | _ =>
    match (if src < 2 ^ 24 then s.peerOf c.team (src / 2 ^ 20) else none) with
    | some t => .ok (s, if src % 2 ^ 20 + chunkBytes ≤ (s.team t).spsize then some (leNat (s.teamBytes t (src % 2 ^ 20) chunkBytes)) else none)
    | none => .ok (s, none)

/-- A chunk's header read (R289): the progress at its start; none where it is corrupt. -/
def openChunk (code x : Nat) (v : Conv) : Option Conv :=
  let count := nfield x 31 0
  let bitlen := nfield x 47 32
  if count = 0 ∨ chunkBits < bitlen ∨ nfield x 55 48 ≠ code ∨ nfield x 127 56 ≠ 0 then none
  else some { v with count := count, bitlen := bitlen, made := 0, pos := 0, zeros := 0, elem := none }

/-- What the decoding of a row's elements comes to. -/
inductive Unpacked where
  | ok (s : State) (v : Conv) (l : List Nat)
  | corrupt (s : State)
  | again (s : State)
  | fault (s : State) (va : Nat) (f : XFault)

/-- The next `n` elements of the stream (R291). `v.count = 0` before the first chunk; `x` the chunk that is open, if it is at hand. -/
def State.unpackRow (s : State) (core id : Nat) (c : CopyCmd) (b : Box) : Nat → Nat → Conv → Option Nat → List Nat → Unpacked
  | 0, _, v, _, acc => .ok s v acc
  | _, 0, v, _, acc => .ok s v acc
  | fuel + 1, n + 1, v, x, acc =>
    let ended := v.count != 0 && v.made == v.count && v.zeros == 0 && v.elem.isNone
    let v := if ended then { v with chunk := v.chunk + 1, count := 0 } else v
    match (if ended then none else x) with
    | some x =>
      let bits := x / 2 ^ 128 % 2 ^ v.bitlen
      match s.unpackOne c b.z bits v with
      | none => .corrupt s
      | some (v, e) => s.unpackRow core id c b fuel n v (some x) (acc ++ [e])
    | none =>
      match s.chunkAt core id c b v.chunk with
      | .error (none, s) => .again s
      | .error (some (off, f), s) => .fault s (c.srcWin * 2 ^ 64 + (addr64 b.src (chunkBytes * v.chunk) + off) % 2 ^ 64) f
      | .ok (s, none) => .corrupt s
      | .ok (s, some x) =>
        if v.count = 0 then
          match openChunk b.code x v with
          | none => .corrupt s
          | some v => s.unpackRow core id c b fuel (n + 1) v (some x) acc
        else s.unpackRow core id c b fuel (n + 1) v (some x) acc

/-- A row of CP.UNPACK (R291). -/
def State.unpackStep (s : State) (core id : Nat) (c : CopyCmd) (b : Box) : RowEnd :=
  match s.unpackRow core id c b (2 * b.rowElems + 1) b.rowElems c.conv none [] with
  | .corrupt s => .stop s c [] barFault
  | .again s => .again s c
  | .fault s va f => .fault s c [] { va := va, write := false, fatal := !f.engineRestart, byte := 0 }
  | .ok s v l =>
    let dsts := (b.elems 5 c.row 0).map Prod.snd
    match s.writeElems core id c b c.row (dsts.zip (l.map (leBytes b.z))) with
    | .done s c credits => .done s { c with conv := v } credits
    | x => x

/-- The encoder: the state, its progress, the rows not yet credited, the rows credited (R292). -/
structure Packing where
  s : State
  v : Conv
  rows : List PackRow
  credits : List Nat := []

/-- What the encoder comes to. -/
inductive Packed where
  | ok (p : Packing)
  | again (s : State)
  | fault (p : Packing) (va : Nat) (f : XFault)
  | stop (p : Packing) (status : Nat)

/-- The rows whose last symbol lies in chunks below `n` are credited (R292). -/
def Packing.creditBelow (p : Packing) (n : Nat) : Packing :=
  let ok := fun (r : PackRow) => match r.fin with | some c => decide (c < n) | none => false
  { p with rows := p.rows.dropWhile ok, credits := p.credits ++ (p.rows.takeWhile ok).map PackRow.row }

/-- The chunk being made is written whole (R292). -/
def Packing.putChunk (p : Packing) (core id : Nat) (c : CopyCmd) (b : Box) : Packed :=
  let v := p.v
  let dst := addr64 b.dst (chunkBytes * v.chunk)
  let bs := leBytes chunkBytes (v.elems + v.nbits * 2 ^ 32 + b.code * 2 ^ 48 + v.bits * 2 ^ 128)
  let fin := fun (s : State) =>
    Packed.ok ({ p with s := s, v := { v with chunk := v.chunk + 1, bits := 0, nbits := 0, elems := 0 } }.creditBelow (v.chunk + 1))
  match b.dk with
  | 0 =>
    match (if dst < 2 ^ 24 then p.s.peerOf c.team (dst / 2 ^ 20) else none) with
    | some t =>
      if p.s.deliverable t (dst % 2 ^ 20) chunkBytes then fin (p.s.deliver core id t (dst % 2 ^ 20) bs) else .stop p barFault
    | none => .stop p barFault
  | _ =>
    match p.s.pieces core c.ctx accW (p.s.mayTouch core id) (linesOf chunkBytes) (c.dstWin * 2 ^ 64 + dst) 0 chunkBytes with
    | .ok s l => fin (s.putLogged core id l bs)
    | .again s => .again s
    | .fault s off f => .fault { p with s := s } (c.dstWin * 2 ^ 64 + (dst + off) % 2 ^ 64) f

/-- One symbol with its LOW put into the stream, which stands for `n` elements (R292). -/
def Packing.sym (p : Packing) (core id : Nat) (c : CopyCmd) (b : Box) (sym low lowBits n : Nat) : Packed :=
  let e := (p.s.teamWord c.team (descAux c.desc 0 + 4 * sym)).toNat
  let len := nfield e 20 16
  if len = 0 ∨ 16 < len then .stop p barFault
  else
    let put := fun (p : Packing) =>
      if descAux c.desc 4 ≤ p.v.chunk then Packed.stop p barOverflow
      else
        let v := p.v
        let x := e % 2 ^ len + low * 2 ^ len
        .ok { p with
          v := { v with bits := v.bits + x * 2 ^ v.nbits, nbits := v.nbits + len + lowBits, elems := v.elems + n }
          rows := p.rows.map fun r => { r with fin := some (r.fin.getD v.chunk) } }
    if p.v.nbits + len + lowBits ≤ chunkBits then put p
    else
      match p.putChunk core id c b with
      | .ok p => put p
      | x => x

/-- The elements of a row put into the stream (R292): 15 zeros go out at once as the symbol 0xF0. -/
def Packing.elems (core id : Nat) (c : CopyCmd) (b : Box) : List Nat → Packing → Packed
  | [], p => .ok p
  | x :: r, p =>
    let low := 8 * b.z - 4
    let run := p.v.run
    let none_ := { p with v := { p.v with run := 0 } }
    let step : Packed :=
      if x ≠ 0 then none_.sym core id c b (16 * run + x / 2 ^ low) (x % 2 ^ low) low (run + 1)
      else if run = 14 then none_.sym core id c b 0xF0 0 0 15
      else .ok { p with v := { p.v with run := run + 1 } }
    match step with
    | .ok p => Packing.elems core id c b r p
    | x => x

/-- The end of the stream (R292): the trailing zeros, the last chunk; every row is then credited. -/
def Packing.finish (p : Packing) (core id : Nat) (c : CopyCmd) (b : Box) : Packed :=
  let run := p.v.run
  let tail : Packed := if run = 0 then .ok p else { p with v := { p.v with run := 0 } }.sym core id c b (16 * run) 0 0 run
  let last : Packed := match tail with
    | .ok p => if p.v.elems = 0 then .ok p else p.putChunk core id c b
    | x => x
  match last with
  | .ok p => Packed.ok (p.creditBelow p.v.chunk)
  | x => x

/-- The result word written (R292); where it lies in a claimed table or an armed region, the command ends with FAULT instead (R213). -/
def State.packResult (s : State) (c : CopyCmd) (n st : Nat) : State × Nat :=
  if s.deliverable c.team (descAux c.desc 8) 4 then (s.putTeamWord c.team (descAux c.desc 8) (BitVec.ofNat 32 n), st) else (s, barFault)

/-- What the encoder came to as the end of a row: after a fault the command stands at its lowest row that is not credited, to be encoded again
from its start (R297, R298). -/
def Packed.rowEnd (c : CopyCmd) (fin : Packing → RowEnd) : Packed → RowEnd
  | .ok p => fin p
  | .again s => .again s c
  | .fault p va f =>
    let c := match p.rows with
      | r :: _ => { c with row := r.row, conv := r.start, pending := [] }
      | [] => { c with pending := [] }
    .fault p.s c p.credits { va := va, write := true, fatal := !f.engineRestart, byte := 0 }
  | .stop p st =>
    let (s, st) := if st = barOverflow then p.s.packResult c (descAux c.desc 4) st else (p.s, st)
    .stop s { c with conv := p.v, pending := p.rows } p.credits st

/-- A row of CP.PACK (R292): with the last one, the stream ends and the result word is written. -/
def State.packStep (s : State) (core id : Nat) (c : CopyCmd) (b : Box) : RowEnd :=
  let l := b.elems 4 c.row 0
  match s.readElems core id c b 0 l with
  | .error (none, s) => .again s c
  | .error (some (off, f), s) =>
    .fault s c [] { va := rowVa c.srcWin b.z (l.map Prod.fst) off, write := false, fatal := !f.engineRestart, byte := off }
  | .ok (s, q) =>
    (Packing.elems core id c b (q.map fun e => leNat e.2) { s := s, v := c.conv, rows := c.pending }).rowEnd c fun (p : Packing) =>
      -- the row ends in the chunk of its last symbol, or in that of the symbol that takes up its zeros
      let here : PackRow := { row := c.row, start := c.conv, fin := if p.v.run = 0 then some p.v.chunk else none }
      let p := { p with rows := p.rows ++ [here] }
      if c.row + 1 = b.rows then
        (p.finish core id c b).rowEnd c fun p =>
          let (s, st) := p.s.packResult c p.v.chunk 0
          let c := { c with conv := p.v, pending := p.rows }
          if st = 0 then .done s c p.credits else .stop s c p.credits st
      else .done p.s { c with conv := p.v, pending := p.rows } p.credits

/-- What a cancelled command still does (R299): the rows of CP.PACK that it has begun go out in their last chunk. -/
def State.cancelStep (s : State) (core id : Nat) (c : CopyCmd) (b : Box) : RowEnd :=
  let stop := fun (s : State) (c : CopyCmd) (credits : List Nat) => RowEnd.stop s c credits barCancelled
  if c.pending.isEmpty then stop s c []
  else
    match (Packing.finish ({ s := s, v := c.conv, rows := c.pending } : Packing) core id c b).rowEnd c fun p => stop p.s c p.credits with
    | .stop s c credits _ => stop s c credits
    | x => x

/-! ## The steps of the engine (R276, R285, R297, R298) -/

/-- Rows of a command credited in order (R285): the amount of each, to each receiver that has not failed. -/
def State.creditRows (s : State) (c : CopyCmd) (b : Box) (rows : List Nat) : State :=
  if descNobar c.desc then s
  else
    let n := if descUnit c.desc then 1 else b.rowBytes
    let to_ := if c.kind = 3 then c.receivers.filter fun t => !c.failed.contains t else [c.team]
    rows.foldl (fun s _ => to_.foldl (fun s t => s.credit t (descBar c.desc) n 0) s) s

/-- COPY_COMMAND_START (R276): a released command begins its first row; a CP.CANCEL completes when the commands that it names have stopped
(R299). -/
def execCopyCommandStart (core cmd : Nat) (s : State) : Out :=
  let copies := (s.core core).copies
  match keyFind copies cmd with
  | none => .next s
  | some c =>
    if c.kind ≠ 7 then .next (s.after 4 (.copyRowComplete core cmd))
    else if c.cancels.any fun id => (keyFind copies id).isSome then .next (s.after 2 (.copyCommandStart core cmd))
    else .next (s.endCopy core cmd)

/-- The lines that no row to come writes given back (R230). -/
def State.giveLines (s : State) (core cmd : Nat) (c : CopyCmd) : State :=
  let done := (c.lines.filter fun e => decide (e.last < c.row)).filterMap LineClaim.line
  let left := (c.lines.filter fun e => decide (c.row ≤ e.last)).filterMap LineClaim.line
  let gone := fun (l : Nat) => done.contains l && !left.contains l
  if done.isEmpty then s
  else s.modDev fun d => { d with owned := d.owned.filter fun o => !(o.2.1 == core && o.2.2 == cmd && gone o.1) }

/-- What a command does next: its cursor row; or, cancelled, what it has begun (R299). -/
def State.copyRow (s : State) (core id : Nat) (c : CopyCmd) (b : Box) : RowEnd :=
  if c.cancelled ∧ c.turn = none then s.cancelStep core id c b
  else
    match c.kind with
    | 4 => s.packStep core id c b
    | 5 => s.unpackStep core id c b
    | _ => s.plainRow core id c b

/-- COPY_ROW_COMPLETE (R285): the cursor row is read and written, its barrier object is credited, and the command goes on or
completes. -/
def execCopyRowComplete (core cmd : Nat) (s : State) : Out :=
  match keyFind (s.core core).copies cmd with
  | none => .next s
  | some c =>
    let b := boxOf c.desc
    if c.suspended || c.fault.isSome then .next s
    else
      let (s, c) := s.claimLines core cmd c
      match s.copyRow core cmd c b with
      | .done s c credits =>
        let c := { c with row := c.row + 1 }
        let s := ((s.creditRows c b credits).putCopy core cmd c).giveLines core cmd c
        if c.cancelled then .next (s.after 1 (.copyRowComplete core cmd))
        else if c.row = b.rows ∨ (c.kind = 3 ∧ c.receivers.all fun t => c.failed.contains t) then .next (s.endCopy core cmd)
        else .next (s.after (b.rowBytes / 128 + 1) (.copyRowComplete core cmd))
      | .again s c => .next ((s.putCopy core cmd c).after 16 (.copyRowComplete core cmd))
      | .fault s c credits f =>
        let s := match c.turn with | some x => s.tokenGone core x | none => s
        let s := (s.creditRows c b credits).putCopy core cmd { c with fault := some f, turn := none }
        .next (s.after 1 (.copyFault core cmd))
      | .stop s c credits st => .next (((s.creditRows c b credits).putCopy core cmd c).stopCopy core cmd st)

/-- COPY_FAULT (R297): the record is posted when the engine-fault queue has room; the command is suspended, or ends: with FAULT, or, cancelled
meanwhile, as R299 says. -/
def execCopyFault (core cmd : Nat) (s : State) : Out :=
  match keyFind (s.core core).copies cmd with
  | none => .next s
  | some c =>
    match c.fault with
    | none => .next s
    | some f =>
      if !s.faultRoom core then .next (s.after 1 (.copyFault core cmd))
      else
        let flags := (if f.write then 1 else 0) + (if f.fatal then 2 else 0)
        let s := s.postEngine core 0 cmd (faultWords f.va c.ctx core c.number flags c.row f.byte)
        if f.fatal then .next (s.stopCopy core cmd barFault)
        else if c.cancelled then .next (s.stopCopy core cmd barCancelled)
        else .next (s.modCore core fun k => { k with copies := keyModify k.copies cmd fun c => { c with suspended := true, fault := none } })

/-- A suspended command goes on at its cursor row (R298). -/
def State.goOnCopy (s : State) (core cmd : Nat) : State :=
  match keyFind (s.core core).copies cmd with
  | none => s
  | some c =>
    if c.suspended then
      (s.modCore core fun k => { k with copies := keyModify k.copies cmd fun c => { c with suspended := false } }).after 1
        (.copyRowComplete core cmd)
    else s

/-! ## Barrier instructions (R295) -/

/-- The check of a barrier object's offset (R295). -/
def withBar (o : BitVec 7) (s : State) (k : Nat → Out) : Out :=
  let off := (s.readS o).toNat
  if !s.ownBounds off 16 then .next (s.trap { cause := cSPBOUND, lanes := some 0#32 })
  else if off % 16 ≠ 0 then .next (s.trap { cause := cMISALIGN, lanes := some 0#32 })
  else k off

/-- BARINIT (R295). -/
def execBarinit (e o : BitVec 7) (s : State) : Out :=
  issue { rd := [.s o 1, .s e 1], roles := 9#4 } s fun s =>
    withBar o s fun off =>
      let t := s.g.team
      .next ((((s.putTeamWord t off (s.readS e)).putTeamWord t (off + 4) 0#32).putTeamWord t (off + 8) 0#32).putTeamWord t (off + 12)
        0#32).retire

/-- BAREXP (R295). -/
def execBarexp (n o : BitVec 7) (s : State) : Out :=
  issue { rd := [.s o 1, .s n 1], roles := 9#4 } s fun s =>
    withBar o s fun off =>
      .next ((s.putTeamWord s.g.team off (s.teamWord s.g.team off + s.readS n)).barCheck s.g.team off).retire

/-- The phase and the status of an object written to a pair. -/
def State.barRead (s : State) (off : Nat) (d : BitVec 7) : State :=
  (s.putS d.toNat (s.teamWord s.g.team (off + 8))).putS (d.toNat + 1) (s.teamWord s.g.team (off + 12))

/-- BARTEST (R295). -/
def execBartest (o d : BitVec 7) (s : State) : Out :=
  issue { rd := [.s o 1], wr := [.s d 2] } s fun s => withBar o s fun off => .next (s.barRead off d).retire

/-- What BARWAIT does behind its checks and its commit (R295): it reads the object, or it waits for the phase. -/
def barPoll (p d : BitVec 7) (off : Nat) (s : State) : Out :=
  if s.teamWord s.g.team (off + 8) ≠ s.readS p ∨ s.teamWord s.g.team (off + 12) ≠ 0#32 then .next (s.barRead off d).retire
  else
    let (c, a) := s.spadAt s.g.team off
    .next ({ s with p := { s.p with stage := 1 } }.stall (.barObject c a (s.readS p).toNat))

/-- BARWAIT (R295, R219): with an engine command held, the region commits first; then the split waits for the phase, and takes what it read
when the condition was seen. -/
def execBarwait (p o d : BitVec 7) (s : State) : Out :=
  issue { rd := [.s o 1, .s p 1], wr := [.s d 2] } s fun s =>
    match s.p.kept with
    | some (.bar phase status) => .next ((s.putS d.toNat phase).putS (d.toNat + 1) status).retire
    | _ =>
      if s.p.stage ≠ 0 then atCommit s (barPoll p d (s.p.reply.getD 0))
      else
        withBar o s fun off => atCommitIf (!s.g.region.held.isEmpty) { s with p := { s.p with reply := some off } } (barPoll p d off)

end Sys2Proof.Machine
end

