-- ==== Sys2Proof/Machine/Reservoir.lean ====
section
/-! DEFINITION. Sys2Proof/Machine/Reservoir.lean: the counter generator, reservoir arithmetic, the reservoir store and brim exchanges
(14_reservoirs_and_reuse.md, R351 to R370). -/

namespace Sys2Proof.Machine

/-! ## The counter generator (R353, R354) -/

def rotl32 (x : Word) (n : Nat) : Word := x.rotateLeft n

/-- The rounds of RNGCTR (R353). -/
def rngRounds : Nat → Word → Word → Word → Word → Word → Word → Word × Word × Word × Word
  | 0, a, b, c, d, _, _ => (a, b, c, d)
  | n + 1, a, b, c, d, k0, k1 =>
    let a := a + (b ^^^ k0)
    let d := rotl32 (d ^^^ a) 16
    let c := c + d
    let b := rotl32 (b ^^^ c) 12
    let a := (a + b) + k1
    let d := rotl32 (d ^^^ a) 8
    let c := c + d
    let b := rotl32 (b ^^^ c) 7
    rngRounds n a b c d (k0 + 0x9E3779B9#32) (k1 + 0xBB67AE85#32)

/-- rngctr (R353). -/
def rngctr (x y frame dim k0 k1 : Word) : Word × Word × Word × Word := rngRounds 8 x y frame dim k0 k1

/-- rngf (R354). -/
def rngf (n : Word) : Word := BitVec.ofNat 32 (pack f32 0 false (n.toNat / 256) (-24)).1

/-! ## Reservoir arithmetic (R355 to R360) -/

/-- Word `i` of a record or a run. -/
def wordAt (l : List Word) (i : Nat) : Word := l.getD i 0#32

/-- The fields of word 5 of a record (Table 14.2). -/
def resM (l : List Word) : Nat := field (wordAt l 5) 15 0
def resFlags (l : List Word) : Nat := field (wordAt l 5) 31 16
def resValid (l : List Word) : Bool := (resFlags l).testBit 0
def resAge (l : List Word) : Nat := resFlags l / 2 % 64
def resBrim (l : List Word) : Bool := (resFlags l).testBit 7
def resOcc (l : List Word) : Bool := (resFlags l).testBit 8

/-- Word 5 from M and the flags. -/
def word5 (m flags : Nat) : Word := BitVec.ofNat 32 (m % 65536 + 65536 * flags)

/-- The flags that a take leaves (R357, R358): VALID, AGE, OCC; the others 0. -/
def takenFlags (age : Nat) (occ : Bool) : Nat := 1 + 2 * age + (if occ then 256 else 0)

/-- Whether an f32 is finite, and whether it is above 0. -/
def finite32 (x : Nat) : Bool := match unpack f32 x with | .fin _ _ _ => true | _ => false
def above0 (x : Nat) : Bool := flt f32 0 x

/-- Whether the sample is taken (R357, R358): w > 0 and u × wsum < w, from left to right, with the product's flags (R360). -/
def takes (w u wsum : Nat) : Bool × FFlags :=
  if above0 w then
    let (p, fl) := fmul f32 0 u wsum
    (flt f32 p w, fl)
  else (false, 0#5)

/-- RSVUPD's arithmetic (R357): the reservoir, the candidate run. -/
def rsvUpdate (cap : Nat) (d a : List Word) : List Word × FFlags :=
  let p := (wordAt a 2).toNat
  let q := (wordAt a 3).toNat
  let zero := match unpack f32 q with | .fin _ m _ => m == 0 | _ => false
  let (w, f1) := if zero || !finite32 q || !finite32 p || !above0 p then (0, (0#5 : FFlags)) else fdiv f32 0 p q
  let (wsum, f2) := fadd f32 0 (wordAt d 3).toNat w
  let m := min (resM d + 1) cap
  let (take, f3) := takes w (wordAt a 4).toNat wsum
  let s := BitVec.ofNat 32 wsum
  (if take then [wordAt a 0, wordAt a 1, wordAt a 2, s, wordAt d 4, word5 m (takenFlags 0 false), wordAt a 5, wordAt a 6]
   else [wordAt d 0, wordAt d 1, wordAt d 2, s, wordAt d 4, word5 m (resFlags d), wordAt d 6, wordAt d 7], f1 ||| f2 ||| f3)

/-- rsv_merge (R358): the reservoir, the one merged into it, its target value and the uniform; whether its sample was taken. -/
def rsvMerge (cap : Nat) (d r : List Word) (p u : Word) : List Word × FFlags × Bool :=
  if !resValid r then (d, 0#5, false)
  else
    let (x, f1) := fmul f32 0 p.toNat (wordAt r 4).toNat
    let (y, f2) := fmul f32 0 x (intToF f32 0 (resM r)).1
    let w := if finite32 y && above0 y then y else 0
    let (wsum, f3) := fadd f32 0 (wordAt d 3).toNat w
    let m := min (resM d + resM r) cap
    let (take, f4) := takes w u.toNat wsum
    let s := BitVec.ofNat 32 wsum
    (if take then [wordAt r 0, wordAt r 1, p, s, wordAt d 4, word5 m (takenFlags (resAge r) (resOcc r)), wordAt r 6, wordAt r 7]
     else [wordAt d 0, wordAt d 1, wordAt d 2, s, wordAt d 4, word5 m (resFlags d), wordAt d 6, wordAt d 7],
     f1 ||| f2 ||| f3 ||| f4, take)

/-- rsv_norm (R359). -/
def rsvNorm (d : List Word) : List Word × FFlags :=
  let p := (wordAt d 2).toNat
  let m := resM d
  let (w, fl) :=
    if above0 p && decide (0 < m) then
      let (x, f1) := fmul f32 0 (intToF f32 0 m).1 p
      let (y, f2) := fdiv f32 0 (wordAt d 3).toNat x
      (y, f1 ||| f2)
    else (0, (0#5 : FFlags))
  (d.set 4 (BitVec.ofNat 32 w), fl)

/-! ## Lane instructions (R351 to R360) -/

/-- The words of a run of `n` registers in a lane. -/
def State.runOf (s : State) (a : BitVec 8) (n l : Nat) : List Word := (List.range n).map fun i => s.g.vreg (a.toNat + i) l

/-- A run of registers written from a list of words for each lane, in the active lanes. -/
def State.putRun (s : State) (d : BitVec 8) (n : Nat) (f : Nat → List Word) : State :=
  (List.range n).foldl (fun s i => s.putV (d.toNat + i) s.p.exec fun l => wordAt (f l) i) s

/-- A synchronous result in a run of `n` registers (R352): y0 its first register, y1 its second. -/
def runResult (d : BitVec 8) (n : Nat) (f : Nat → List Word) (s : State) : Out :=
  .next ((s.putRun d n f).formY64 (fun l => wordAt (f l) 0) (fun l => wordAt (f l) 1)).retire

/-- RNGCTR (R353). -/
def execRngctr (a d : BitVec 8) (s : State) : Out :=
  issue { rd := [.v a 4], wr := [.v d 4] } s fun s =>
    runResult d 4 (fun l =>
      match s.runOf a 4 l with
      | [x, y, z, w] => let r := rngctr x y z w s.g.sys.rngkey0 s.g.sys.rngkey1; [r.1, r.2.1, r.2.2.1, r.2.2.2]
      | _ => []) s

/-- RNGF (R354). -/
def execRngf (a d : BitVec 8) (s : State) : Out :=
  issue { rd := [.v a 1], wr := [.v d 1] } s fun s => let f := s.vsource a; syncResult [a] d (fun l => rngf (f l)) s

/-- RSVINIT (R356). -/
def execRsvinit (d : BitVec 8) (s : State) : Out := issue { wr := [.v d 8] } s fun s => runResult d 8 (fun _ => []) s

/-- A reservoir instruction with flags (R360). -/
def rsvResult (d : BitVec 8) (f : Nat → List Word × FFlags) (s : State) : Out :=
  withFlags s (fun l => (f l).2) fun s => runResult d 8 (fun l => (f l).1) s

/-- RSVUPD (R357). -/
def execRsvupd (a d : BitVec 8) (s : State) : Out :=
  issue { rd := [.v a 7], wr := [.v d 8] } s fun s =>
    rsvResult d (fun l => rsvUpdate s.g.sys.mcap.toNat (s.runOf d 8 l) (s.runOf a 7 l)) s

/-- RSVMRG (R358). -/
def execRsvmrg (a d : BitVec 8) (s : State) : Out :=
  issue { rd := [.v a 10], wr := [.v d 8] } s fun s =>
    rsvResult d (fun l =>
      let r := s.runOf a 10 l
      let o := rsvMerge s.g.sys.mcap.toNat (s.runOf d 8 l) r (wordAt r 8) (wordAt r 9)
      (o.1, o.2.1)) s

/-- RSVNORM (R359). -/
def execRsvnorm (d : BitVec 8) (s : State) : Out :=
  issue { wr := [.v d 8] } s fun s => rsvResult d (fun l => rsvNorm (s.runOf d 8 l)) s

/-! ## The reservoir store (R361 to R368) -/

/-- The launch of the issuing team. -/
def State.launchOf (s : State) (t : Nat) : Launch := (keyFind s.dev.launches (s.team t).launch).getD { ctx := 0 }

/-- The die that owns a pixel (R362). -/
def Launch.ownerDie (l : Launch) (x y : Nat) : Nat := if l.map.testBit (x / 64 + y / 64 * ((l.w + 63) / 64)) then 1 else 0

/-- Whether a pixel of a plane is in the image (R367). -/
def Launch.inImage (l : Launch) (plane x y : Nat) : Bool := decide (x < l.w) && decide (y < l.h) && decide (plane < l.planes)

/-- The offset of a pixel's record in its buffer (R363). -/
def Launch.recordOff (l : Launch) (x y : Nat) : Nat :=
  8192 * (y / 16 * ((l.w + 15) / 16) + x / 16) + 512 * (y % 16) + 32 * (x % 16)

/-- The buffer that backs a pixel's line in the store of die `d` (R363). -/
def Launch.buffer (l : Launch) (d plane x y : Nat) : Nat :=
  if l.ownerDie x y = d then l.bases.getD plane 0 else l.brims.getD (2 * plane + d) 0

/-- The backing address of a pixel's record in the store of die `d`. -/
def Launch.recordPa (l : Launch) (d plane x y : Nat) : Nat := l.buffer d plane x y + l.recordOff x y

/-- The key of a reservoir line for its home (R363). -/
def Launch.homeHash (l : Launch) (d plane x y : Nat) : Nat :=
  let b := l.buffer d plane x y
  let key := (blockingHash (BitVec.ofNat 64 (b / 2 ^ 21 % 2 ^ 35)) 0x5E5#32).toNat * 2 ^ 32 + y / 16 * 65536 + x / 16
  (blockingHash (BitVec.ofNat 64 key) 0x5E5#32).toNat

/-- The home slice of a reservoir line, numbered over the module, and its set (R363, log 17). -/
def Launch.homeSlice (l : Launch) (d plane x y : Nat) : Nat := 24 * d + l.homeHash d plane x y % 24
def Launch.homeSet (l : Launch) (d plane x y : Nat) : Nat := l.homeHash d plane x y / 24 % 4096

/-- What names a reservoir line among the lines that engines own (R230, R368): apart from the lines of memory. -/
def rsvLine (pa : Nat) : Nat := 2 ^ 60 + pa / 128

/-- A reservoir line written back to its backing address, if it is dirty (R364). -/
def State.writeBackRsv (s : State) (r : RsvLine) : State :=
  if r.dirty then { s with mem := storePaste s.mem r.pa 128 r.bytes }.markWritten r.pa else s

/-- The reservoir ways of a set that are not pinned (R364). -/
def State.rsvRoom (s : State) (slice set : Nat) : Nat :=
  min s.dev.rsvWays (16 - (s.dev.pins.filter fun l => sliceOf l == slice && setOf l == set).length)

/-- A reservoir line brought into its home slice, as the most recently used (R364): none for a bypass, which is counted. -/
def State.rsvTake (s : State) (pa slice set : Nat) : State × Option RsvLine :=
  let room := s.rsvRoom slice set
  if room = 0 then
    let mine := s.dev.rsv.filter fun r => r.slice == slice && r.set == set
    let s := (mine.foldl State.writeBackRsv s).modDev fun d => { d with rsv := d.rsv.filter fun r => !(r.slice == slice && r.set == set) }
    let n := storeRead s.dev.bypass slice
    (s.modDev fun d => { d with bypass := storeWrite d.bypass slice (if n = 0xFFFFFFFF#32 then n else n + 1#32) }, none)
  else
    match s.dev.rsv.find? fun r => r.pa == pa with
    | some r => (s.modDev fun d => { d with rsv := (d.rsv.filter fun r => r.pa != pa) ++ [r] }, some r)
    | none =>
      let mine := s.dev.rsv.filter fun r => r.slice == slice && r.set == set
      let out := mine.take (mine.length + 1 - room)
      let s := out.foldl State.writeBackRsv s
      let r : RsvLine := { pa := pa, slice := slice, set := set, bytes := storeCut s.mem pa 128, dirty := false }
      (s.modDev fun d => { d with rsv := (d.rsv.filter fun r => !(out.map RsvLine.pa).contains r.pa) ++ [r] }, some r)

/-- The eight words that bytes make. -/
def recordOf (m : Memory) (a : Nat) : List Word := (List.range 8).map fun i => BitVec.ofNat 32 (readBytes m (a + 4 * i) 4)

/-- A record read from the store of die `d` (R366). -/
def State.readRecord (s : State) (l : Launch) (d plane x y : Nat) : State × List Word :=
  let pa := l.recordPa d plane x y
  match s.rsvTake (pa / 128 * 128) (l.homeSlice d plane x y) (l.homeSet d plane x y) with
  | (s, some r) => (s, recordOf r.bytes (pa % 128))
  | (s, none) => (s, recordOf s.mem pa)

/-- The 32 bytes of a record. -/
def recordBytes (w : List Word) : List Byte := w.flatMap fun x => leBytes 4 x.toNat

/-- A record written in the store of die `d` (R366). -/
def State.writeRecord (s : State) (l : Launch) (d plane x y : Nat) (w : List Word) : State :=
  let pa := l.recordPa d plane x y
  match s.rsvTake (pa / 128 * 128) (l.homeSlice d plane x y) (l.homeSet d plane x y) with
  | (s, some _) =>
    s.modDev fun dv => { dv with rsv := dv.rsv.map fun r =>
      if r.pa = pa / 128 * 128 then { r with bytes := putBytes r.bytes (pa % 128) (recordBytes w), dirty := true } else r }
  | (s, none) => { s with mem := putBytes s.mem pa (recordBytes w) }.markWritten pa

/-- The reservoir ways changed to `n` (R364): ordinary lines in ways that are added, and reservoir lines that no longer have a way, are written
back and go. -/
def State.setRsvWays (s : State) (n : Nat) : State :=
  let s := s.takeWays n
  let sets := (s.dev.rsv.map fun r => (r.slice, r.set)).eraseDups
  sets.foldl (fun s e =>
    let mine := s.dev.rsv.filter fun r => r.slice == e.1 && r.set == e.2
    let out := mine.take (mine.length - n)
    (out.foldl State.writeBackRsv s).modDev fun d => { d with rsv := d.rsv.filter fun r => !(out.map RsvLine.pa).contains r.pa }) s

/-- The active lanes of a record access with their pixels, those in the image (R366, R367). -/
def State.pixels (s : State) (l : Launch) (plane : Nat) (a : BitVec 8) : List (Nat × Nat × Nat) :=
  (s.active.map fun i => (i, (s.g.vreg a.toNat i).toNat, (s.g.vreg (a.toNat + 1) i).toNat)).filter fun e => l.inImage plane e.2.1 e.2.2

/-- A record access begins (R368): it waits for a line that an engine owns, and a line that holds an uncorrectable error is MEMERR
(R428). -/
def withRecords (write : Bool) (pas : List (Nat × Nat)) (s : State) (k : State → Out) : Out :=
  if s.g.atomicsInFlight then .next (s.stall .atomics)
  else
  match pas.find? fun e => s.ownedLine (rsvLine e.2) with
  | some e => .next (s.stall (.owned (rsvLine e.2)))
  | none =>
    let bad := pas.filter fun e => s.dev.poisoned.contains (lineOf e.2)
    if bad.isEmpty then k s
    else .next (s.trap { cause := cMEMERR, sub := if write then 4 else 0, lanes := some (laneMask (bad.map Prod.fst)) })

/-- RSVLD (R366 to R368). -/
def execRsvld (c : BitVec 4) (a d : BitVec 8) (s : State) : Out :=
  issue { rd := [.s (c.setWidth 7) 1, .v a 2], wr := [.v d 8] } s fun s =>
    let ctl := s.readS (c.setWidth 7)
    let plane := field ctl 1 0
    let l := s.launchOf s.g.team
    let px := s.pixels l plane a
    let die := fun (x y : Nat) => if ctl.getLsbD 2 then dieOf s.g.core else l.ownerDie x y
    withRecords false (px.map fun e => (e.1, l.recordPa (die e.2.1 e.2.2) plane e.2.1 e.2.2)) s fun s =>
      let (s, got) := px.foldl (fun (st : State × Keyed (List Word)) e =>
        let (s, w) := st.1.readRecord l (die e.2.1 e.2.2) plane e.2.1 e.2.2
        (s, keyPut st.2 e.1 w)) (s, [])
      runResult d 8 (fun i => (keyFind got i).getD []) s

/-- RSVST (R366 to R368). -/
def execRsvst (c : BitVec 4) (a d : BitVec 8) (s : State) : Out :=
  issue { rd := [.s (c.setWidth 7) 1, .v a 2, .v d 8] } s fun s =>
    let plane := field (s.readS (c.setWidth 7)) 1 0
    let l := s.launchOf s.g.team
    let px := s.pixels l plane a
    withRecords true (px.map fun e => (e.1, l.recordPa (l.ownerDie e.2.1 e.2.2) plane e.2.1 e.2.2)) s fun s =>
      .next (px.foldl (fun s e => s.writeRecord l (l.ownerDie e.2.1 e.2.2) plane e.2.1 e.2.2 (s.runOf d 8 e.1)) s).retire

/-! ## The brim (R369, R370) -/

/-- Whether a pixel lies in the brim of die `d` (R362). -/
def Launch.inBrim (l : Launch) (d x y : Nat) : Bool :=
  l.ownerDie x y == d &&
    (let b := l.brim
     let x0 := (x - b) / 64
     let y0 := (y - b) / 64
     let x1 := min (x + b) (l.w - 1) / 64
     let y1 := min (y + b) (l.h - 1) / 64
     (List.range (y1 + 1 - y0)).any fun j => (List.range (x1 + 1 - x0)).any fun i => l.ownerDie (64 * (x0 + i)) (64 * (y0 + j)) != d)

/-- The fields of a brim descriptor (Table 14.4), held as a little-endian number. -/
structure BrimDesc where
  left : Nat
  top : Nat
  w : Nat
  h : Nat
  plane : Nat
  box : Bool
  target : Nat
  where_ : Nat
deriving DecidableEq, Repr

def brimDesc (d : Nat) : BrimDesc :=
  { left := nfield d 15 0, top := nfield d 31 16, w := nfield d 47 32, h := nfield d 63 48, plane := nfield d 65 64, box := d.testBit 66
    target := nfield d 127 96, where_ := nfield d 159 128 }

/-- The checks of BRIMX (R369). -/
def State.brimChecks (s : State) (off d : Nat) : Bool :=
  let l := s.launchOf s.g.team
  let b := brimDesc d
  let teams := ((keyFind s.dev.grids s.myTeam.grid).map fun g => g.task.card.teams).getD 0
  decide (0 < l.planes) && s.ownBounds off 32 && nfield d 95 67 == 0 && nfield d 255 160 == 0 && decide (1 ≤ b.w) && decide (b.w ≤ 256) &&
    decide (1 ≤ b.h) && decide (b.h ≤ 256) && decide (b.left + b.w ≤ l.w) && decide (b.top + b.h ≤ l.h) && decide (b.plane < l.planes) &&
    (if b.box then decide (b.target ≤ 15) else b.where_ % 16 == 0 && decide (b.target < teams))

/-- BRIMX (R369): held until its region commits. -/
def execBrimx (c : BitVec 4) (s : State) : Out :=
  issue { rd := [.s (c.setWidth 7) 1], roles := 8#4, path := some 7 } s fun s =>
    let off := (s.readS (c.setWidth 7)).toNat
    let d := leNat (s.teamBytes s.g.team off 32)
    if off % 32 ≠ 0 then .next (s.trap { cause := cMISALIGN, lanes := some 0#32 })
    else if !s.brimChecks off d then .next (s.trap { cause := cSPBOUND, lanes := some 0#32 })
    else
      let id := s.nextId
      let core := s.g.core
      let b : BrimOp := { team := s.g.team, slot := s.g.slot, op := id, ctx := s.g.ctx, launch := s.myTeam.launch, desc := d, held := true }
      let s := s.addOp { id := 0, flag := none, path := some 7, inRegion := true, command := some core }
      let s := s.modCore core fun k => { k with brims := keyPut k.brims id b }
      .next (s.hold 3 id 7).retire

/-- The pixels of a rectangle, row by row. -/
def rectPixels (left top w h : Nat) : List (Nat × Nat) :=
  (List.range h).flatMap fun j => (List.range w).map fun i => (left + i, top + j)

/-- The pixels that a brim exchange copies (R370). -/
def BrimOp.pixels (b : BrimOp) (l : Launch) (die : Nat) : List (Nat × Nat) :=
  let r := brimDesc b.desc
  (rectPixels r.left r.top r.w r.h).filter fun e => l.inBrim die e.1 e.2

/-- A released brim exchange takes its destination lines (R230, R370). -/
def State.startBrim (s : State) (core id : Nat) : State :=
  match keyFind (s.core core).brims id with
  | none => s
  | some b =>
    let die := dieOf core
    let l := (keyFind s.dev.launches b.launch).getD { ctx := 0 }
    let plane := (brimDesc b.desc).plane
    let lines := ((b.pixels l die).map fun e => rsvLine (l.recordPa (1 - die) plane e.1 e.2)).eraseDups
    let s := s.modDev fun d => { d with owned := d.owned ++ lines.map fun n => (n, core, id) }
    (s.modCore core fun k => { k with brims := keyPut k.brims id { b with held := false } }).after (270 + lines.length)
      (.brimArrival core id)

/-- A signal store applied (R397, R398). -/
def State.signal (s : State) (ctx die box : Nat) (v : Word) : State :=
  let s := s.modCtx ctx fun c => { c with boxes := storeWrite c.boxes (16 * die + box) v }
  ((s.dev.teams.filter fun e => e.2.ctx == ctx && dieOf e.2.core == die).map Prod.fst).foldl State.checkWaitx s

/-- A credit kept for a team of a grid that is to start, or to start again (R370). -/
def State.keepCredit (s : State) (grid index off : Nat) : State :=
  match keyFind s.dev.grids grid with
  | none => s
  | some g =>
    if g.ended.contains index then s
    else s.modDev fun d => { d with grids := keyPut d.grids grid { g with credits := g.credits ++ [(index, off)] } }

/-- A credit for a team of a grid by its index (R370): now, when it starts, or never. -/
def State.creditTeam (s : State) (grid index off n st : Nat) : State :=
  match s.dev.teams.find? fun e => e.2.grid == grid && e.2.index == index with
  | some (t, tm) =>
    if !tm.ending then s.credit t off n st
    else if ((s.clusterOf t).map Cluster.aborted).getD false then s.keepCredit grid index off
    else s
  | none => s.keepCredit grid index off

/-- Whether a line may be touched by an engine command: the first claim on it is its own (R230). -/
def State.firstOwner (s : State) (core id line : Nat) : Bool :=
  match s.dev.owned.find? fun o => o.1 == line with
  | some o => o.2.1 == core && o.2.2 == id
  | none => true

/-- BRIM_ARRIVAL (R370): the records are copied with BRIM set, the arrival is reported, and P7 is lowered. -/
def execBrimArrival (core op : Nat) (s : State) : Out :=
  match keyFind (s.core core).brims op with
  | none => .next s
  | some b =>
    if b.held then .next s
    else
      let die := dieOf core
      let l := (keyFind s.dev.launches b.launch).getD { ctx := 0 }
      let r := brimDesc b.desc
      let px := b.pixels l die
      let free := px.all fun e =>
        s.firstOwner core op (rsvLine (l.recordPa die r.plane e.1 e.2)) && s.firstOwner core op (rsvLine (l.recordPa (1 - die) r.plane e.1 e.2))
      if !free then .next (s.after 16 (.brimArrival core op))
      else
        let s := px.foldl (fun s e =>
          let (s, w) := s.readRecord l die r.plane e.1 e.2
          s.writeRecord l (1 - die) r.plane e.1 e.2 (w.set 5 (wordAt w 5 ||| 0x800000#32))) s
        let s := s.modDev fun d => { d with owned := d.owned.filter fun o => !(o.2.1 == core && o.2.2 == op) }
        let s := if r.box then s.signal b.ctx (1 - die) (r.target % 16) (BitVec.ofNat 32 r.where_)
          else s.creditTeam (s.team b.team).grid r.target r.where_ 1 0
        .next ((s.modCore core fun k => { k with brims := keyDrop k.brims op }).finishOp core b.slot op {})

end Sys2Proof.Machine
end

