-- ==== Sys2Proof/Machine/System.lean ====
section
/-! DEFINITION. Sys2Proof/Machine/System.lean: system registers (06_registers_scalar.md, R152 to R159, R481), traps and the supervisor
(16_translation_and_traps.md, R417 to R423), invalidation and harvest (R410 to R414), debug halt (R435), and the states of a context
(R427, R434). -/

namespace Sys2Proof.Machine

/-! ## Trap records as words (R418 to R420) -/

/-- The head of the engine-fault queue as the control node, or the core's own supervisor, meets it: the oldest record that is its to serve
(R417, R449, log 56). -/
def Core.engineHead (k : Core) (host : Bool) : Option EngineFault := k.faults.find? fun f => f.host == host

/-- The pending records that the core's own supervisor is to serve, each with its clock and its number: group slots, and 64 for the
head of the engine-fault queue (R420). -/
def Core.served (k : Core) : List (Nat × Nat) :=
  ((k.traps.filter fun e => !e.2.host).map fun e => (e.2.clock.toNat, e.1)) ++
    match k.engineHead false with
    | none => []
    | some f => [(f.clock, 64)]

/-- The oldest record: the least clock, and of one clk the least number, the engine-fault queue last (R420). -/
def Core.oldest (k : Core) : Option Nat :=
  (k.served.foldl (fun best e =>
    match best with
    | none => some e
    | some b => if e.1 < b.1 ∨ (e.1 = b.1 ∧ e.2 < b.2) then some e else best) none).map Prod.snd

/-- Word `n` of a group's trap record (Table 16.6). -/
def TrapRec.word (r : TrapRec) (core slot n : Nat) : Word :=
  match n with
  | 0 => BitVec.ofNat 32 (r.cause + 2 ^ 8 * r.sub + 2 ^ 16 * slot + 2 ^ 22 * r.split + (if r.aborted then 2 ^ 24 else 0) +
      (if r.nr then 2 ^ 25 else 0))
  | 1 => r.pc
  | 2 => r.va.setWidth 32
  | 3 => (r.va >>> 32).setWidth 32
  | 4 => BitVec.ofNat 32 (r.va.toNat / 2 ^ 64 + 2 ^ 16 * r.ctx)
  | 5 => r.lanes
  | 6 => r.exec
  | 7 => r.infoA
  | 8 => r.infoB
  | 9 => BitVec.ofNat 32 (core + 2 ^ 9 * r.tslot)
  | 10 => lo32 r.clock
  | 11 => hi32 r.clock
  | 12 => r.action
  | 13 => r.hwmval
  | _ => 0#32

/-- Whether the record that sys.trsel selects is pending. -/
def Core.selected (k : Core) : Bool :=
  if k.trsel.toNat < 64 then (keyFind k.traps k.trsel.toNat).isSome else k.trsel = 64#7 && (k.engineHead false).isSome

/-- Word `n` of the selected record; zeros when it is not pending (R420). -/
def Core.trecWord (k : Core) (core n : Nat) : Word :=
  if k.trsel.toNat < 64 then
    match keyFind k.traps k.trsel.toNat with
    | some r => r.word core k.trsel.toNat n
    | none => 0#32
  else if k.trsel = 64#7 then
    match k.engineHead false with
    | some f => if n < 8 then f.words.getD n 0#32 else if n = 12 then f.action else 0#32
    | none => 0#32
  else 0#32

/-! ## Reading system registers (R152, R153, R419) -/

/-- The context whose context-scoped registers SRD and SWR address (R481). -/
def State.sysCtx (s : State) : Nat := if s.isSup then s.g.sys.ctxsel.toNat else s.g.ctx

/-- Word `n` of a scope mask (R158). -/
def maskWord (m : BitVec 320) (n : Nat) : Word := m.extractLsb' (32 * n) 32

/-- Whether a context-state broadcast is in progress (Table 16.7). -/
def State.ctxBusy (s : State) : Bool :=
  s.agenda.any fun a => match a.ev with
    | .contextSuspend _ => true
    | .contextResume _ => true
    | .contextMarkFailed _ => true
    | _ => false

/-- The column, row, width and height of the issuing core in its cluster (Table 6.5). -/
def State.clpos (s : State) : Word :=
  match s.clusterOf s.g.team with
  | some c => BitVec.ofNat 32 (s.myTeam.pos % c.w + 16 * (s.myTeam.pos / c.w) + 256 * c.w + 4096 * c.h)
  | none => 0#32

/-- The value of a system register (Table 6.5, Table 16.7). -/
def State.sysReg (s : State) (n : Nat) : Word :=
  let y := s.g.sys
  let c := s.ctx s.sysCtx
  let k := s.core s.g.core
  if 0x13 ≤ n ∧ n ≤ 0x1C then maskWord (s.scopeMask s.sysCtx s.g.core s.g.team y.scsel.toNat) (n - 0x13)
  else if 0x30 ≤ n ∧ n ≤ 0x3F then (storeRead y.mcset (n - 0x30)).setWidth 32
  else if 0x40 ≤ n ∧ n ≤ 0x47 then (storeRead c.win (n - 0x40)).setWidth 32
  else if 0x70 ≤ n then k.trecWord s.g.core (n - 0x70)
  else match n with
  | 0x00 => BitVec.ofNat 32 s.g.core
  | 0x01 => BitVec.ofNat 32 (dieOf s.g.core)
  | 0x02 => s.clpos
  | 0x03 => BitVec.ofNat 32 s.myTeam.index
  | 0x04 => BitVec.ofNat 32 s.myTeam.card.teams
  | 0x05 => s.g.role.setWidth 32
  | 0x06 => y.gang
  | 0x07 => BitVec.ofNat 32 s.myTeam.spbase
  | 0x08 => BitVec.ofNat 32 s.myTeam.spsize
  | 0x09 => y.faultmask
  | 0x0A => y.mode.setWidth 32
  | 0x0B => y.fpflags.setWidth 32
  | 0x0C => y.fpen.setWidth 32
  | 0x0D => y.mcap.setWidth 32
  | 0x0E => y.rngkey0
  | 0x0F => y.rngkey1
  | 0x10 => BitVec.ofNat 32 s.clock
  | 0x11 => y.clockhi
  | 0x12 => y.scsel.setWidth 32
  | 0x20 => BitVec.ofNat 32 s.g.ctx
  | 0x21 => y.privhwm
  | 0x22 => c.lease
  | 0x23 => c.orphan
  | 0x24 => k.tvec
  | 0x25 => k.preemptLimit
  | 0x5F => if s.isSup then y.ctxsel.setWidth 32 else 0#32
  | 0x60 => BitVec.ofNat 32 (k.trsel.toNat + if k.selected then 2 ^ 31 else 0)
  | 0x61 => match k.oldest with
    | some r => BitVec.ofNat 32 (r + 2 ^ 31)
    | none => 0#32
  | 0x62 => c.ptroot0
  | 0x63 => c.ptroot1.setWidth 32
  | 0x64 => BitVec.ofNat 32 s.privBase.1
  | 0x65 => BitVec.ofNat 32 (s.privBase.1 / 2 ^ 32)
  | 0x66 => c.privcfg.setWidth 32
  | 0x67 => s.dev.hmode.setWidth 32
  | 0x68 => c.fspill0
  | 0x69 => c.fspill1.setWidth 32
  | 0x6A => c.fspcap
  | 0x6B => k.wdlimit
  | 0x6C => k.preempt.setWidth 32
  | 0x6D => k.pesave0
  | 0x6E => k.pesave1.setWidth 32
  | 0x6F => BitVec.ofNat 32 (s.dev.ctxstate.toNat + if s.ctxBusy then 2 ^ 31 else 0)
  | _ => 0#32

/-- SRD of register `n` (R153); a read of sys.clock latches the high half (R156). -/
def readSys (n d : BitVec 7) (s : State) : Out :=
  issue { wr := [.s d 1] } s fun s =>
    let x := s.sysReg n.toNat
    let s := if n = 0x10#7 then
        { s with g := { s.g with sys := { s.g.sys with clockhi := BitVec.ofNat 32 (s.clock / 2 ^ 32) } } } else s
    .next (s.writeS d x).retire

/-- SRD (R153). -/
def execSrd (n d : BitVec 7) (s : State) : Out := readSys n d s

/-- SYS_CLOCK_READ: the SRD of sys.clock (R156). -/
def execSysClockRead (d : BitVec 7) (s : State) : Out := readSys 0x10#7 d s

/-! ## Writing system registers -/

/-- The protected registers (Table 6.5, Table 16.7): an SWR in program mode raises PRIV. -/
def isProtected (n : Nat) : Bool :=
  decide (0x21 ≤ n ∧ n ≤ 0x25) || decide (0x40 ≤ n ∧ n ≤ 0x47) || n == 0x5F || n == 0x60 || n == 0x62 || n == 0x63 ||
    decide (0x66 ≤ n ∧ n ≤ 0x7F)

/-- The context-scoped registers that an SWR writes (R157, R481). -/
def isCtxReg (n : Nat) : Bool :=
  decide (0x13 ≤ n ∧ n ≤ 0x1C) || n == 0x22 || n == 0x23 || decide (0x40 ≤ n ∧ n ≤ 0x47) || n == 0x62 || n == 0x63 || n == 0x66 ||
    decide (0x68 ≤ n ∧ n ≤ 0x6A)

/-- The core-scoped registers that an SWR writes (R419, Table 16.7). -/
def isCoreReg (n : Nat) : Bool :=
  n == 0x24 || n == 0x25 || n == 0x60 || decide (0x6B ≤ n ∧ n ≤ 0x6E) || decide (0x70 ≤ n)

/-- The group-scoped registers changed. -/
def State.modSys (s : State) (f : GroupSys → GroupSys) : State := { s with g := { s.g with sys := f s.g.sys } }

/-- A word of a scope mask replaced. -/
def putMaskWord (m : BitVec 320) (n : Nat) (x : Word) : BitVec 320 :=
  (m &&& ~~~(0xFFFFFFFF#320 <<< (32 * n))) ||| (x.setWidth 320 <<< (32 * n))

/-- A context-scoped register written (R157, R158, R481); entries 0 to 3 of the scope table are fixed. -/
def State.writeCtxReg (s : State) (n : Nat) (x : Word) : State :=
  let e := s.g.sys.scsel.toNat
  s.modCtx s.sysCtx fun c =>
    if 0x13 ≤ n ∧ n ≤ 0x1C then
      if e < 4 then c else { c with scopes := storeWrite c.scopes e (putMaskWord (storeRead c.scopes e) (n - 0x13) x) }
    else if 0x40 ≤ n ∧ n ≤ 0x47 then { c with win := storeWrite c.win (n - 0x40) (x.setWidth 16) }
    else match n with
    | 0x22 => { c with lease := x }
    | 0x23 => { c with orphan := BitVec.ofNat 32 (max 1 (min x.toNat 1000000)) }
    | 0x62 => { c with ptroot0 := x }
    | 0x63 => { c with ptroot1 := x.setWidth 8 }
    | 0x66 => { c with privcfg := x.setWidth 21 }
    | 0x68 => { c with fspill0 := x &&& 0xFFFFFF80#32 }
    | 0x69 => { c with fspill1 := x.setWidth 24 }
    | 0x6A => { c with fspcap := x }
    | _ => c

/-- sys.ctxstate written (Table 16.7): the operation is broadcast. -/
def State.writeCtxState (s : State) (x : Word) : State :=
  let ctx := field x 15 0
  let s := s.modDev fun d => { d with ctxstate := x.setWidth 16 }
  match field x 17 16 with
  | 1 => s.after 1 (.contextSuspend ctx)
  | 2 => s.after 1 (.contextResume ctx)
  | 3 => s.after 1 (.contextMarkFailed ctx)
  | _ => s

/-- The bits of an action word that it has: the action, and HWM; its other bits are zero (Table 16.6). -/
def actionBits (x : Word) : Word := x &&& 0x107#32

/-- The first element of a list that satisfies `p`, changed. -/
def modFirst {α : Type} (p : α → Bool) (f : α → α) : List α → List α
  | [] => []
  | a :: l => if p a then f a :: l else a :: modFirst p f l

/-- Words 12 and 13 of the selected record; its other words ignore writes (R418, R420). -/
def Core.writeTrec (k : Core) (n : Nat) (x : Word) : Core :=
  if k.trsel.toNat < 64 then
    { k with traps := keyModify k.traps k.trsel.toNat fun r =>
        if n = 12 then { r with action := actionBits x } else if n = 13 then { r with hwmval := x } else r }
  else if k.trsel = 64#7 ∧ n = 12 then { k with faults := modFirst (fun f => !f.host) (fun f => { f with action := actionBits x }) k.faults }
  else k

/-- A core-scoped register written (R419). -/
def State.writeCoreReg (s : State) (n : Nat) (x : Word) : State :=
  let s' := s.modCore s.g.core fun k =>
    if 0x70 ≤ n then k.writeTrec (n - 0x70) x
    else match n with
    | 0x24 => { k with tvec := x }
    | 0x25 => { k with preemptLimit := x }
    | 0x60 => { k with trsel := x.setWidth 7 }
    | 0x6B => { k with wdlimit := x }
    | 0x6C => { k with preempt := k.preempt ||| x.setWidth 8 }
    | 0x6D => { k with pesave0 := x &&& 0xFF000000#32 }
    | 0x6E => { k with pesave1 := x.setWidth 24 }
    | _ => k
  if n = 0x6C then s'.after 1 (.preemptRequest s.g.core (x.setWidth 8)) else s'

/-- SWR of register `n` with a value (R153 to R159): unassigned numbers and read-only registers ignore it. -/
def State.writeSysReg (s : State) (n : Nat) (x : Word) : State :=
  if isCtxReg n then s.writeCtxReg n x
  else if 0x30 ≤ n ∧ n ≤ 0x3F then s.modSys fun y => { y with mcset := storeWrite y.mcset (n - 0x30) (x.setWidth 16) }
  else match n with
  | 0x09 => s.modSys fun y => { y with faultmask := y.faultmask &&& ~~~x }
  | 0x0A => s.modSys fun y => { y with mode := x.setWidth 2 }
  | 0x0B => s.modSys fun y => { y with fpflags := x.setWidth 5 }
  | 0x0C => s.modSys fun y => { y with fpen := x.setWidth 5 }
  | 0x0D => s.modSys fun y => { y with mcap := x.setWidth 16 }
  | 0x0E => s.modSys fun y => { y with rngkey0 := x }
  | 0x0F => s.modSys fun y => { y with rngkey1 := x }
  | 0x12 => s.modSys fun y => { y with scsel := x.setWidth 5 }
  | 0x21 => s.modSys fun y => { y with privhwm := x }
  | 0x5F => s.modSys fun y => { y with ctxsel := x.setWidth 16 }
  | 0x67 => s.modDev fun d => { d with hmode := x.setWidth 10 }
  | 0x6F => s.writeCtxState x
  | n => if isCoreReg n then s.writeCoreReg n x else s

/-- SWR of register `n` (R153): sys.gang makes its checks (R135). -/
def writeSys (n a : BitVec 7) (s : State) : Out :=
  issue { rd := [.s a 1], priv := isProtected n.toNat } s fun s =>
    if n = 0x06#7 then writeGang (s.readS a) s else .next (s.writeSysReg n.toNat (s.readS a)).retire

/-- SWR (R153). -/
def execSwr (n a : BitVec 7) (s : State) : Out := writeSys n a s

/-- SYS_GANG_WRITE: the SWR to sys.gang (R135, R154). -/
def execSysGangWrite (a : BitVec 7) (s : State) : Out := writeSys 0x06#7 a s

/-- SYS_FPFLAGS_WRITE: the SWR to sys.fpflags (R155); an operation completing later ORs its flags into the value written. -/
def execSysFpflagsWrite (a : BitVec 7) (s : State) : Out := writeSys 0x0B#7 a s

/-- SYS_FAULTMASK_CLEAR: the SWR to sys.faultmask (R188). -/
def execSysFaultmaskClear (a : BitVec 7) (s : State) : Out := writeSys 0x09#7 a s

/-- CONTEXT_REGISTER_WRITE: an SWR to a context-scoped register (R157). -/
def execContextRegisterWrite (n a : BitVec 7) (s : State) : Out := writeSys n a s

/-! ## TRAP, BKPT, HALT, ERET (R421 to R423) -/

/-- TRAP (R422). -/
def execTrap (n : BitVec 6) (s : State) : Out :=
  issue {} s fun s => .next (s.trap { cause := cTRAP, infoA := n.setWidth 32 })

/-- BKPT (R422). -/
def execBkpt (n : BitVec 6) (s : State) : Out :=
  issue {} s fun s => .next (s.trap { cause := cBKPT, infoA := n.setWidth 32 })

/-- HALT (R422, R435). -/
def execHalt (s : State) : Out :=
  issue { priv := true } s fun s => .next (s.retire.modCore s.g.core fun k => { k with halted := true })

/-- A stopped group goes on at its record's split (R421): as it stands, or behind the trapping instruction. -/
def Group.resume (g : Group) (clock split : Nat) (skip : Bool) : Group :=
  { g.modSplit split (fun q => if skip then { q with pc := g.skip.1, count := g.skip.2, taken := [], readyTime := clock }
      else { q with readyTime := clock }) with trapped := false }

/-- A watchdog's count starts again when the team it stopped goes on (R429). -/
def State.recount (s : State) (t cause : Nat) : State := if cause = cWATCHDOG then s.countFrom t s.clock else s

/-- Whether the task of a team is over, or starts again from a queue: no record of it has more than a release to wait for. -/
def State.taskGone (s : State) (t : Nat) : Bool :=
  match s.clusterOf t with
  | none => true
  | some c => if c.aborted then c.lost.isEmpty else (s.clusterGroups t).isEmpty

/-- REQUEUE (R421, R426): a task that is not aborted yet is aborted first; a non-restartable one is killed. -/
def State.requeueAction (s : State) (r : TrapRec) : State :=
  if ((s.clusterOf r.team).map Cluster.aborted).getD false then s.requeue r.team
  else if s.nonRestart r.team then s.killCluster r.team
  else (s.abortTask r.team).requeue r.team

/-- Whether a record that waits behind another of its slot still concerns somebody: its group, or the task that an abort with it has ended. -/
def State.stillOwed (s : State) (core : Nat) (e : Nat × TrapRec × (Word × Nat)) : Bool :=
  ((s.group core e.1).any fun g => g.team == e.2.1.team) ||
    (e.2.1.aborted && (s.clusterOf e.2.1.team).any fun c => c.aborted && !c.lost.isEmpty)

/-- The next record that waits for a slot is written, where its split stands now (R417, log 54). -/
def State.nextOwed (s : State) (core slot : Nat) : State :=
  let l := (s.core core).owed.filter fun e => e.1 != slot || s.stillOwed core e
  let s' := s.modCore core fun k => { k with owed := l.eraseP fun e => e.1 == slot }
  match l.find? fun e => e.1 == slot with
  | none => s'
  | some (_, r, skip) =>
    let r := { r with clock := BitVec.ofNat 64 s.clock }
    match s'.group core slot with
    | none => s'.postTrap core slot r
    | some g =>
      match findSplit r.split g.splits with
      | some q => if q.pc = r.pc then s'.stopWith g skip r else s'.stopWith g (q.pc, q.count) { r with pc := q.pc }
      | none => s'.stopWith g skip r

/-- A group goes on after its record (R421): its split as it stands, or behind the trapping instruction; a map's fault has been answered (R198),
and a watchdog's count starts again (R429). -/
def State.resumeAfter (s : State) (core slot : Nat) (r : TrapRec) (skip : Bool) : State :=
  let s := s.modTeam r.team fun tm => { tm with maps := tm.maps.map fun (e : Nat × MapRegion) => (e.1, { e.2 with faulted := false }) }
  (s.modGroup core slot fun g => g.resume s.clock r.split skip).recount r.team r.cause

/-- The action of a group-slot record (R421, R425 to R427); the record is released first, and the next that waits for its slot is written. Of a
group that has ended meanwhile the record's task is acted on all the same, while it is there (R417). -/
def State.applyAction (s : State) (core slot : Nat) (r : TrapRec) : State :=
  let s := s.modCore core fun k => { k with traps := keyDrop k.traps slot }
  let s := if r.action.getLsbD 8 then
      s.modGroup core slot fun g => { g with sys := { g.sys with privhwm := r.hwmval } } else s
  let act := (r.action &&& 7#32).toNat
  let act := if act ≤ 1 ∧ r.aborted then 2 else act
  let s := match act with
    | 0 => s.resumeAfter core slot r false
    | 1 => s.resumeAfter core slot r true
    | 2 => if s.taskGone r.team then s else s.requeueAction r
    | 4 => s.failContext r.ctx
    | _ => if s.taskGone r.team then s else s.killCluster r.team
  (s.nextOwed core slot).placeSoon

/-- Whether an engine-fault record says that its command has ended (Table 11.8: FATAL). -/
def EngineFault.fatal (f : EngineFault) : Bool := ((f.words.getD 3 0#32) >>> 25).getLsbD 0

/-- The answer to an engine-fault record: the engine resumes, or its command is terminated (R298, R421). Agents: 0 a copy command, 1 a
lane of the ray unit, the walker or the texture unit, 2 a carding instruction, 3 a reuse job. -/
def State.engineAnswer (s : State) (core : Nat) (f : EngineFault) (kill : Bool) : State :=
  if f.fatal then s
  else match f.agent with
  | 1 =>
    (s.modCore core fun k => { k with rays := keyModify k.rays (f.op / 32) fun o =>
        { o with lanes := keyModify o.lanes (f.op % 32) fun l => { l with killed := kill } } }).after 1
      (.rayLaneRestart core (f.op / 32) (f.op % 32))
  | 3 =>
    if kill then (s.modCore core fun k => { k with jobs := keyModify k.jobs f.op fun j => { j with code := 2 } }).after 1
      (.reuseJobComplete core f.op)
    else s.after 1 (.reuseJobStart core f.op)
  | _ =>
    if kill || f.resume then s.after 1 (.copyResume core f.op kill) else s.after 1 (.copyRestart core f.op)

/-- The action of the record at the head of the engine-fault queue (R421). -/
def State.applyEngine (s : State) (core : Nat) (f : EngineFault) : State :=
  let s := s.modCore core fun k => { k with faults := k.faults.eraseP fun e => e.host == f.host }
  let act := (f.action &&& 7#32).toNat
  let s := s.engineAnswer core f (decide (3 ≤ act))
  if act = 4 then s.failContext (field (f.words.getD 2 0#32) 31 16) else s

/-- The action of the record that sys.trsel selects, if it is pending (R421). -/
def State.applySelected (s : State) (core : Nat) : State :=
  let k := s.core core
  if k.trsel.toNat < 64 then
    match keyFind k.traps k.trsel.toNat with
    | some r => s.applyAction core k.trsel.toNat r
    | none => s
  else if k.trsel = 64#7 then
    match k.engineHead false with
    | some f => s.applyEngine core f
    | none => s
  else s

/-- While a record is pending, the parked supervisor is to be started (R420). -/
def State.enterSoon (s : State) (core : Nat) : State :=
  if (s.core core).oldest.isSome then s.after 60 (.supervisorEntry core) else s

/-- The whole supervisor parks, at the split that executed ERET: its other splits and its split-sets are gone (R421, log 12). -/
def State.park (s : State) : State :=
  { s with
    g := { s.g with splits := [], sets := [] }
    p := { s.p with idx := 0, set := none, member := 0xFFFFFFFF#32, wait := .idle } }

/-- ERET (R421): the action of the selected record, and the supervisor parks; another pending record starts it again. -/
def execEret (s : State) : Out :=
  issue { priv := true } s fun s =>
    let core := s.g.core
    let s := s.retire.park
    .next ((s.applySelected core).enterSoon core)

/-- SUPERVISOR_ENTRY (R420): the parked supervisor starts at a clause header at sys.tvec, with the oldest record selected; its registers,
exec among them, are as it left them (log 12). -/
def execSupervisorEntry (core : Nat) (s : State) : Out :=
  let k := s.core core
  match k.oldest with
  | none => .next s
  | some r =>
    let f := s.focus core supSlot 0
    if k.halted || f.g.trapped || !(f.p.wait == .idle) then .next s
    else
      .next { (f.modCore core fun k => { k with trsel := BitVec.ofNat 7 r }) with
        p := { f.p with pc := k.tvec, inClause := false, count := 0, wait := .none, readyTime := s.clock } }

/-- HOST_TRAP_ACTION (R417): the control node's action word has the effect of ERET on a record that was sent to it. -/
def execHostTrapAction (core slot : Nat) (action hwm : BitVec 32) (s : State) : Out :=
  if slot = 64 then
    match (s.core core).engineHead true with
    | some f => .next (s.applyEngine core { f with action := actionBits action })
    | none => .next s
  else
    match keyFind (s.core core).traps slot with
    | some r =>
      if r.host then .next (s.applyAction core slot { r with action := actionBits action, hwmval := hwm }) else .next s
    | none => .next s

/-! ## Debug halt (R435) -/

/-- DEBUG_HALT (R435): the core issues nothing more; its engines and its open regions stay as they are. -/
def execDebugHalt (core : Nat) (s : State) : Out := .next (s.modCore core fun k => { k with halted := true })

/-- DEBUG_RESUME (R435): the core issues again. A supervisor that its own trap had stopped goes on at the trapping instruction (log
13). -/
def execDebugResume (core : Nat) (s : State) : Out :=
  let s := s.modCore core fun k => { k with halted := false }
  match keyFind (s.core core).traps supSlot with
  | some r => .next ((s.applyAction core supSlot { r with action := 0#32 }).enterSoon core)
  | none => .next (s.enterSoon core)

/-! ## The states of a context (R273, R427, R434) -/

/-- CONTEXT_SUSPEND (R434, R273): the context's entries are not placed, and its orphan clocks stop. -/
def execContextSuspend (ctx : Nat) (s : State) : Out :=
  if (s.ctx ctx).suspended then .next s
  else
    let s := s.modCtx ctx fun c => { c with suspended := true }
    .next (s.modDev fun d => { d with msgs := d.msgs.map fun e =>
      (e.1, if e.2.ctx = ctx then { e.2 with since := s.clock - e.2.since } else e.2) })

/-- CONTEXT_RESUME (R434, R273): both are reversed; the orphan clocks go on from where they stood. -/
def execContextResume (ctx : Nat) (s : State) : Out :=
  if (s.ctx ctx).suspended then
    let s := s.modCtx ctx fun c => { c with suspended := false }
    let s := s.modDev fun d => { d with msgs := d.msgs.map fun e =>
      (e.1, if e.2.ctx = ctx then { e.2 with since := s.clock - e.2.since } else e.2) }
    let nodes := ((s.dev.msgs.filter fun e => e.2.ctx = ctx && (e.2.place == .ring || e.2.place == .heldRing)).map fun e => e.2.node).eraseDups
    let s := nodes.foldl (fun s n => s.after 1 (.fullingReload n)) s
    let waits := s.dev.msgs.filter fun e => e.2.ctx = ctx && (e.2.place == .store || e.2.place == .held || e.2.place == .backoff)
    .next (waits.foldl (fun s e =>
      s.after (max 1 (1750 * (s.ctx ctx).orphan.toNat - (s.clock - e.2.since)))
        (match e.2.place with
          | .held => .heldDeliveryExpiry e.1
          | .backoff => .fsendOverflow e.1
          | _ => .orphanExpiry e.1)) s.placeSoon)
  else .next s

/-- CONTEXT_MARK_FAILED (R427). -/
def execContextMarkFailed (ctx : Nat) (s : State) : Out := .next (s.failContext ctx)

/-! ## Invalidation (R410 to R413) -/

/-- Whether `x` lies in a range of `n` 64 KiB pages from page `from_` on, page numbers of one window wrapping (R410): the window is
VA[79:64], the page VA[63:16]. -/
def inPages (win from_ n : Nat) (va : Nat) : Bool :=
  decide (va / 2 ^ 64 = win) && decide ((va / 65536 % 2 ^ 48 + 2 ^ 48 - from_) % 2 ^ 48 < n)

/-- Whether a translation overlaps such a range: one of its ends, or one of the range's, lies within the other. -/
def Tlb.overlaps (t : Tlb) (win from_ n : Nat) : Bool :=
  decide (0 < n) && (inPages win from_ n t.va || inPages win from_ n (t.va + 2 ^ t.size - 1) ||
    (decide (t.va / 2 ^ 64 = win) && decide (t.va / 2 ^ t.size = (win * 2 ^ 64 + from_ * 65536) / 2 ^ t.size)))

/-- Whether what a commit point's checks found uses a translation that satisfies `p` (R411). -/
def Kept.uses (p : Tlb → Bool) : Kept → Bool
  | .places l => l.any fun e => match e.place with | .pa _ t => p t | .map _ _ => false
  | .card _ _ t => p t
  | _ => false

/-- The translations that satisfy `p` removed from every holder: the TLBs of the cores and of the dies, and what splits were handed;
the walk caches are emptied (R410). A commit point that stands before its effect has used one of them (R411). -/
def State.removeTlb (s : State) (p : Tlb → Bool) : State :=
  let s := s.mapGroups fun g => { g with splits := g.splits.map fun q =>
    { q with xlat := q.xlat.filter (fun t => !p t), stale := q.stale || q.kept.any (Kept.uses p) } }
  { s with
    cores := s.cores.map fun e => (e.1, { e.2 with tlb := e.2.tlb.filter fun t => !p t })
    dev := { s.dev with tlb2 := s.dev.tlb2.map fun e => (e.1, e.2.filter fun t => !p t), walkCache := [] } }

/-- The lines of open regions that were translated through removed entries are marked (R411): `p` takes a context and a virtual
address. An open transaction that holds such a line aborts every lane (log 14). -/
def State.markLines (s : State) (p : Nat → Nat → Bool) : State :=
  let mark := fun (k : Keyed LineBytes) => k.map fun e => (e.1, if p e.2.ctx (128 * e.2.va) then { e.2 with marked := true } else e.2)
  let hit := fun (k : Keyed LineBytes) => k.any fun e => p e.2.ctx (128 * e.2.va)
  s.mapGroups fun g =>
    { g with
      region := { g.region with stores := mark g.region.stores, reads := mark g.region.reads }
      tx := g.tx.map fun x => if x.perLane.any fun e => hit e.2.stores || hit e.2.reads then x.abort x.lanes 9 else x }

/-- The loads and atomics in flight of the groups that satisfy `p`: core, slot, operation (R411). -/
def State.loadsOf (s : State) (p : Group → Bool) : List (Nat × Nat × Nat) :=
  (s.groups.filter p).flatMap fun g =>
    (g.ops.filter fun o => (o.path == some 0 || o.atomic.isSome) && !o.done && o.returned.isNone).map fun o => (g.core, g.slot, o.id)

/-- The groups that satisfy `p` with a commit in progress, or whose instruction has still to act behind it (R411). -/
def State.commitsOf (s : State) (p : Group → Bool) : List (Nat × Nat) :=
  (s.groups.filter fun g => p g && g.region.committing.isSome).map fun g => (g.core, g.slot)

/-- A request of the issuing split is made: it waits for the reply, and the event looks at it after `clk`. -/
def State.ask (s : State) (kind : ReqKind) (clk : Nat) (ev : Nat → Event) : State :=
  let id := s.nextId
  let r : Request := { core := s.g.core, slot := s.g.slot, split := s.p.idx, kind := kind }
  let s := s.modDev fun d => { d with requests := keyPut d.requests id r }
  let s := ({ s with nextId := id + 1, p := { s.p with stage := 1 } }).after clk (ev id)
  s.stall (.request id)

/-- The translations that any holder has and that satisfy `p`. -/
def State.heldTlb (s : State) (p : Tlb → Bool) : List Tlb :=
  (s.cores.flatMap fun e => e.2.tlb.filter p) ++ (s.dev.tlb2.flatMap fun e => e.2.filter p) ++
    s.groups.flatMap fun g => g.splits.flatMap fun q => q.xlat.filter p

/-- The translations that an invalidation removes (R410); none of another request. -/
def ReqKind.removes : ReqKind → Option (Tlb → Bool)
  | .invalidate ctx win page n => some fun t => decide (n ≠ 0) && (t.global || t.ctx == ctx) && t.overlaps win page n
  | .invalidateCtx ctx all => some fun t => all || (!t.global && t.ctx == ctx)
  | _ => none

/-- Whether an address of a context lies in what an invalidation names. -/
def ReqKind.names (k : ReqKind) (c va : Nat) : Bool :=
  match k with
  | .invalidate ctx win page n => c == ctx && inPages win page n va
  | .invalidateCtx ctx all => all || c == ctx
  | _ => false

/-- Whether a group may have used a translation that an invalidation removes: it is of the context named, or one of every context was
removed (log 33). -/
def ReqKind.concerns (k : ReqKind) (gone : List Tlb) (g : Group) : Bool :=
  match k with
  | .invalidate ctx _ _ n => decide (n ≠ 0) && (g.ctx == ctx || gone.any Tlb.global)
  | .invalidateCtx ctx all => all || g.ctx == ctx
  | _ => false

/-- THE REMOVAL that an invalidation asks for (R410), with the marks of R411: the lines that it names, and those that a larger leaf or a
leaf of every context, removed whole, has translated; and what the acknowledgement then waits for. -/
def State.removal (s : State) (r : Request) (p : Tlb → Bool) : State × Request :=
  let gone := s.heldTlb p
  let who := r.kind.concerns gone
  ((s.removeTlb p).markLines fun c va => r.kind.names c va || gone.any fun t => t.covers c va,
    { r with removed := true, gone := gone, loads := s.loadsOf who, commits := s.commitsOf who })

/-- Whether what an invalidation waits for has finished (R411): the loads have returned, the commits have published or failed, and what acts
behind one uses no removed translation. -/
def State.quiet (s : State) (r : Request) : Bool :=
  (r.loads.all fun l => match s.group l.1 l.2.1 with
    | some g => !(g.ops.any fun o => o.id == l.2.2 && !o.done && o.returned.isNone)
    | none => true) &&
  r.commits.all fun e => match s.group e.1 e.2 with
    | some g => (g.region.committing.isNone || g.region.acting) && g.splits.all fun q => !q.stale
    | none => true

/-- The translations of an invalidation that failed stay with engines until one that names them is acknowledged (R413). -/
def State.keepStale (s : State) (r : Request) (p : Tlb → Bool) : State :=
  s.modDev fun d => { d with stale := if r.lost then d.stale ++ r.gone else d.stale.filter fun t => !p t }

/-- The status of an invalidation of context `ctx` taken to its destination (R410, R413, log 33). -/
def invalidated (ctx : Nat) (d : BitVec 7) (s : State) : Out :=
  let r := BitVec.ofNat 32 (s.p.reply.getD 0)
  if d = 125#7 ∧ r ≠ 0#32 then .next (s.trap { cause := cINVALFAIL, infoA := BitVec.ofNat 32 ctx })
  else .next (s.writeS d r).retire

/-- TLBINV.RANGE (R410, R411): the removal is asked for, and it completes with the acknowledgement (log 9). -/
def execTlbinvRange (b a d : BitVec 7) (s : State) : Out :=
  issue { rd := [.s a 2, .s b 2], wr := [.s d 1], priv := true } s fun s =>
    if s.p.stage ≠ 0 then invalidated ((s.readS64 b).extractLsb' 0 16).toNat d s
    else
      let w := s.readS64 b
      let ctx := (w.extractLsb' 0 16).toNat
      let n := (w.extractLsb' 32 32).toNat
      if n = 0 then .next (s.writeS d 0#32).retire
      else
        let win := (w.extractLsb' 16 16).toNat
        let from_ := (s.readS64 a).toNat / 65536
        .next (s.ask (.invalidate ctx win from_ n) (3500 + 1750 * (n / 65536)) .invalidationAck)

/-- TLBINV.CTX (R410, R411). -/
def execTlbinvCtx (a d : BitVec 7) (s : State) : Out :=
  issue { rd := [.s a 1], wr := [.s d 1], priv := true } s fun s =>
    if s.p.stage ≠ 0 then invalidated (field (s.readS a) 15 0) d s
    else
      let w := s.readS a
      .next (s.ask (.invalidateCtx (field w 15 0) (w.getLsbD 16)) 3500 .invalidationAck)

/-- The reply to the split that waits for a request, or a message to the control node; the request is over. -/
def State.answer (s : State) (req : Nat) (r : Request) (v : Nat) (say : Nat → OutMsg) : State :=
  let s := s.modDev fun d => { d with requests := keyDrop d.requests req }
  if r.core = 320 then s.say (say v)
  else s.modSplit r.core r.slot r.split fun q => if q.wait = .request req then { s.wake q with reply := some v } else q

/-- INVALIDATION_ACK (R411, R413): the removal takes effect everywhere; with everything that used a removed translation finished, the
invalidation is acknowledged: 0, or 20 when an acknowledgement was lost. -/
def execInvalidationAck (req : Nat) (s : State) : Out :=
  match keyFind s.dev.requests req with
  | none => .next s
  | some r =>
    match r.kind.removes with
    | none => .next s
    | some p =>
      let (s, r) := if r.removed then (s, r) else s.removal r p
      if s.quiet r then .next ((s.keepStale r p).answer req r (if r.lost then 20 else 0) .shootdownStatus)
      else .next ((s.modDev fun d => { d with requests := keyPut d.requests req r }).after 20 (.invalidationAck req))

/-- SHOOTDOWN_REQUEST (R449): in host-assisted mode, the control node's range, performed by the I-die, which returns the status; in hardware
mode the function is the supervisor's (log 56). -/
def execShootdownRequest (ctx : Nat) (va : BitVec 80) (pages : Nat) (s : State) : Out :=
  if !s.dev.hmode.getLsbD 4 then .next s
  else
  let id := s.nextId
  let r : Request := { core := 320, slot := 0, split := 0, kind := .invalidate ctx (va.toNat / 2 ^ 64) (va.toNat % 2 ^ 64 / 65536) pages }
  let s := { s with nextId := id + 1 }.modDev fun d => { d with requests := keyPut d.requests id r }
  .next (s.after (3500 + 1750 * (pages / 65536)) (.invalidationAck id))

/-! ## Dirty harvest (R414) -/

/-- What the walk of a harvest gives for a page: the leaf's entry with its size in bits, nothing, or a wait of some clks. -/
inductive LeafAt where
  | at (entry bits : Nat)
  | skip
  | wait (clk : Nat)
deriving DecidableEq, Repr

/-- The leaf that a page of a context reaches (R401, R414): a migrating entry is tried again for 4 µs, and a walk that fails skips it. -/
def State.leafEntry (s : State) (ctx va : Nat) : State × LeafAt :=
  let key := (noCore + 1, ctx, va / 65536)
  match s.walk ctx va with
  | .leaf t entry _ => (s.endTries key, .at entry (if t.size = 21 then 16 else t.size))
  | .fault _ => (s.endTries key, .skip)
  | .waits => (s, .wait 16)
  | .migrating _ =>
    match s.tryAgain key with
    | (true, s) => (s, .wait 438)
    | (false, s) => (s.endTries key, .skip)

/-- One leaf of a harvest (R414): the write records of its physical pages from page `p` of the leaf on, `m` of them, are read and cleared,
and D is set by one atomic OR commit if one was set; none when that commit has to wait. -/
def State.harvestLeaf (s : State) (entry p m : Nat) : Option (State × Nat) :=
  let e := readBytes s.mem entry 16
  let pages := (List.range m).map (ptePa e / 65536 + p + ·)
  let sets := s.dev.written.any pages.contains && !pteD e
  if sets && s.entryHeld entry then none
  else
    let s := s.modDev fun d => { d with written := d.written.filter fun q => !pages.contains q }
    some (if sets then (s.orEntry entry 0x40#8, 1) else (s, 0))

/-- What a harvest has come to: the count of leaves whose D bit changed, and, where it has to wait, the page that it stands at, the pages
that are left, and the clks. -/
structure Harvested where
  s : State
  count : Nat
  rest : Option (Nat × Nat × Nat) := none

/-- The harvest of `n` pages of a window from page `pg` on, leaf by leaf, page numbers wrapping; `c` leaves were counted before. -/
def State.harvest (s : State) (ctx win : Nat) : Nat → Nat → Nat → Nat → Harvested
  | 0, _, _, c => { s := s, count := c }
  | fuel + 1, pg, n, c =>
    if n = 0 then { s := s, count := c }
    else
      match s.leafEntry ctx (win * 2 ^ 64 + pg % 2 ^ 48 * 65536) with
      | (s, .wait clk) => { s := s, count := c, rest := some (pg, n, clk) }
      | (s, .skip) => s.harvest ctx win fuel (pg + 1) (n - 1) c
      | (s, .at entry bits) =>
        let total := 2 ^ (bits - 16)
        let p := pg % total
        let m := min n (total - p)
        match s.harvestLeaf entry p m with
        | none => { s := s, count := c, rest := some (pg, n, 16) }
        | some (s, k) => s.harvest ctx win fuel (pg + m) (n - m) (c + k)

/-- DHARV (R410, R414). -/
def execDharv (b a d : BitVec 7) (s : State) : Out :=
  issue { rd := [.s a 2, .s b 2], wr := [.s d 1], priv := true } s fun s =>
    if s.p.stage ≠ 0 then .next (s.writeS d (BitVec.ofNat 32 (s.p.reply.getD 0))).retire
    else
      let w := s.readS64 b
      let n := (w.extractLsb' 32 32).toNat
      let va := (w.extractLsb' 16 16).toNat * 2 ^ 64 + (s.readS64 a).toNat
      .next (s.ask (.harvest (w.extractLsb' 0 16).toNat va n) (300 * ((n + 63) / 64) + 1) .dirtyHarvestComplete)

/-- DIRTY_HARVEST_COMPLETE (R414): the walk and the clears finish, and the count is written. -/
def execDirtyHarvestComplete (req : Nat) (s : State) : Out :=
  match keyFind s.dev.requests req with
  | none => .next s
  | some r =>
    match r.kind with
    | .harvest ctx va n =>
      let h := s.harvest ctx (va / 2 ^ 64) n (va % 2 ^ 64 / 65536) n r.count
      match h.rest with
      | none => .next (h.s.answer req r h.count .harvestCount)
      | some (pg, n, clk) =>
        let kind := ReqKind.harvest ctx (va / 2 ^ 64 * 2 ^ 64 + pg % 2 ^ 48 * 65536) n
        .next ((h.s.modDev fun d => { d with requests := keyPut d.requests req { r with kind := kind, count := h.count } }).after clk
          (.dirtyHarvestComplete req))
    | _ => .next s

/-- HARVEST_REQUEST (R449): in host-assisted mode, the control node's range; the count returns; in hardware mode the function is the
supervisor's (log 56). -/
def execHarvestRequest (ctx : Nat) (va : BitVec 80) (pages : Nat) (s : State) : Out :=
  if !s.dev.hmode.getLsbD 5 then .next s
  else
  let id := s.nextId
  let r : Request := { core := 320, slot := 0, split := 0, kind := .harvest ctx va.toNat pages }
  let s := { s with nextId := id + 1 }.modDev fun d => { d with requests := keyPut d.requests id r }
  .next (s.after (300 * ((pages + 63) / 64) + 1) (.dirtyHarvestComplete id))

end Sys2Proof.Machine
end

