-- ==== Sys2Proof/Machine/Fulling.lean ====
section
/-! DEFINITION. Sys2Proof/Machine/Fulling.lean: fulling nodes and tags (10_fulling_nodes.md, R247 to R274). Nodes are numbered over the
module: a mesh node by its core, 320 and up the base-die nodes, 384 and up the I-die nodes, 400 and up those of other modules by
their port. -/

namespace Sys2Proof.Machine

/-! ## Tag words (R248) -/

/-- The fields of a tag word (Table 10.2). -/
def tagIndex (w : Nat) : Nat := w % 65536
def tagKind (w : Nat) : Nat := nfield w 17 16
def tagNode (w : Nat) : Nat := nfield w 26 18
def tagGen (w : Nat) : Nat := nfield w 31 27
def tagWord (gen node kind index : Nat) : Nat := index + 2 ^ 16 * kind + 2 ^ 18 * node + 2 ^ 27 * gen

/-- The node that a tag word names. -/
def nodeOf (w : Nat) : Nat :=
  match tagKind w with
  | 0 => tagNode w
  | 1 => 320 + tagNode w
  | _ => if tagNode w / 8 = 8 then 384 + tagNode w % 8 else 400 + tagNode w

/-- The peer port that a node of another module is reached through. -/
def nodePort (node : Nat) : Option Nat := if 400 ≤ node then some ((node - 400) / 8) else none

/-- Whether a word may name a tag to FSEND: its kind, its node and its zero fields (R257). -/
def tagWordOk (w : Nat) : Bool :=
  match tagKind w with
  | 0 => decide (tagNode w < 320)
  | 1 => decide (tagNode w < 64)
  | 2 => decide (tagNode w / 8 ≤ 8)
  | _ => false

/-- The capacity of a node's matching store (Table 10.1). -/
def storeCap (node : Nat) : Nat := if node < 320 then 2 ^ 18 else 2 ^ 20

/-- The time from a node or a core to a node for a number of granules (Table 10.7). -/
def fullingTime (core node granules : Nat) : Nat :=
  if node < 320 ∧ core < 320 ∧ dieOf core = dieOf node then 20 + 6 * hops core node + granules
  else if 384 ≤ node then 260 + granules
  else 180 + granules

/-- The number of clk in a microsecond (R12, Table 1.1). -/
def clkPerUs : Nat := 1750

/-! ## The tag table -/

/-- The key of a tag of a context. -/
def tagKey (ctx index : Nat) : Nat := ctx * 65536 + index

/-- The tag that a word names in a context: allocated, with that very word. -/
def State.tagAt (s : State) (ctx w : Nat) : Option Tag :=
  match keyFind s.dev.tags (tagKey ctx (tagIndex w)) with
  | some t => if t.word = w then some t else none
  | none => none

/-- The tag that INDEX and GEN of a word name (R253, R254). -/
def State.tagByGen (s : State) (ctx w : Nat) : Option Tag :=
  match keyFind s.dev.tags (tagKey ctx (tagIndex w)) with
  | some t => if tagGen t.word = tagGen w then some t else none
  | none => none

/-- A tag changed. -/
def State.modTag (s : State) (ctx w : Nat) (f : Tag → Tag) : State :=
  match s.tagAt ctx w with
  | some t => s.modDev fun d => { d with tags := keyPut d.tags (tagKey ctx (tagIndex w)) (f t) }
  | none => s

/-- A counter of a tag raised, saturating at 255 (R254). -/
def Tag.dropped (t : Tag) : Tag := { t with drops := min (t.drops + 1) 255 }

/-- A tag poisoned with a cause (R271); one that is poisoned stays as it is. -/
def Tag.poison (t : Tag) (cause : Nat) : Tag := if t.cause = 0 then { t with cause := cause } else t

/-- The UNDELIV bit of a tag set, if there is one (R264). -/
def State.undelivered (s : State) (ctx : Nat) (tag : Option Nat) : State :=
  match tag with
  | some w => s.modTag ctx w fun t => { t with undeliv := true }
  | none => s

/-! ## Trees (R252) -/

/-- tree_offset (R252). -/
def treeOffset (l j n : Nat) : Nat :=
  ((List.range (l - 1)).map fun i => let k := i + 1; if 2 ^ (k - 1) < n then (n - 2 ^ (k - 1) + 2 ^ k - 1) / 2 ^ k else 0).sum + j

/-- tree_up (R252): the level, the position and the leg; none at the root. -/
def treeUp (r l0 n : Nat) : Option (Nat × Nat × Nat) :=
  (List.range (12 - l0)).findSome? fun i =>
    let l := l0 + 1 + i
    let j := r / 2 ^ l
    let mid := j * 2 ^ l + 2 ^ (l - 1)
    if mid < n then some (l, j, if r < mid then 0 else 1) else none

/-- The word of a tree's tag, from the tag table (R258). Under a base word that is not the tag's very own (its tag is free or has been
allocated again, or NODE or KIND is another: log 71) it is the word of an earlier generation, which no tag has (R253, R255). -/
def State.treeWord (s : State) (ctx base n l j : Nat) : Nat :=
  let i := (tagIndex base + treeOffset l j n) % 65536
  let old := tagWord (((storeRead s.dev.tagGens (tagKey ctx i)).toNat + 31) % 32) (tagNode base) (tagKind base) i
  match s.tagAt ctx base, keyFind s.dev.tags (tagKey ctx i) with
  | some _, some t => if t.base = tagIndex base then t.word else old
  | _, _ => old

/-! ## Messages -/

/-- A message put among those of the module. -/
def State.putMsg (s : State) (id : Nat) (m : FMsg) : State := s.modDev fun d => { d with msgs := keyPut d.msgs id m }
def State.dropMsg (s : State) (id : Nat) : State := s.modDev fun d => { d with msgs := keyDrop d.msgs id }

/-- The clock value a message's clock starts from: of a suspended context the clks counted, none yet (R273). -/
def State.startOf (s : State) (ctx : Nat) : Nat := if (s.ctx ctx).suspended then 0 else s.clock

/-- The orphan time of a context in clk (R271). -/
def State.orphanClk (s : State) (ctx : Nat) : Nat := clkPerUs * (s.ctx ctx).orphan.toNat

/-- Whether a message's orphan time has passed: never in a suspended context (R273). -/
def State.expired (s : State) (m : FMsg) : Bool := !(s.ctx m.ctx).suspended && decide (m.since + s.orphanClk m.ctx ≤ s.clock)

/-- The bytes of its node's store that messages occupy (R247). -/
def State.storeUse (s : State) (node : Nat) : Nat :=
  ((s.dev.msgs.filter fun e => e.2.node == node && (e.2.place == .store || e.2.place == .held)).map fun e => e.2.len + 128).sum

/-- Whether a message is in a spill ring. -/
def FMsg.spilled (m : FMsg) : Bool := m.place == .ring || m.place == .heldRing

/-! ## The spill ring (R266 to R268) -/

/-- The bit of a tag in a node's spill filter (R267). -/
def filterBit (ctx index : Nat) : Nat :=
  (blockingHash (BitVec.ofNat 64 index ^^^ (BitVec.ofNat 64 ctx <<< 16)) 0x0F11#32).toNat % 4096

/-- Whether a node's filter has the bit of a tag: only then are its spilled operands looked at (R268). -/
def State.filterSet (s : State) (node ctx tag : Nat) : Bool :=
  ((keyFind s.dev.filters node).getD 0#4096).getLsbD (filterBit ctx (tagIndex tag))

/-- The operand that waits at a tag for a leg (R259), in the store, or spilled where the node's filter has the tag's bit (R268). -/
def State.waiting (s : State) (ctx tag leg : Nat) : Option (Nat × FMsg) :=
  s.dev.msgs.find? fun e =>
    (e.2.place == .store || (e.2.place == .ring && s.filterSet e.2.node ctx tag)) && e.2.ctx == ctx && e.2.tag == tag && e.2.leg == leg

/-- What follows when a message has left a node: a node without a spilled operand clears its filter; one with spilled operands reloads
when its store has fallen below half (R267). -/
def State.storeSettled (s : State) (node : Nat) : State :=
  let spilled := s.dev.msgs.any fun e => e.2.node == node && e.2.spilled
  let s := if spilled then s else s.modDev fun d => { d with filters := keyDrop d.filters node }
  if spilled && decide (s.storeUse node < storeCap node / 2) then s.after 1 (.fullingReload node) else s

/-- The base and the capacity of a context's spill ring (Table 16.7). -/
def Ctx.ringBase (c : Ctx) : Nat := c.fspill1.toNat * 2 ^ 32 + c.fspill0.toNat
def Ctx.ringCap (c : Ctx) : Nat := 1024 * c.fspcap.toNat

/-- Whether a ring of which `n` bytes are in use is past three quarters of its capacity (R266). -/
def Ctx.ringLow (c : Ctx) (n : Nat) : Bool := decide (3 * c.ringCap < 4 * n)

/-- The bytes of a context's ring in use: from its oldest entry on to the write place (log 18). -/
def State.ringUse (s : State) (ctx : Nat) : Nat :=
  let head := (storeRead s.dev.rings ctx).toNat
  head - (s.dev.msgs.filter fun e => e.2.ctx == ctx && e.2.spilled).foldl (fun a e => min a e.2.ringAt) head

/-- Where an entry of `n` bytes goes in a context's ring: at the write place, or at the ring's first byte where it would cross the end
(log 18). -/
def State.ringPlace (s : State) (ctx n : Nat) : Nat :=
  let head := (storeRead s.dev.rings ctx).toNat
  let cap := (s.ctx ctx).ringCap
  if cap < head % cap + n then (head / cap + 1) * cap else head

/-- Whether a context's ring has room for an entry. -/
def State.ringRoom (s : State) (ctx len : Nat) : Bool :=
  let head := (storeRead s.dev.rings ctx).toNat
  decide (s.ringUse ctx + (s.ringPlace ctx (128 + len) - head) + 128 + len ≤ (s.ctx ctx).ringCap)

/-- A refill of a context's ring is asked for: of the control node in host-assisted mode, else of the supervisor (R266, R449). -/
def State.askRefill (s : State) (ctx : Nat) : State :=
  if s.dev.hmode.getLsbD 2 then s.say (.spillRefill ctx)
  else s.modDev fun d => { d with asked := if d.asked.contains (.spillRefill ctx) then d.asked else d.asked ++ [.spillRefill ctx] }

/-- A sweep of a node's spilled entries comes about within `clk` (R271). -/
def State.sweepWithin (s : State) (node clk : Nat) : State :=
  if s.agenda.any fun a => a.ev == .spillSweep node && decide (a.due ≤ s.clock + clk) then s else s.after (max 1 clk) (.spillSweep node)

/-- A message spilled to the ring of its context (R266, R267): 128 bytes of header, whose contents are the module's own, and the
operand, in one engine write; past three quarters a refill is requested. -/
def State.spill (s : State) (id : Nat) (m : FMsg) : State :=
  let c := s.ctx m.ctx
  let at_ := s.ringPlace m.ctx (128 + m.len)
  let before := s.ringUse m.ctx
  let header := (List.range 128).map fun i => Config.freeByte (128 * s.nextId + i)
  let s := { s with nextId := s.nextId + 1 }
  let s := s.modDev fun d =>
    { d with
      rings := storeWrite d.rings m.ctx (BitVec.ofNat 64 (at_ + 128 + m.len))
      filters := keyPut d.filters m.node
        (((keyFind d.filters m.node).getD 0#4096) ||| (1#4096 <<< filterBit m.ctx (tagIndex m.tag))) }
  let s := (s.commitBytes (c.ringBase + at_ % c.ringCap) (header ++ bytesAt m.data 0 m.len)).putMsg id { m with ringAt := at_ }
  let s := if c.ringLow (s.ringUse m.ctx) && !c.ringLow before then s.askRefill m.ctx else s
  s.sweepWithin m.node (s.orphanClk m.ctx / 8)

/-! ## Deliveries (R264) -/

/-- What a final destination is: a team that runs; one that has ended or is none of the launch; one that has not started; one that a
pre-emption has saved. -/
inductive Dest where
  | runs (t : Nat)
  | gone
  | waits
  | saved
deriving DecidableEq, Repr

/-- Whether a team of a grid is in a save block (R431). -/
def State.isSaved (s : State) (grid index : Nat) : Bool :=
  s.dev.queues.any fun q => q.2.any fun t => t.grid == grid && t.saved.any fun v => v.team.index == index

/-- The destination of a message (R264). A team that an abort is ending has ended, though its task may be requeued (log 71). -/
def State.destOf (s : State) (m : FMsg) : Dest :=
  match s.dev.teams.find? fun e => e.2.grid == m.launch && e.2.index == m.team with
  | some (t, tm) => if tm.ending then .gone else .runs t
  | none =>
    match keyFind s.dev.grids m.launch with
    | none => .gone
    | some g =>
      if g.ended.contains m.team || decide (g.task.card.teams ≤ m.team) || g.failed then .gone
      else if s.isSaved m.launch m.team then .saved
      else .waits

/-- The time from a node to a message's destination (Table 10.7). -/
def State.deliveryTime (s : State) (m : FMsg) : Nat :=
  match s.destOf m with
  | .runs t => fullingTime (s.team t).core m.node (m.len / 128)
  | _ => 1

/-- Whether a peer port carries operands of a context: its link is up, and a binding maps the context (R251, R274, R442). -/
def State.portOpen (s : State) (ctx port : Nat) : Bool :=
  !s.dev.peerDown.contains port && s.dev.bindings.any fun b => b.2.1 == ctx && b.2.2.1 == port

/-- The home context of what comes in through a port under the sending module's context (R249, R442). -/
def State.homeCtx (s : State) (port ctx : Nat) : Option Nat :=
  (s.dev.bindings.find? fun b => b.2.2.1 == port && b.2.2.2 == ctx).map fun b => b.2.1

/-- A message sent through a peer port under its own context, which the port of the module there maps (R249); a port that does not carry it
loses it (R274). -/
def State.sendPeer (s : State) (m : FMsg) (port : Nat) : State :=
  if s.portOpen m.ctx port then s.say (.peerOperand port { m with sender := none }) else s

/-- A delivery begins (R264): the message goes to its final destination with a status; a delivery that fails sets UNDELIV of `from_`. A
destination in another module is reached through its port; where it cannot be reached the operand is dropped (R274). -/
def State.deliverMsg (s : State) (m : FMsg) (status : Nat) (from_ : Option Nat) (extra : Nat) : State :=
  let id := s.nextId
  let m := { m with place := .delivery, status := status, from_ := from_, sender := none }
  match m.peer with
  | some port => s.sendPeer m port
  | none => ({ s with nextId := id + 1 }.putMsg id m).after (s.deliveryTime m + extra) (.fullingDelivery id)

/-- A delivery held at its node until its team starts (R264), its clock that of its arrival at the node: in the store, or spilled when the
store is full. With the ring full too it stays in the store, beyond its capacity: there is no sender to refuse it to (log 71). -/
def State.holdDelivery (s : State) (id : Nat) (m : FMsg) (clock : Bool) : State :=
  let m := { m with came := s.clock }
  if s.storeUse m.node + m.len + 128 ≤ storeCap m.node ∨ !s.ringRoom m.ctx m.len then
    let s := s.putMsg id { m with place := .held }
    if clock then s.after (m.since + s.orphanClk m.ctx - s.clock) (.heldDeliveryExpiry id) else s
  else s.spill id { m with place := .heldRing }

/-- FULLING_DELIVERY (R264): the operand is written, and the barrier object credited; it is held for a team that has not started; it is
not performed where the team has ended or the range refuses it. -/
def execFullingDelivery (msg : Nat) (s : State) : Out :=
  match keyFind s.dev.msgs msg with
  | none => .next s
  | some m =>
    if !(m.place == .delivery || m.place == .held || m.place == .heldRing) then .next s
    else
      let s := (s.dropMsg msg).storeSettled m.node
      match s.destOf m with
      | .gone => .next (s.undelivered m.ctx m.from_)
      | .waits => .next (s.holdDelivery msg m true)
      | .saved => .next (s.holdDelivery msg m false)
      | .runs t =>
        if s.deliverable t m.offset m.len then
          .next ((s.teamPut t m.offset (bytesAt m.data 0 m.len)).credit t m.barrier (m.credit.getD m.len) m.status)
        else .next ((s.undelivered m.ctx m.from_).credit t m.barrier 0 barFault)

/-- HELD_DELIVERY_EXPIRY (R264): the team has not started in time, and the delivery is dropped. -/
def execHeldDeliveryExpiry (msg : Nat) (s : State) : Out :=
  match keyFind s.dev.msgs msg with
  | none => .next s
  | some m =>
    if m.place == .held && s.destOf m == .waits && !(s.ctx m.ctx).suspended then
      if s.expired m then .next (((s.dropMsg msg).storeSettled m.node).undelivered m.ctx m.from_)
      else .next (s.after (max 1 (m.since + s.orphanClk m.ctx - s.clock)) (.heldDeliveryExpiry msg))
    else .next s

/-- Deliveries held for a team that starts go to it (R264). -/
def State.wakeHeld (s : State) (grid index : Nat) : State :=
  ((s.dev.msgs.filter fun e => (e.2.place == .held || e.2.place == .heldRing) && e.2.launch == grid && e.2.team == index)).foldl
    (fun s e => s.after (s.deliveryTime e.2) (.fullingDelivery e.1)) s

/-! ## Sending on (R252, R258, R271) -/

/-- Where the result of a message goes on: the tag, the leg, and the node of its tree; none to the final destination. -/
def State.onward (s : State) (m : FMsg) : Option (Nat × Nat × Option (Nat × Nat × Nat × Nat)) :=
  match m.tree with
  | some (base, n, l, j) =>
    (treeUp (j * 2 ^ l) l n).map fun u => (s.treeWord m.ctx base n u.1 u.2.1, u.2.2, some (base, n, u.1, u.2.1))
  | none => m.chain.map fun c => (c.1, c.2, none)

/-- The input port at which what core or node `a` sends reaches node `b`: a mesh router's neighbours above, right, below and left of it, its
own core, and the rest of the package (R18, R259, log 47). -/
def inPort (a b : Nat) : Nat :=
  if 320 ≤ b ∨ 320 ≤ a ∨ dieOf a ≠ dieOf b then 5
  else
    let x := fun c => c % 16
    let y := fun c => c % 160 / 16
    if a = b then 4
    else if y a < y b then 0 else if x b < x a then 1 else if y b < y a then 2 else 3

/-- A message sent to the node of its tag, from a core or a node: it arrives there, or is sent to another module (R248, R274). -/
def State.launchMsg (s : State) (m : FMsg) (origin extra : Nat) : State :=
  let id := s.nextId
  let m := { m with place := .flight, node := nodeOf m.tag, inPort := inPort origin (nodeOf m.tag) }
  ({ s with nextId := id + 1 }.putMsg id m).after (fullingTime origin m.node (m.len / 128) + extra) (.fullingOperandArrival id)

/-- An operand forwarded by the node of its tag (R258, R271): to its next tag, or to the final destination. -/
def State.forward (s : State) (m : FMsg) (status extra : Nat) : State :=
  match s.onward m with
  | some (tag, leg, tree) =>
    let m' := { m with tag := tag, leg := leg, chain := none, tree := tree, status := status, sender := none }
    match (if tree.isSome then none else m.peer) with
    | some port => s.sendPeer m' port
    | none => s.launchMsg m' m.node extra
  | none => s.deliverMsg m status (some m.tag) extra

/-- An operation of a saved group completes (R273). -/
def Task.finishSaved (t : Task) (op : Nat) : Task :=
  { t with saved := t.saved.map fun v => { v with groups := v.groups.map fun g => g.complete op } }

/-- The sender's P5 is lowered (R256), wherever its team is now: on a core, or saved (R273). -/
def State.acceptMsg (s : State) (m : FMsg) : State :=
  match m.sender with
  | none => s
  | some (_, _, op) =>
    match s.groups.find? fun g => (g.op op).isSome with
    | some g => s.finishOp g.core g.slot op {}
    | none => s.modDev fun d => { d with queues := d.queues.map fun q => (q.1, q.2.map fun t => t.finishSaved op) }

/-! ## Combining (R260, R261) -/

/-- One element of a combine (Table 10.6). -/
def combineElem (op a b : Nat) : Nat × FFlags :=
  match op with
  | 0 => fadd f32 0 a b
  | 1 => ((a + b) % 2 ^ 32, 0#5)
  | 2 =>
    let x := signedOf 32 a + signedOf 32 b
    let x := max (-(2 ^ 31)) (min (2 ^ 31 - 1) x)
    ((x % 2 ^ 32).toNat, 0#5)
  | 3 => fminmax f32 true a b
  | 4 => fminmax f32 false a b
  | _ => (a ||| b, 0#5)

/-- RSVMRG on element `e` of a tag (R261). -/
def combineRecord (mcap tag ctx e : Nat) (l r : List Word) : List Word × FFlags :=
  let rnd := fun (d : Nat) => rngf (rngctr (BitVec.ofNat 32 (tagIndex tag)) (BitVec.ofNat 32 e) (BitVec.ofNat 32 ctx) (BitVec.ofNat 32 d)
    (BitVec.ofNat 32 tag) 0#32).1
  let (x, f1, _) := rsvMerge mcap (List.replicate 8 0#32) l (wordAt l 2) (rnd 0)
  let (y, f2, _) := rsvMerge mcap x r (wordAt r 2) (rnd 1)
  let (z, f3) := rsvNorm y
  (z, f1 ||| f2 ||| f3)

/-- The bytes of a combine of `len` bytes, with its flags: left op right (R260, R261). -/
def combinePair (op mcap tag ctx len : Nat) (l r : Store 8) : Store 8 × FFlags :=
  if op = 6 then
    (List.range (len / 32)).foldl (fun st e =>
      let (w, fl) := combineRecord mcap tag ctx e (recordOf l (32 * e)) (recordOf r (32 * e))
      (putBytes st.1 (32 * e) (recordBytes w), st.2 ||| fl)) ([], 0#5)
  else
    (List.range (len / 4)).foldl (fun st i =>
      let (x, fl) := combineElem op (readBytes l (4 * i) 4) (readBytes r (4 * i) 4)
      (writeBytes st.1 (4 * i) 4 x, st.2 ||| fl)) ([], 0#5)

/-- Whether two operands agree in what R259 compares: op, length, final destination, chain tag and leg (log 19). -/
def State.agree (s : State) (x y : FMsg) : Bool :=
  x.op == y.op && x.len == y.len && x.peer == y.peer && x.launch == y.launch && x.team == y.team && x.offset == y.offset &&
    (s.onward x).map (fun u => (u.1, u.2.1)) == (s.onward y).map (fun u => (u.1, u.2.1))

/-- The two legs disagree (R262): both are delivered to each destination with TAGMIS, or the left goes on and the right is dropped; the
tag is poisoned with CAUSE 5. -/
def State.mismatch (s : State) (l r : FMsg) : State :=
  let s := s.modTag l.ctx l.tag fun t => t.poison 5
  if (s.onward l).isSome || (s.onward r).isSome then (s.forward l 5 0).modTag l.ctx l.tag Tag.dropped
  else
    let both := putBytes l.data l.len (bytesAt r.data 0 r.len)
    let send := fun (s : State) (m : FMsg) => s.deliverMsg { m with data := both, len := l.len + r.len, credit := some m.len } 5 (some l.tag) 0
    let s := send s l
    if l.peer = r.peer ∧ l.launch = r.launch ∧ l.team = r.team ∧ l.offset = r.offset then s else send s r

/-- The operand of each leg taken together (R259): the result is at the node from then on. The flags of the combine go to the tag's status word alone (R260, log 64). -/
def State.meet (s : State) (l r : FMsg) : State :=
  if s.agree l r then
    let (data, fl) := combinePair l.op l.mcap l.tag l.ctx l.len l.data r.data
    let s := s.modTag l.ctx l.tag fun t => { t with flags := t.flags ||| fl, combines := min (t.combines + 1) 255 }
    s.forward { l with data := data, since := s.startOf l.ctx } 0 ((if l.node < 320 then 2 else 1) * (l.len / 128))
  else s.mismatch l r

/-- An operand that must wait (R267, R269): in the store, in the ring, or refused, when its sender tries again. -/
def State.keepMsg (s : State) (id : Nat) (m : FMsg) : State :=
  let kept := { m with sender := none, came := s.clock }
  if s.storeUse m.node + m.len + 128 ≤ storeCap m.node then
    ((s.acceptMsg m).putMsg id { kept with place := .store }).after (max 1 (m.since + s.orphanClk m.ctx - s.clock)) (.orphanExpiry id)
  else if s.ringRoom m.ctx m.len then (s.acceptMsg m).spill id { kept with place := .ring }
  else
    let m' := { m with place := .backoff, tries := m.tries + 1 }
    let s := (s.putMsg id m').after (clkPerUs * min 64 (2 ^ m.tries)) (.fsendRetry id)
    if m.place == .backoff then s else s.after (s.orphanClk m.ctx) (.fsendOverflow id)

/-- The operands that wait at a tag that becomes poisoned are dropped and counted (R271). -/
def State.dropWaiting (s : State) (ctx tag : Nat) : State :=
  (s.dev.msgs.filter fun e => (e.2.place == .store || e.2.place == .ring) && e.2.ctx == ctx && e.2.tag == tag).foldl
    (fun s e => ((s.dropMsg e.1).storeSettled e.2.node).modTag ctx tag Tag.dropped) s

/-- A message at its node: its orphan time runs from its arrival, or from its first refusal (R269, R271). -/
def State.arrived (s : State) (m : FMsg) : FMsg := if m.place == .backoff then m else { m with since := s.startOf m.ctx }

/-- A NODE HANDLES AN ARRIVING OPERAND (R259, R271). -/
def State.arriveMsg (s : State) (id : Nat) (m : FMsg) : State :=
  let m := s.arrived m
  let s := s.dropMsg id
  match s.tagAt m.ctx m.tag with
  | none => (s.acceptMsg m).deliverMsg m 2 none 0
  | some t =>
    if t.cause ≠ 0 then (s.acceptMsg m).modTag m.ctx m.tag Tag.dropped
    else if m.status ≠ 0 then
      let s := (s.acceptMsg m).dropWaiting m.ctx m.tag
      (s.modTag m.ctx m.tag fun t => t.poison m.status).forward m m.status 0
    else
      match s.waiting m.ctx m.tag (1 - m.leg) with
      | some (k, y) =>
        let s := ((s.acceptMsg m).dropMsg k).storeSettled m.node
        if m.leg = 0 then s.meet m y else s.meet y m
      | none =>
        if (s.waiting m.ctx m.tag m.leg).isSome then
          ((s.acceptMsg m).deliverMsg m 5 (some m.tag) 0).modTag m.ctx m.tag Tag.dropped
        else s.keepMsg id m

/-- A tag word of another module's as its home module names it: the same node, its own (R248, R249). -/
def homeWord (w : Nat) : Nat := tagWord (tagGen w) (64 + tagNode w % 8) (tagKind w) (tagIndex w)

/-- AN OPERAND COMES IN through peer port `k` (R249): its context becomes the home context that the port's binding gives, and its tag the
home module's; one that no binding of the port maps is lost (log 47). -/
def State.fromPeer (s : State) (id k : Nat) (final : Bool) (m : FMsg) : State :=
  let s := s.dropMsg id
  match s.homeCtx k m.ctx with
  | none => s
  | some ctx =>
    if final then s.deliverMsg (s.arrived { m with ctx := ctx, peer := none }) m.status none 0
    else
      let tree := m.tree.map fun t => (homeWord t.1, t.2)
      let tag := match tree with | some (base, n, l, j) => s.treeWord ctx base n l j | none => homeWord m.tag
      s.arriveMsg id { m with ctx := ctx, tag := tag, tree := tree, node := 384 + tagNode m.tag % 8, inPort := 5, place := .flight, peer := some k }

/-- FULLING_OPERAND_ARRIVAL (R259): an operand reaches its node, leaves the module, or comes in from another (R249). An FSEND whose node
cannot be reached is delivered with FAULT; a forwarded operand is lost (R274). -/
def execFullingOperandArrival (msg : Nat) (s : State) : Out :=
  match keyFind s.dev.msgs msg with
  | none => .next s
  | some m =>
    if m.place == .flight then
      match nodePort m.node with
      | none => .next (s.arriveMsg msg m)
      | some port =>
        let s := (s.dropMsg msg).acceptMsg m
        if m.sender.isSome && !s.portOpen m.ctx port then .next (s.deliverMsg m 2 none 0) else .next (s.sendPeer m port)
    else
      match m.place with
      | .port k final => .next (s.fromPeer msg k final m)
      | _ => .next s

/-- FSEND_RETRY (R269): a refused operand is tried again. -/
def execFsendRetry (msg : Nat) (s : State) : Out :=
  match keyFind s.dev.msgs msg with
  | some m => if m.place == .backoff then .next (s.arriveMsg msg m) else .next s
  | none => .next s

/-- Whether an operand arrives at a node in this clk, sent or tried again: arrivals come before expiries (R259). -/
def State.arrivesNow (s : State) (node : Nat) : Bool :=
  s.agenda.any fun a => decide (a.due ≤ s.clock) &&
    match a.ev.arrival.bind fun id => keyFind s.dev.msgs id with
    | some m => m.node == node
    | none => false

/-- FSEND_OVERFLOW (R270): the orphan time passed before the operand was accepted; its tag is poisoned, and a partner that waits there is
dropped (R271). -/
def execFsendOverflow (msg : Nat) (s : State) : Out :=
  match keyFind s.dev.msgs msg with
  | some m =>
    if m.place == .backoff && !(s.ctx m.ctx).suspended then
      if s.expired m && s.arrivesNow m.node then .next (s.after 0 (.fsendOverflow msg))
      else if s.expired m then
        let s := (s.dropMsg msg).acceptMsg m
        match s.tagAt m.ctx m.tag with
        | some t =>
          if t.cause ≠ 0 then .next (s.modTag m.ctx m.tag Tag.dropped)
          else .next (((s.dropWaiting m.ctx m.tag).modTag m.ctx m.tag fun t => t.poison 3).forward m 3 0)
        | none => .next (s.forward m 3 0)
      else .next (s.after (max 1 (m.since + s.orphanClk m.ctx - s.clock)) (.fsendOverflow msg))
    else .next s
  | none => .next s

/-! ## Orphans (R271), reload and refill (R266, R267) -/

/-- An operand that waited alone too long: it is forwarded with ORPHAN, and its tag is poisoned with CAUSE 1 (R271). -/
def State.orphaned (s : State) (id : Nat) (m : FMsg) : State :=
  (((s.dropMsg id).storeSettled m.node).modTag m.ctx m.tag fun t => t.poison 1).forward m 1 0

/-- ORPHAN_EXPIRY (R271). -/
def execOrphanExpiry (msg : Nat) (s : State) : Out :=
  match keyFind s.dev.msgs msg with
  | some m =>
    if m.place == .store && !(s.ctx m.ctx).suspended then
      if !s.expired m then .next (s.after (max 1 (m.since + s.orphanClk m.ctx - s.clock)) (.orphanExpiry msg))
      else if s.arrivesNow m.node then .next (s.after 0 (.orphanExpiry msg))
      else .next (s.orphaned msg m)
    else .next s
  | none => .next s

/-- SPILL_SWEEP (R271): the spilled operands whose time has passed are orphaned, spilled deliveries dropped; the node sweeps again while
it has spilled operands. -/
def execSpillSweep (node : Nat) (s : State) : Out :=
  if s.arrivesNow node then .next (s.after 0 (.spillSweep node))
  else
  let due := s.dev.msgs.filter fun e => e.2.node == node && e.2.spilled && s.expired e.2
  let s := due.foldl (fun s e =>
    if e.2.place == .ring then s.orphaned e.1 e.2
    else if s.destOf e.2 == .waits then ((s.dropMsg e.1).storeSettled node).undelivered e.2.ctx e.2.from_
    else s) s
  match s.dev.msgs.filter fun e => e.2.node == node && e.2.spilled with
  | [] => .next s
  | e :: r =>
    let period := r.foldl (fun t f => min t (s.orphanClk f.2.ctx / 8)) (s.orphanClk e.2.ctx / 8)
    .next (s.sweepWithin node period)

/-- FULLING_RELOAD (R267): a node whose store is below half its capacity takes its spilled operands back, the oldest first; those of a
suspended context stay where they are (R273). -/
def execFullingReload (node : Nat) (s : State) : Out :=
  if s.storeUse node < storeCap node / 2 then
    let mine := s.dev.msgs.filter fun e => e.2.node == node && e.2.spilled && !(s.ctx e.2.ctx).suspended
    match mine.foldl (fun (best : Option (Nat × FMsg)) e =>
        match best with
        | some b => if e.2.came < b.2.came then some e else best
        | none => some e) none with
    | none => .next s
    | some (id, m) =>
      let held := m.place == .heldRing
      let s := (s.putMsg id { m with place := if held then .held else .store }).storeSettled node
      let s := s.after (max 1 (m.since + s.orphanClk m.ctx - s.clock)) (if held then .heldDeliveryExpiry id else .orphanExpiry id)
      .next (s.after 1 (.fullingReload node))
  else .next s

/-- FULLING_SPILL_REFILL (R266): the ring of a context is extended; one still past three quarters asks again. -/
def execFullingSpillRefill (ctx : Nat) (capacity : BitVec 32) (s : State) : Out :=
  let s := (s.modCtx ctx fun c => { c with fspcap := capacity }).modDev fun d => { d with asked := d.asked.filter (· != .spillRefill ctx) }
  if (s.ctx ctx).ringLow (s.ringUse ctx) then .next (s.askRefill ctx) else .next s

/-! ## Allocating, releasing and querying tags (R249 to R255) -/

/-- A failure word of TAGALLOC with its code (R251). -/
def failureWord (code : Nat) : Nat := 3 * 2 ^ 16 + code

/-- The lowest index that starts a run of `n` free indices of a context: the allocated ones are passed over in ascending order. -/
def freeRun (n : Nat) : Nat → List Nat → Option Nat
  | i, [] => if i + n ≤ 65536 then some i else none
  | i, u :: r => if u < i then freeRun n i r else if i + n ≤ u then some i else freeRun n (u + 1) r

/-- The tag indices of a context that are allocated, ascending. -/
def State.usedTags (s : State) (ctx : Nat) : List Nat :=
  (s.dev.tags.filter fun e => e.1 / 65536 == ctx).map fun e => e.1 % 65536

/-- The nodes that may serve a kind and a scope, as NODE fields (R249). -/
def tagNodes (kind home : Nat) (scope : BitVec 320) : List Nat :=
  match kind with
  | 0 => (List.range 320).filter scope.getLsbD
  | 1 => List.range 64
  | _ => (List.range 8).map fun k => 8 * home + k

/-- The NODE field of a tag (R249). -/
def tagPlace (ctx kind c : Nat) (nodes : List Nat) (index : Nat) : Nat :=
  let term : Dword := if kind = 2 then 0#64 else BitVec.ofNat 64 ctx <<< 16
  nodes.getD ((blockingHash (BitVec.ofNat 64 index ^^^ term) (BitVec.ofNat 32 (c + 32 * kind))).toNat % nodes.length) 0

/-- What the node of a tag is told of it, where that node is another module's and its port carries the context (R249, R251). -/
def State.tellPeer (s : State) (ctx index : Nat) (news : TagNews) : State :=
  match keyFind s.dev.tags (tagKey ctx index) with
  | none => s
  | some t =>
    match nodePort (nodeOf t.word) with
    | some port => if s.portOpen ctx port then s.say (.peerTag port ctx t.word t.base t.ranks news) else s
    | none => s

/-- A run of tags allocated from a base index, and the nodes told (R249, R251). -/
def State.allocTags (s : State) (ctx kind c ranks : Nat) (nodes : List Nat) (base n : Nat) : State × Nat :=
  let word := fun i => tagWord (storeRead s.dev.tagGens (tagKey ctx i)).toNat (tagPlace ctx kind c nodes i) kind i
  let s := (span base n).foldl (fun s i =>
    (s.modDev fun d => { d with tags := keyPut d.tags (tagKey ctx i) { word := word i, base := base, ranks := ranks } }).tellPeer ctx i
      .allocated) s
  (s, word base)

/-- TAGALLOC at the tag table (R251): the control word, N + 1 for the tree form in the upper half, and the scope mask read at issue. -/
def State.tagAlloc (s : State) (ctx cls : Nat) (scope : BitVec 320) : State × Nat :=
  let w := cls % 2 ^ 32
  let n := cls / 2 ^ 32 - 1
  let tree := decide (0 < cls / 2 ^ 32)
  let kind := nfield w 1 0
  let c := nfield w 6 2
  let home := nfield w 10 7
  let twoDies := scope.extractLsb' 0 160 != 0#160 && scope.extractLsb' 160 160 != 0#160
  if kind = 3 ∨ nfield w 31 11 ≠ 0 ∨ (kind = 0 ∧ (scope = 0#320 ∨ twoDies)) ∨ (kind < 2 ∧ home ≠ 0) ∨ (kind = 2 ∧ 8 < home) then
    (s, failureWord 2)
  else if tree ∧ (n < 2 ∨ 4096 < n) then (s, failureWord 3)
  else if kind = 2 ∧ home < 8 ∧ !s.portOpen ctx home then (s, failureWord 4)
  else
    let count := if tree then n - 1 else 1
    match freeRun count 0 (s.usedTags ctx) with
    | none => (s, failureWord 1)
    | some base => s.allocTags ctx kind c (if tree then n else 0) (tagNodes kind home scope) base count

/-- A tag released (R253, R255): its generation rises, and its node is told. -/
def State.freeTag (s : State) (ctx index : Nat) (news : TagNews) : State :=
  (s.tellPeer ctx index news).modDev fun d =>
    { d with tags := keyDrop d.tags (tagKey ctx index)
             tagGens := storeWrite d.tagGens (tagKey ctx index) (storeRead d.tagGens (tagKey ctx index) + 1#5) }

/-- A tag released with what waits under it delivered with CANCELLED (R253). -/
def State.cancelTag (s : State) (ctx index : Nat) : State :=
  match keyFind s.dev.tags (tagKey ctx index) with
  | none => s
  | some t =>
    let waits := s.dev.msgs.filter fun e => (e.2.place == .store || e.2.place == .ring) && e.2.ctx == ctx && e.2.tag == t.word
    let s := waits.foldl (fun s e => ((s.dropMsg e.1).storeSettled e.2.node).deliverMsg e.2 4 none 0) s
    s.freeTag ctx index .released

/-- TAGFREE at the tag table and the nodes (R253): a base tag releases its whole run. -/
def State.tagFree (s : State) (ctx w : Nat) : State :=
  match (if tagKind w = 3 then none else s.tagByGen ctx w) with
  | none => s
  | some t =>
    if t.base ≠ tagIndex w then s
    else
      (span t.base (max 1 (t.ranks - 1))).foldl (fun s i => s.cancelTag ctx i) s

/-- The tag status word (R254, Table 10.4). What the node of another module holds of a tag is not this module's: those bits are free
(log 37). -/
def State.tagStatus (s : State) (ctx w : Nat) : Nat :=
  match s.tagByGen ctx w with
  | none => 0
  | some t =>
    if (nodePort (nodeOf t.word)).isSome then
      2 ^ 31 + (leNat ((List.range 4).map fun i => Config.freeByte (4 * s.nextId + i)) &&& 0x7FFCFFFF)
    else
    let l := s.waiting ctx t.word 0
    let r := s.waiting ctx t.word 1
    let ring := fun (x : Option (Nat × FMsg)) => (x.map fun e => e.2.place == .ring) == some true
    let b := fun (p : Bool) (n : Nat) => if p then 2 ^ n else 0
    2 ^ 31 + b (t.cause != 0) 30 + b l.isSome 29 + b r.isSome 28 + b (ring l || ring r) 27 + b t.undeliv 26 + 2 ^ 21 * t.flags.toNat +
      2 ^ 18 * t.cause + 256 * t.drops + t.combines

/-- TAGPURGE (R255): every entry of the context goes from every node, and its tags are free with their generations raised. -/
def State.tagPurge (s : State) (ctx : Nat) : State :=
  let gone := s.dev.msgs.filter fun e =>
    e.2.ctx == ctx && (e.2.place == .store || e.2.place == .held || e.2.spilled)
  let s := gone.foldl (fun s e => (s.dropMsg e.1).storeSettled e.2.node) s
  (s.usedTags ctx).foldl (fun s i => s.freeTag ctx i .purged) s

/-- A node of this module is told of a tag by the module at a port (R249, R251, R253, R255): it holds the tag under the home context, unless
one stands at that index already, and releases it (log 47). -/
def State.toldTag (s : State) (port ctx word base ranks : Nat) (news : TagNews) : State :=
  match s.homeCtx port ctx with
  | none => s
  | some c =>
    let w := homeWord word
    let i := tagIndex w
    match news with
    | .allocated =>
      if (keyFind s.dev.tags (tagKey c i)).isSome then s
      else s.modDev fun d =>
        { d with tags := keyPut d.tags (tagKey c i) { word := w, base := base, ranks := ranks }
                 tagGens := storeWrite d.tagGens (tagKey c i) (BitVec.ofNat 5 (tagGen w)) }
    | .released => if (s.tagAt c w).isSome then s.cancelTag c i else s
    | .purged =>
      if (s.tagAt c w).isSome then
        let gone := s.dev.msgs.filter fun e => (e.2.place == .store || e.2.place == .ring) && e.2.ctx == c && e.2.tag == w
        (gone.foldl (fun s e => (s.dropMsg e.1).storeSettled e.2.node) s).freeTag c i .purged
      else s

/-- TAG_NODE_ACKNOWLEDGEMENT (R251, R253 to R255): the tag table and the nodes answer, and the waiting instruction completes; or a node takes
in what another module tells it of a tag. -/
def execTagNodeAcknowledgement (req : Nat) (s : State) : Out :=
  match keyFind s.dev.requests req with
  | none => .next s
  | some r =>
    match r.kind with
    | .tagAlloc ctx cls scope =>
      let (s, w) := s.tagAlloc ctx cls (BitVec.ofNat 320 scope)
      .next (s.answer req r w .shootdownStatus)
    | .tagFree ctx w => .next ((s.tagFree ctx w).answer req r 0 .shootdownStatus)
    | .tagQuery ctx w => .next (s.answer req r (s.tagStatus ctx w) .shootdownStatus)
    | .tagPurge ctx => .next ((s.tagPurge ctx).answer req r 0 .shootdownStatus)
    | .nodeTag port ctx word base ranks news =>
      .next ((s.toldTag port ctx word base ranks news).modDev fun d => { d with requests := keyDrop d.requests req })
    | _ => .next s

/-- The roles that may use tags (R250): C and G. -/
def tagRoles : BitVec 4 := 9#4

/-- The reply of a tag request taken to its destination (R250). -/
def tagReply (d : BitVec 7) (s : State) : Out := .next (s.writeS d (BitVec.ofNat 32 (s.p.reply.getD 0))).retire

/-- TAGALLOC and TAGALLOC.TREE (R251): the scope entry is read at issue (R249). -/
def tagAllocate (rd : List Reg) (n : State → Option Nat) (c d : BitVec 7) (s : State) : Out :=
  issue { rd := .s c 1 :: rd, wr := [.s d 1], roles := tagRoles } s fun s =>
    if s.p.stage ≠ 0 then tagReply d s
    else
      let w := (s.readS c).toNat
      let mask := s.scopeMask s.g.ctx s.g.core s.g.team (nfield w 6 2)
      let cls := w + 2 ^ 32 * (match n s with | some k => k + 1 | none => 0)
      .next (s.ask (.tagAlloc s.g.ctx cls mask.toNat) (300 + (match n s with | some k => k / 16 | none => 0)) .tagNodeAcknowledgement)

/-- TAGALLOC (R251). -/
def execTagalloc (c d : BitVec 7) (s : State) : Out := tagAllocate [] (fun _ => none) c d s

/-- TAGALLOC.TREE (R251). -/
def execTagallocTree (n c d : BitVec 7) (s : State) : Out := tagAllocate [.s n 1] (fun s => some (s.readS n).toNat) c d s

/-- TAGFREE (R253). -/
def execTagfree (t : BitVec 7) (s : State) : Out :=
  issue { rd := [.s t 1], roles := tagRoles } s fun s =>
    if s.p.stage ≠ 0 then .next s.retire
    else .next (s.ask (.tagFree s.g.ctx (s.readS t).toNat) 300 .tagNodeAcknowledgement)

/-- TAGQRY (R254). -/
def execTagqry (t d : BitVec 7) (s : State) : Out :=
  issue { rd := [.s t 1], wr := [.s d 1], roles := tagRoles } s fun s =>
    if s.p.stage ≠ 0 then tagReply d s
    else
      let w := (s.readS t).toNat
      .next (s.ask (.tagQuery s.g.ctx w) (40 + fullingTime s.g.core (nodeOf w) 0) .tagNodeAcknowledgement)

/-- TAGPURGE (R255). -/
def execTagpurge (a : BitVec 7) (s : State) : Out :=
  issue { rd := [.s a 1], priv := true } s fun s =>
    if s.p.stage ≠ 0 then .next s.retire
    else .next (s.ask (.tagPurge (field (s.readS a) 15 0)) (4 * clkPerUs) .tagNodeAcknowledgement)

/-! ## FSEND (R256 to R258) -/

/-- The number of bytes of the tile that a fulling message descriptor names (Table 10.5). -/
def fdLen (d : Nat) : Nat := 128 * (nfield d 36 32 + 1)

/-- The checks of R257 on the contents of a descriptor. The multiples that Table 10.5 gives the destination and barrier offsets are none of
them: such an operand is sent, and written and credited at the offset named (log 71). -/
def fdOk (d : Nat) : Bool :=
  let tree := d.testBit 49
  let chain := d.testBit 50
  let n := nfield d 239 224
  let rank := nfield d 255 240
  nfield d 39 37 == 0 && nfield d 47 44 == 0 && nfield d 63 51 == 0 && nfield d 127 97 == 0 && decide (nfield d 43 40 < 7) &&
    !(tree && chain) && (chain || (nfield d 95 64 == 0 && !d.testBit 96)) && (tree || (n == 0 && rank == 0)) &&
    (!tree || (!d.testBit 48 && decide (2 ≤ n) && decide (n ≤ 4096) && decide (rank < n))) && tagWordOk (nfield d 31 0) &&
    (!chain || tagWordOk (nfield d 95 64))

/-- The message that a descriptor and a tile make (R258), of the issuing group. -/
def State.fullingMsg (s : State) (d : Nat) (tile : Store 8) : FMsg :=
  let n := nfield d 239 224
  let base := nfield d 31 0
  let tree := d.testBit 49
  let up := (treeUp (nfield d 255 240) 0 n).getD (1, 0, 0)
  let tag := if tree then s.treeWord s.g.ctx base n up.1 up.2.1 else base
  { ctx := s.g.ctx, tag := tag, leg := if tree then up.2.2 else nfield d 48 48, op := nfield d 43 40, len := fdLen d, data := tile
    chain := if d.testBit 50 then some (nfield d 95 64, nfield d 96 96) else none
    tree := if tree then some (base, n, up.1, up.2.1) else none
    launch := s.myTeam.grid, team := nfield d 159 128, offset := nfield d 191 160, barrier := nfield d 223 192
    mcap := s.g.sys.mcap.toNat, place := .flight, node := nodeOf tag }

/-- FSEND (R256): the descriptor and the tile are read and checked at its issue; after the commit the operand is sent, and P5 is
raised. -/
def execFsend (m o : BitVec 7) (s : State) : Out :=
  issue { rd := [.s o 1, .s m 1], roles := tagRoles, path := some 5 } s fun s =>
    let send := fun (s : State) =>
      let r := s.p.reply.getD 0
      let d := r % 2 ^ 256
      let msg := s.fullingMsg d (putBytes [] 0 (leBytes (fdLen d) (r / 2 ^ 256)))
      let id := s.nextId
      let node := nodeOf msg.tag
      let s := s.addOp { id := 0, flag := none, path := some 5, command := some (if node < 320 then node else 320) }
      .next (s.launchMsg { msg with sender := some (s.g.core, s.g.slot, id) } s.g.core 0).retire
    if s.p.stage ≠ 0 then atCommit s send
    else
      let off := (s.readS m).toNat
      let tile := (s.readS o).toNat
      let d := leNat (s.teamBytes s.g.team off 32)
      if off % 16 = 0 ∧ tile % 128 = 0 ∧ s.ownBounds off 32 = true ∧ s.ownBounds tile (fdLen d) = true ∧ fdOk d = true then
        let r := d + 2 ^ 256 * leNat (s.teamBytes s.g.team tile (fdLen d))
        atCommit { s with p := { s.p with reply := some r } } send
      else .next (s.trap { cause := cSPBOUND, lanes := some 0#32 })

end Sys2Proof.Machine
end

