-- ==== Sys2Proof/Machine/RayMath.lean ====
section
/-! DEFINITION. Sys2Proof/Machine/RayMath.lean: the arithmetic of the ray unit, the light-tree walker and the texture unit
(13_rays_lights_texture.md): box, triangle, capsule and curve tests (R327, R331, R335 to R337), importance (R342), texels and sampling
(R346 to R348). f32 values stand as their bit patterns. -/

namespace Sys2Proof.Machine

/-! ## f32 operations without flags -/

def fA (a b : Nat) : Nat := (fadd f32 0 a b).1
def fS (a b : Nat) : Nat := (fsub f32 0 a b).1
def fM (a b : Nat) : Nat := (fmul f32 0 a b).1
def fD (a b : Nat) : Nat := (fdiv f32 0 a b).1
def one32 : Nat := 0x3F800000
def half32 : Nat := 0x3F000000
def isNaN32 (x : Nat) : Bool := (unpack f32 x).isNaN
def isZero32 (x : Nat) : Bool := x % 2 ^ 31 == 0
/-- An integer as an f32, rounded RNE. -/
def ofInt32 (n : Int) : Nat := (intToF f32 0 n).1
/-- The dot product of three components, summed from the left. -/
def dot3 (a b : Nat → Nat) : Nat := fA (fA (fM (a 0) (b 0)) (fM (a 1) (b 1))) (fM (a 2) (b 2))

/-- The word at a byte of a record held as a little-endian number. -/
def recWord (b off : Nat) : Nat := nfield b (8 * off + 31) (8 * off)
def recByte (b off : Nat) : Nat := nfield b (8 * off + 7) (8 * off)
/-- Three f32 from a byte on. -/
def recVec (b off k : Nat) : Nat := recWord b (off + 4 * k)

/-! ## Boxes (R327, R331) -/

/-- An end of a child's box on one axis: o + q × 2^(s − 127), rounded once. -/
def boxEnd (rm o q s : Nat) : Nat := (addV f32 rm (unpack f32 o) (.fin false q ((s : Int) - 127))).1

/-- The components of a ray. -/
def Ray.ok (r : Ray) (k : Nat) : Nat := (wordAt r.o k).toNat
def Ray.dk (r : Ray) (k : Nat) : Nat := (wordAt r.d k).toNat

/-- The axis interval of a box test: none when the box is missed; an end that does not bound is none (R331). -/
def axisEnds (o d lo hi : Nat) : Option (Option Nat × Option Nat) :=
  if isZero32 d then (if fle f32 lo o && fle f32 o hi then some (none, none) else none)
  else
    let ik := fD one32 d
    let neg := d / 2 ^ 31 == 1
    let a := if neg then hi else lo
    let b := if neg then lo else hi
    let x := (fmul f32 2 (fsub f32 (if neg then 3 else 2) a o).1 ik).1
    let y := (fmul f32 3 (fsub f32 (if neg then 2 else 3) b o).1 ik).1
    some (if isNaN32 x then none else some x, if isNaN32 y then none else some y)

/-- The box test (R331): the entry distance of a hit. -/
def boxTest (r : Ray) (tcur : Nat) (lo hi : Nat → Nat) : Option Nat :=
  match axisEnds (r.ok 0) (r.dk 0) (lo 0) (hi 0), axisEnds (r.ok 1) (r.dk 1) (lo 1) (hi 1), axisEnds (r.ok 2) (r.dk 2) (lo 2) (hi 2) with
  | some a, some b, some c =>
    let up := fun (m : Nat) (x : Option Nat) => match x with | some v => if flt f32 m v then v else m | none => m
    let dn := fun (m : Nat) (x : Option Nat) => match x with | some v => if flt f32 v m then v else m | none => m
    let entry := up (up (up r.tmin.toNat a.1) b.1) c.1
    let exit := dn (dn (dn tcur a.2) b.2) c.2
    if fle f32 entry exit then some entry else none
  | _, _, _ => none

/-! ## Triangles (R335) -/

/-- f32(f64(a) × f64(b) − f64(c) × f64(d)). -/
def edge64 (a b c d : Nat) : Nat :=
  let w := fun (x : Nat) => (fcvt f32 f64 0 false x).1
  (fcvt f64 f32 0 false (fsub f64 0 (fmul f64 0 (w a) (w b)).1 (fmul f64 0 (w c) (w d)).1).1).1

/-- The triangle test (R335): t, u, v, and whether the triangle faces front. -/
def triTest (r : Ray) (tcur : Nat) (v0 v1 v2 : Nat → Nat) : Option (Nat × Nat × Nat × Bool) :=
  let mag := fun (k : Nat) => r.dk k % 2 ^ 31
  let kz := if mag 1 ≤ mag 0 ∧ mag 2 ≤ mag 0 then 0 else if mag 2 ≤ mag 1 then 1 else 2
  let swap := flt f32 (r.dk kz) 0
  let kx := if swap then (kz + 2) % 3 else (kz + 1) % 3
  let ky := if swap then (kz + 1) % 3 else (kz + 2) % 3
  let sx := fD (r.dk kx) (r.dk kz)
  let sy := fD (r.dk ky) (r.dk kz)
  let sz := fD one32 (r.dk kz)
  let pt := fun (v : Nat → Nat) =>
    let q := fun (k : Nat) => fS (v k) (r.ok k)
    (fS (q kx) (fM sx (q kz)), fS (q ky) (fM sy (q kz)), fM sz (q kz))
  let a := pt v0
  let b := pt v1
  let c := pt v2
  let u := edge64 c.1 b.2.1 c.2.1 b.1
  let v := edge64 a.1 c.2.1 a.2.1 c.1
  let w := edge64 b.1 a.2.1 b.2.1 a.1
  let low := flt f32 u 0 || flt f32 v 0 || flt f32 w 0
  let high := flt f32 0 u || flt f32 0 v || flt f32 0 w
  let det := fA (fA u v) w
  if (low && high) || feq f32 det 0 then none
  else
    let tt := fA (fA (fM u a.2.2) (fM v b.2.2)) (fM w c.2.2)
    let t := fD tt det
    if fle f32 r.tmin.toNat t && fle f32 t tcur then some (t, fD v det, fD w det, flt f32 0 det) else none

/-! ## Capsules and curves (R336, R337)

The exact entry distance is an algebraic number. It is held as what bounds it: roots of quadratics over the rationals, and clipping
planes; its f32 neighbours are found by comparing f32 values with it exactly. -/

/-- The rational value of a finite f32. -/
def ratOf (x : Nat) : Rat :=
  match unpack f32 x with
  | .fin n m e =>
    let v : Int := if n then -(m : Int) else m
    if 0 ≤ e then (v * 2 ^ e.toNat : Int) else mkRat v (2 ^ (-e).toNat)
  | _ => 0

/-- A root: p + √q or p − √q. -/
structure Root where
  p : Rat
  q : Rat
  plus : Bool
deriving DecidableEq, Repr

/-- x ≤ root, and root ≤ x. -/
def Root.above (r : Root) (x : Rat) : Bool :=
  if r.plus then decide (x ≤ r.p) || decide ((x - r.p) * (x - r.p) ≤ r.q)
  else decide (x ≤ r.p) && decide (r.q ≤ (r.p - x) * (r.p - x))
def Root.below (r : Root) (x : Rat) : Bool :=
  if r.plus then decide (r.p ≤ x) && decide (r.q ≤ (x - r.p) * (x - r.p))
  else decide (r.p ≤ x) || decide ((r.p - x) * (r.p - x) ≤ r.q)

/-- The roots of a t² + b t + c. -/
def quadRoots (a b c : Rat) : List Root :=
  if a = 0 then (if b = 0 then [] else [{ p := -c / b, q := 0, plus := true }])
  else
    let disc := b * b - 4 * a * c
    if disc < 0 then []
    else
      let p := -b / (2 * a)
      let q := disc / (4 * a * a)
      [{ p := p, q := q, plus := false }, { p := p, q := q, plus := true }]

/-- What a constraint a + b t ≥ 0 leaves of the line: a lower bound, an upper bound, all of it, or nothing. -/
inductive Clip where
  | from_ (x : Rat)
  | upTo (x : Rat)
  | all
  | nothing
deriving DecidableEq, Repr

def clipOf (a b : Rat) : Clip :=
  if 0 < b then .from_ (-a / b) else if b < 0 then .upTo (-a / b) else if a < 0 then .nothing else .all

/-- A ray and a capsule as rationals: o − p0, d, p1 − p0, the radii. -/
structure Solid where
  w : Rat × Rat × Rat
  d : Rat × Rat × Rat
  ax : Rat × Rat × Rat
  r0 : Rat
  r1 : Rat

def dotQ (a b : Rat × Rat × Rat) : Rat := a.1 * b.1 + a.2.1 * b.2.1 + a.2.2 * b.2.2
def subQ (a b : Rat × Rat × Rat) : Rat × Rat × Rat := (a.1 - b.1, a.2.1 - b.2.1, a.2.2 - b.2.2)

/-- The points of the line on the surface of the union of spheres: on the two end spheres, and on the envelope between them. -/
def Solid.roots (c : Solid) : List Root :=
  let dd := dotQ c.d c.d
  let sphere := fun (w : Rat × Rat × Rat) (r : Rat) => quadRoots dd (2 * dotQ w c.d) (dotQ w w - r * r)
  let dr := c.r1 - c.r0
  let a := dotQ c.ax c.ax - dr * dr
  let b0 := dotQ c.w c.ax + c.r0 * dr
  let b1 := dotQ c.d c.ax
  let side := quadRoots (b1 * b1 - a * dd) (2 * b0 * b1 - 2 * a * dotQ c.w c.d) (b0 * b0 - a * (dotQ c.w c.w - c.r0 * c.r0))
  let within := fun (r : Root) =>
    (match clipOf b0 b1 with | .from_ x => r.above x | .upTo x => r.below x | .all => true | .nothing => false) &&
      (match clipOf (a - b0) (-b1) with | .from_ x => r.above x | .upTo x => r.below x | .all => true | .nothing => false)
  sphere c.w c.r0 ++ sphere (subQ c.w c.ax) c.r1 ++ (if 0 < a then side.filter within else [])

/-- The clipping planes of the open ends (R336). -/
def Solid.clips (c : Solid) (caps : Nat) : List Clip :=
  (if caps % 2 = 0 then [clipOf (dotQ c.w c.ax) (dotQ c.d c.ax)] else []) ++
    (if caps / 2 % 2 = 0 then [clipOf (dotQ c.ax c.ax - dotQ c.w c.ax) (-dotQ c.d c.ax)] else [])

/-- The lower and the upper bounds among clips. -/
def lowers (l : List Clip) : List Rat := l.filterMap fun c => match c with | .from_ x => some x | _ => none
def uppers (l : List Clip) : List Rat := l.filterMap fun c => match c with | .upTo x => some x | _ => none

/-- A number held as what bounds it: whether x lies at or below it, and whether x lies below it. -/
structure Bounds where
  le : Rat → Bool
  lt : Rat → Bool

/-- The bounds of a rational number. -/
def Bounds.of (q : Rat) : Bounds := { le := fun x => decide (x ≤ q), lt := fun x => decide (x < q) }

/-- The entry distance; none when the line misses the solid, or when its origin lies inside (R336). -/
def Solid.entry (c : Solid) (caps : Nat) : Option Bounds :=
  let roots := c.roots
  let clips := c.clips caps
  let lo := lowers clips
  let up := uppers clips
  let meets := !roots.isEmpty && !clips.contains .nothing && lo.all (fun x => roots.any fun r => r.above x) &&
    up.all (fun x => roots.any fun r => r.below x) && lo.all fun x => up.all fun y => decide (x ≤ y)
  let le := fun (x : Rat) => roots.all (fun r => r.above x) || lo.any fun y => decide (x ≤ y)
  let inside := !le 0 && roots.any (fun r => !r.below 0) && up.all fun y => decide (0 < y)
  let lt := fun (x : Rat) => roots.all (fun r => !r.below x) || lo.any fun y => decide (x < y)
  if meets && !inside then some { le := le, lt := lt } else none

/-- The largest number below 2^n, built on `r`, whose test holds. -/
def largest (p : Nat → Bool) : Nat → Nat → Nat
  | 0, r => r
  | n + 1, r => largest p n (if p (r + 2 ^ n) then r + 2 ^ n else r)

/-- The finite f32 values in order, from −0x7F7FFFFF to 0x7F7FFFFF, and their bit patterns. -/
def keyCode (k : Int) : Nat := if 0 ≤ k then k.toNat else 2 ^ 31 + (-k).toNat
def keyClamp (k : Int) : Int := max (-0x7F7FFFFF) (min 0x7F7FFFFF k)

/-- The largest finite f32 at or below a number that a test bounds, as its place in the order. -/
def floorKey (le : Rat → Bool) : Int :=
  let p := fun (u : Nat) => decide (u ≤ 2 * 0x7F7FFFFF) && le (ratOf (keyCode ((u : Int) - 0x7F7FFFFF)))
  (largest p 32 0 : Int) - 0x7F7FFFFF

/-- Whether a number lies above the finite f32 value at a place of the order, which is at or below it. -/
def Bounds.inexact (e : Bounds) (k : Int) : Bool := e.lt (ratOf (keyCode k))

/-- The f32 values within 4 ulp of a number, by place in the order: from the fourth below it to the fourth above it. -/
def nearKey (e : Bounds) (choice : Nat) : Int :=
  let k := floorKey e.le
  keyClamp (if e.inexact k then k - 3 + (choice % 8 : Nat) else k - 4 + (choice % 9 : Nat))

/-- A number as an f32: itself, or one of its two neighbours. -/
def neighbourKey (e : Bounds) (choice : Nat) : Int :=
  let k := floorKey e.le
  if e.inexact k then k + (choice % 2 : Nat) else k

/-- The capsule test (R336, log 5): t within 4 ulp of the exact entry distance, and s of the projection of the hit point at t, clamped to
[0, 1]. The points are p0 and p1, the radii r0 and r1. -/
def capTest (r : Ray) (tcur : Nat) (p0 p1 : Nat → Nat) (r0 r1 caps : Nat) : Option (Nat × Nat) :=
  let key := (r.o ++ r.d) ++ ([p0 0, p0 1, p0 2, p1 0, p1 1, p1 2, r0, r1, caps].map fun x => BitVec.ofNat 32 x)
  let radiusOk := fun (x : Nat) => finite32 x && fle f32 0 x
  let points := [r.ok 0, r.ok 1, r.ok 2, r.dk 0, r.dk 1, r.dk 2, p0 0, p0 1, p0 2, p1 0, p1 1, p1 2]
  let vec := fun (f : Nat → Nat) => (ratOf (f 0), ratOf (f 1), ratOf (f 2))
  let c : Solid :=
    { w := subQ (vec r.ok) (vec p0), d := vec r.dk, ax := subQ (vec p1) (vec p0), r0 := ratOf r0, r1 := ratOf r1 }
  let within := fun (x : Nat × Nat) => if fle f32 r.tmin.toNat x.1 && fle f32 x.1 tcur then some x else none
  if !(radiusOk r0 && radiusOk r1) then none
  else if !(points.all finite32) || (dotQ c.ax c.ax == 0 && caps % 4 != 3) then
    (Config.capsuleOpen key).bind fun x => within (x.1.toNat, x.2.toNat)
  else
    match c.entry caps with
    | none => none
    | some e =>
      let t := keyCode (nearKey e (Config.capsuleUlp key))
      let len := dotQ c.ax c.ax
      let s := if len = 0 then 0 else (dotQ c.w c.ax + ratOf t * dotQ c.d c.ax) / len
      within (t, (neighbourKey (Bounds.of (max 0 (min 1 s))) (Config.capsuleS key)).toNat)

/-- The better of two hits: the lesser t, the first on ties. -/
def nearer (a b : Option (Nat × Nat)) : Option (Nat × Nat) :=
  match a, b with
  | some x, some y => if flt f32 y.1 x.1 then some y else some x
  | none, y => y
  | x, none => x

/-- a + τ × (b − a) in f32 (log 20). -/
def lerp32 (t a b : Nat) : Nat := fA a (fM t (fS b a))

/-- B(τ) by de Casteljau, one component (R337). -/
def casteljau (t a b c d : Nat) : Nat :=
  let x := lerp32 t a b
  let y := lerp32 t b c
  let z := lerp32 t c d
  lerp32 t (lerp32 t x y) (lerp32 t y z)

/-- The curve test (R337): eight capsules; v is (k + s) / 8. -/
def curveTest (r : Ray) (tcur : Nat) (p : Nat → Nat → Nat) (r0 r1 caps : Nat) : Option (Nat × Nat) :=
  let tau := fun (k : Nat) => fM (ofInt32 k) 0x3E000000
  let pt := fun (k i : Nat) => casteljau (tau k) (p 0 i) (p 1 i) (p 2 i) (p 3 i)
  let rad := fun (k : Nat) => lerp32 (tau k) r0 r1
  let hits := (List.range 8).map fun k =>
    let c := (if k = 0 then caps % 2 else 1) + 2 * (if k = 7 then caps / 2 % 2 else 1)
    (capTest r tcur (pt k) (pt (k + 1)) (rad k) (rad (k + 1)) c).map fun h => (h.1, fM (fA (ofInt32 k) h.2) 0x3E000000)
  if finite32 r0 && finite32 r1 && fle f32 0 r0 && fle f32 0 r1 then hits.foldl nearer none else none

/-! ## Primitives (R328) -/

/-- Whether a primitive record breaks the rules of Table 13.4. -/
def primBad (b : Nat) : Bool :=
  match b % 4 with
  | 0 => nfield b 31 3 != 0 || nfield b 511 320 != 0
  | 1 => nfield b 31 2 != 0 || nfield b 295 290 != 0 || nfield b 511 296 != 0
  | 2 => nfield b 31 2 != 0 || nfield b 487 482 != 0 || nfield b 511 488 != 0
  | _ => true

/-- The tests a primitive counts as (R337, R338). -/
def primTests (b : Nat) : Nat := if b % 4 = 2 then 8 else 1

/-- The test of a primitive record under the culling flags (R332): t, u, v and the kind of Table 13.5. -/
def primTest (flags b : Nat) (r : Ray) (tcur : Nat) : Option (Nat × Nat × Nat × Nat) :=
  match b % 4 with
  | 0 =>
    (triTest r tcur (recVec b 4) (recVec b 16) (recVec b 28)).bind fun h =>
      let front := h.2.2.2
      let culled := !b.testBit 2 && ((flags.testBit 0 && !front) || (flags.testBit 1 && front))
      if culled then none else some (h.1, h.2.1, h.2.2.1, if front then 1 else 2)
  | 1 =>
    (capTest r tcur (recVec b 4) (recVec b 16) (recWord b 28) (recWord b 32) (recByte b 36 % 4)).map fun h => (h.1, 0, h.2, 3)
  | 2 =>
    (curveTest r tcur (fun i => recVec b (4 + 12 * i)) (recWord b 52) (recWord b 56) (recByte b 60 % 4)).map fun h => (h.1, 0, h.2, 4)
  | _ => none

/-! ## Light importance (R342) -/

def fMax (a b : Nat) : Nat := (fminmax f32 true a b).1
def fMin (a b : Nat) : Nat := (fminmax f32 false a b).1
def fNeg (a : Nat) : Nat := (a + 2 ^ 31) % 2 ^ 32

/-- The importance of a light-tree node for a point and a normal (R342). -/
def importance (b : Nat) (p n : Nat → Nat) : Nat :=
  let w := fun (k : Nat) => fS (recVec b 0 k) (p k)
  let r := recWord b 12
  let d2 := dot3 w w
  let rr := fM r r
  let g :=
    if fle f32 d2 rr then one32
    else
      let d := (fsqrt f32 0 d2).1
      let s := fD r d
      let cr := fD (dot3 n w) d
      let ce := fNeg (fD (dot3 (recVec b 20) w) d)
      fM (fMax (fMin (fA cr s) one32) 0) (fMax (fMin (fA ce (recWord b 32)) one32) 0)
  let i := fD (fM (recWord b 16) g) (fMax d2 rr)
  if isNaN32 i then 0 else i

/-- The probability of the left child (R343). -/
def leftProb (iL iR : Nat) : Nat := if isZero32 (fA iL iR) then half32 else fD iL (fA iL iR)

/-! ## Textures (R345 to R348) -/

/-- The fields of a texture descriptor (Table 13.8). -/
def texW (d : Nat) : Nat := nfield d 79 64 + 1
def texH (d : Nat) : Nat := nfield d 95 80 + 1
def texFmt (d : Nat) : Nat := nfield d 98 96
def texLevels (d : Nat) : Nat := nfield d 107 104 + 1
def texFilter (d : Nat) : Nat := nfield d 113 112
def texBias (d : Nat) : Nat := nfield d 159 128

/-- Whether a texture descriptor breaks the rules of Table 13.8 (R322): its sizes, its level count and its bias among them (log 48). -/
def texBad (d : Nat) : Bool :=
  nfield d 63 0 % 128 != 0 || decide (16384 < texW d) || decide (16384 < texH d) || decide (6 ≤ texFmt d) || nfield d 103 99 != 0 ||
    nfield d 111 108 != 0 || decide (Nat.log2 (max (texW d) (texH d)) < texLevels d - 1) || texFilter d == 3 ||
    nfield d 115 114 == 3 || nfield d 117 116 == 3 || nfield d 119 118 != 0 || nfield d 127 123 != 0 || !finite32 (texBias d) ||
    nfield d 255 160 != 0

/-- Texel sizes by format (R346). -/
def texelSize (fmt : Nat) : Nat := [4, 4, 8, 4, 4, 16].getD fmt 4

/-- The size and the pitch of a level, and where it starts (R346). -/
def levelW (d l : Nat) : Nat := max 1 (texW d / 2 ^ l)
def levelH (d l : Nat) : Nat := max 1 (texH d / 2 ^ l)
def levelPitch (d l : Nat) : Nat := (levelW d l * texelSize (texFmt d) + 127) / 128 * 128
def levelAt (d : Nat) : Nat → Nat
  | 0 => nfield d 63 0
  | l + 1 => levelAt d l + levelPitch d l * levelH d l

/-- c / 255, correctly rounded. -/
def unorm8 (c : Nat) : Nat := fD (ofInt32 c) (ofInt32 255)

/-- The sRGB transfer function of IEC 61966-2-1 at c / 255, correctly rounded to f32 (R346, log 21): c / 12.92 at or below 0.04045, else
((c + 0.055) / 1.055) ^ 2.4. An f32 y is at or below the power when y^5 is at or below the twelfth power of its base. -/
def srgb8 (c : Nat) : Nat :=
  if c ≤ 10 then
    let (q, s) := stickyDiv (100 * c) (255 * 1292) 40
    (pack f32 0 false q s).1
  else
    let x : Rat := mkRat (1000 * c + 55 * 255 : Nat) (255 * 1055)
    let le := fun (y : Rat) => decide (y * y * y * y * y ≤ (x * x * x) * (x * x * x) * ((x * x * x) * (x * x * x)))
    let k := largest (fun u => le (ratOf u)) 30 0
    if le ((ratOf k + ratOf (k + 1)) / 2) then k + 1 else k

/-- A texel's four components (R346). -/
def texelOf (fmt raw : Nat) : List Nat :=
  let half := fun (i : Nat) => (fcvt f16 f32 0 false (nfield raw (16 * i + 15) (16 * i))).1
  match fmt with
  | 0 => (List.range 4).map fun i => unorm8 (recByte raw i)
  | 1 => (List.range 4).map fun i => if i < 3 then srgb8 (recByte raw i) else unorm8 (recByte raw i)
  | 2 => (List.range 4).map half
  | 3 => [half 0, half 1, 0, one32]
  | 4 => [recWord raw 0, 0, 0, one32]
  | _ => (List.range 4).map fun i => recWord raw (4 * i)

/-- The floor of a finite f32. -/
def floor32 (x : Nat) : Int :=
  match unpack f32 x with
  | .fin n m e => let k := (roundInt 2 n m e).1; if n then -(k : Int) else k
  | _ => 0

/-- floor(x) and the fraction in 256ths, rounded RNE, 256 carried (R348); the difference of the two is exact (log 69). -/
def splitCoord (x : Nat) : Int × Nat :=
  match unpack f32 x with
  | .fin n m e =>
    let i := floor32 x
    if 0 ≤ e then (i, 0)
    else
      let sh := (-e).toNat
      let v : Int := if n then -(m : Int) else m
      let fr := (v - i * 2 ^ sh).toNat * 256
      let q := fr / 2 ^ sh
      let rem := fr % 2 ^ sh
      let q := if roundsUp 0 false q rem (2 ^ (sh - 1)) then q + 1 else q
      if q = 256 then (i + 1, 0) else (i, q)
  | _ => (0, 0)

/-- An index mapped by an address mode (R348). -/
def mapIndex (mode : Nat) (n : Nat) (i : Int) : Nat :=
  match mode with
  | 0 => (i % (n : Int)).toNat
  | 1 => (min (max i 0) ((n : Int) - 1)).toNat
  | _ => let m := (i % (2 * n : Int)).toNat; if m < n then m else 2 * n - 1 - m

/-- A coordinate times its level's size (R348): 0 where the coordinate or the product is not finite. -/
def scaleCoord (u n : Nat) : Nat :=
  if finite32 u then let p := fM u (ofInt32 n); if finite32 p then p else 0 else 0

/-- The level of detail of TEXLD and TEXG, clamped (R347). -/
def texLod (d : Nat) (grad : Bool) (a : Nat → Nat) : Nat :=
  let rho := fun (x y : Nat) =>
    let p := fM x (ofInt32 (texW d))
    let q := fM y (ofInt32 (texH d))
    (fsqrt f32 0 (fA (fM p p) (fM q q))).1
  let l := if grad then (flog2 (fMax (rho (a 2) (a 3)) (rho (a 4) (a 5)))).1 else a 2
  let l := fA l (texBias d)
  let top := ofInt32 (texLevels d - 1 : Nat)
  if isNaN32 l || flt f32 l 0 then 0 else if flt f32 top l then top else l

end Sys2Proof.Machine
end

