-- ==== Sys2Proof/Machine/Rays.lean ====
section
/-! DEFINITION. Sys2Proof/Machine/Rays.lean: the ray unit, the light-tree walker and the texture unit
(13_rays_lights_texture.md, R322 to R349). -/

namespace Sys2Proof.Machine

/-! ## Reading (R323, R325) -/

/-- What a unit's read, or a lane's work, comes to: a value; more to do, with the traversal so far; a second try; or a fault at an
address, with the traversal as it then stands. -/
inductive Lane (α : Type) where
  | ok (s : State) (x : α)
  | more (s : State) (t : Trav)
  | again (s : State) (t : Option Trav)
  | fault (s : State) (va : Nat) (write : Bool) (f : XFault) (t : Option Trav := none)

/-- The work of a lane goes on with what its first part gave. -/
def Lane.bind {α β : Type} (x : Lane α) (k : State → α → Lane β) : Lane β :=
  match x with
  | .ok s a => k s a
  | .more s t => .more s t
  | .again s t => .again s t
  | .fault s va w f t => .fault s va w f t

/-- A part of a traversal that stands at `t`: a fault in it finds the traversal there (R338). -/
def Lane.at {α : Type} (t : Trav) : Lane α → Lane α
  | .fault s va w f _ => .fault s va w f (some t)
  | x => x

/-- A virtual address in a window. -/
def winVa (win va : Nat) : Nat := win % 65536 * 2 ^ 64 + va % 2 ^ 64

/-- `n` bytes of a line read by operation `id` of a core's units, as a number: an engine read commit of its own (R323). -/
def State.unitRead (s : State) (core id ctx va n : Nat) : Lane Nat :=
  match s.engineAt core ctx va accR (s.firstOwner core id) with
  | .ok s pa => .ok s (leNat ((span pa n).map s.phys))
  | .again s => .again s none
  | .fault s f => .fault s va false f

/-! ## Descriptors (R322, R326, R341) -/

/-- Whether an acceleration-structure descriptor breaks the rules of Table 13.2: the alignment of its bases and of its spill offset among them
(log 48). -/
def accelBad (d : Nat) : Bool :=
  nfield d 63 0 % 128 != 0 || nfield d 127 64 % 64 != 0 || nfield d 191 128 % 64 != 0 || nfield d 199 195 != 0 || nfield d 223 202 != 0 ||
    nfield d 255 224 % 512 != 0

/-- Whether a light-tree descriptor breaks the rules of R341. -/
def lightBad (d : Nat) : Bool :=
  nfield d 63 0 % 64 != 0 || nfield d 127 64 % 4 != 0 || nfield d 255 163 != 0

/-! ## Traversal (R327 to R334) -/

/-- The number of entries of a stack on chip, of a spill block, and of blocks in an area (R334). -/
def stackSize : Nat := 16
def blockSize : Nat := 8
def areaBlocks : Nat := 32

/-- How a traversal stands after one of its parts: it goes on; or it has ended with a kind of Table 13.5. -/
inductive Went where
  | on (t : Trav)
  | ended (kind : Nat) (t : Trav)

/-- The lines of a spill block taken by an operation and written (R230, R334): the block's contents are the unit's own. -/
def State.writeBlock (s : State) (core id ctx va : Nat) : Lane Unit :=
  match s.pieces core ctx accW (s.firstOwner core id) (linesOf 512) va 0 512 with
  | .ok s l =>
    let lines := ((l.map fun e => lineOf e.1).filter fun n => !s.ownedLine n)
    let bytes := (List.range 512).map fun i => Config.freeByte (512 * s.nextId + i)
    let s := { s with nextId := s.nextId + 1 }.modDev fun d => { d with owned := d.owned ++ lines.map fun n => (n, core, id) }
    .ok (s.putPieces l bytes) ()
  | .again s => .again s none
  | .fault s off f => .fault s (va / 2 ^ 64 * 2 ^ 64 + (va + off) % 2 ^ 64) true f

/-- A push onto the stack of lane `l` (R334): a full stack spills its bottom 8 entries first. -/
def State.pushTrav (s : State) (core id : Nat) (o : RayOp) (l : Nat) (t : Trav) (e : TravEntry) : Lane Went :=
  if t.stack.length < stackSize then .ok s (.on { t with stack := e :: t.stack })
  else if areaBlocks ≤ t.spilled.length / blockSize then .ok s (.ended 8 t)
  else
    let at_ := o.priv.1 + nfield o.desc 255 224 + 16384 * l + 512 * (t.spilled.length / blockSize)
    ((s.writeBlock core id o.ctx at_).at t).bind fun s _ =>
      .ok s (.on { t with stack := e :: t.stack.take blockSize, spilled := t.stack.drop blockSize ++ t.spilled })

/-- The hit children of a node pushed, the nearest last (R332). -/
def State.pushAll (s : State) (core id : Nat) (o : RayOp) (l : Nat) : Trav → List TravEntry → Lane Went
  | t, [] => .ok s (.on t)
  | t, e :: r =>
    (s.pushTrav core id o l t e).bind fun s w =>
      match w with
      | .on t => s.pushAll core id o l t r
      | .ended k t => .ok s (.ended k t)

/-- Whether a node breaks the rules of Table 13.3 and of its references (R327). -/
def nodeBad (b : Nat) : Bool :=
  recByte b 15 != 0 || nfield b 1023 768 != 0 || (List.range 3).any (fun k => recByte b (12 + k) == 0 || recByte b (12 + k) == 255) ||
    (List.range 8).any fun c =>
      let r := recWord b (64 + 4 * c)
      r / 2 ^ 30 == 3 && (nfield r 29 7 != 0 || r % 128 == 127)

/-- The non-empty children of a node. -/
def nodeKids (b : Nat) : List Nat := (List.range 8).filter fun c => recWord b (64 + 4 * c) / 2 ^ 30 != 0

/-- The entry of a child whose box the ray hits (R327, R331). -/
def childHit (b : Nat) (c : InstCtx) (tcur : Nat) (k : Nat) : Option TravEntry :=
  let q := fun (i : Nat) => recByte b (16 + 6 * k + i)
  let lo := fun (i : Nat) => boxEnd 2 (recVec b 0 i) (q i) (recByte b (12 + i))
  let hi := fun (i : Nat) => boxEnd 3 (recVec b 0 i) (q (3 + i)) (recByte b (12 + i))
  if (List.range 3).any fun i => decide (q (3 + i) < q i) then none
  else (boxTest c.ray tcur lo hi).map fun e => { ref := recWord b (64 + 4 * k), dist := BitVec.ofNat 32 e, ctx := c }

/-- An entry put among entries in descending distance, behind those of its own distance that are already there. -/
def insertHit (e : TravEntry) : List TravEntry → List TravEntry
  | [] => [e]
  | f :: r => if flt f32 f.dist.toNat e.dist.toNat then e :: f :: r else f :: insertHit e r

/-- The order in which hit children are pushed (R332): descending entry, ties in descending child index. -/
def pushOrder (l : List TravEntry) : List TravEntry := l.reverse.foldl (fun acc e => insertHit e acc) []

/-- A visit of a node (R332). -/
def State.visit (s : State) (core id : Nat) (o : RayOp) (l : Nat) (t : Trav) (c : InstCtx) (idx : Nat) : Lane Went :=
  ((s.unitRead core id o.ctx (winVa o.win (c.base + 128 * idx)) 128).at t).bind fun s b =>
    if nodeBad b then .ok s (.ended 10 t)
    else
      let kids := nodeKids b
      let hits := kids.filterMap (childHit b c t.tcur.toNat)
      s.pushAll core id o l { t with boxes := t.boxes + kids.length } (pushOrder hits)

/-- The instance context of an instance record (R329, R333): the ray transformed, nothing fused. -/
def InstCtx.enter (c : InstCtx) (idx b : Nat) : InstCtx :=
  let m := fun (k j : Nat) => recWord b (16 * k + 4 * j)
  let org := fun (k : Nat) => fA (fA (fA (fM (m k 0) (c.ray.ok 0)) (fM (m k 1) (c.ray.ok 1))) (fM (m k 2) (c.ray.ok 2))) (m k 3)
  let dir := fun (k : Nat) => fA (fA (fM (m k 0) (c.ray.dk 0)) (fM (m k 1) (c.ray.dk 1))) (fM (m k 2) (c.ray.dk 2))
  { chain := idx :: c.chain
    ray := { c.ray with o := (List.range 3).map fun k => BitVec.ofNat 32 (org k), d := (List.range 3).map fun k => BitVec.ofNat 32 (dir k) }
    user := nfield b 471 448, base := nfield b 447 384 }

/-- Whether a hit replaces the best so far: the least t, then the least hit id (R332). -/
def Hit.better (h : Hit) : Option Hit → Bool
  | none => true
  | some b => flt f32 h.t.toNat b.t.toNat || (feq f32 h.t.toNat b.t.toNat && decide (h.id < b.id))

/-- The primitives of a leaf from `pid` on, `n` of them, in ascending id (R332); for RTANY the first hit ends it. -/
def State.leaf (s : State) (core id : Nat) (o : RayOp) (c : InstCtx) : Nat → Nat → Trav → Lane Went
  | 0, _, t => .ok s (.on t)
  | n + 1, pid, t =>
    ((s.unitRead core id o.ctx (winVa o.win (nfield o.desc 127 64 + 64 * pid)) 64).at t).bind fun s b =>
      if primBad b then .ok s (.ended 10 t)
      else
        let t := { t with prims := t.prims + primTests b }
        match primTest (nfield o.desc 207 200) b c.ray t.tcur.toNat with
        | none => s.leaf core id o c n (pid + 1) t
        | some (d, u, v, k) =>
          let h : Hit :=
            { t := BitVec.ofNat 32 d, id := (c.chain.headD 127) * 2 ^ 25 + pid % 2 ^ 25, u := BitVec.ofNat 32 u, v := BitVec.ofNat 32 v
              kind := k, depth := c.chain.length, user := c.user }
          if h.better t.best then
            let t := { t with best := some h, tcur := h.t }
            if o.kind = 1 then .ok s (.on { t with stack := [], spilled := [] }) else s.leaf core id o c n (pid + 1) t
          else s.leaf core id o c n (pid + 1) t

/-- ONE ENTRY OF A TRAVERSAL popped and worked (R332 to R334). -/
def State.popTrav (s : State) (core id : Nat) (o : RayOp) (l : Nat) (t : Trav) (e : TravEntry) (rest : List TravEntry) : Lane Went :=
  let t := { t with stack := rest }
  if flt f32 t.tcur.toNat e.dist.toNat then .ok s (.on t)
  else match e.ref / 2 ^ 30 with
    | 1 => s.visit core id o l t e.ctx (e.ref % 2 ^ 30)
    | 2 => s.leaf core id o e.ctx (nfield e.ref 29 25 + 1) (e.ref % 2 ^ 25) t
    | _ =>
      let idx := e.ref % 128
      ((s.unitRead core id o.ctx (winVa o.win (nfield o.desc 191 128 + 64 * idx)) 64).at t).bind fun s b =>
        if 32 ≤ e.ctx.chain.length then .ok s (.ended 8 t)
        else if recByte b 59 ≠ 0 ∨ recWord b 60 ≠ 0 ∨ nfield b 447 384 % 128 ≠ 0 then .ok s (.ended 10 t)
        else s.visit core id o l t (e.ctx.enter idx b) 0

/-- The D run of a traversal that has ended (Table 13.5). -/
def endedRun (t : Trav) (kind : Nat) : List Word :=
  [t.tcur, 0xFFFFFFFF#32, 0#32, 0#32, BitVec.ofNat 32 kind, 0#32, BitVec.ofNat 32 t.boxes, BitVec.ofNat 32 t.prims]

/-- The D run of one that is complete (Table 13.5). -/
def completeRun (t : Trav) (tmax : Word) : List Word :=
  match t.best with
  | some h =>
    [h.t, BitVec.ofNat 32 h.id, h.u, h.v, BitVec.ofNat 32 (h.kind + 16 * h.depth), BitVec.ofNat 32 h.user, BitVec.ofNat 32 t.boxes,
     BitVec.ofNat 32 t.prims]
  | none => [tmax, 0xFFFFFFFF#32, 0#32, 0#32, 0#32, 0#32, BitVec.ofNat 32 t.boxes, BitVec.ofNat 32 t.prims]

/-- The number of entries that a lane works in one step of the machine. -/
def popsPerStep : Nat := 256

/-- A traversal worked for at most a number of entries. -/
def State.traverse (s : State) (core id : Nat) (o : RayOp) (l : Nat) (tmax : Word) : Nat → Trav → Lane (List Word)
  | 0, t => .more s t
  | fuel + 1, t =>
    let t := if t.stack.isEmpty then { t with stack := t.spilled.take blockSize, spilled := t.spilled.drop blockSize } else t
    match t.stack with
    | [] => .ok s (completeRun t tmax)
    | e :: rest =>
      match s.popTrav core id o l t e rest with
      | .ok s (.on t) => s.traverse core id o l tmax fuel t
      | .ok s (.ended k t) => .ok s (endedRun t k)
      | .more s t => .more s t
      | .again s _ => .again s (some t)
      | .fault s va w f now => if f.engineRestart then .fault s va w f (now.or t) else .ok s (endedRun (now.getD t) 9)

/-- Whether a ray tests nothing (R330). -/
def rayIdle (a : Nat → Nat) : Bool :=
  (List.range 8).any (fun i => isNaN32 (a i)) || [0, 1, 2, 4, 5, 6].any (fun i => a i % 2 ^ 31 == f32.inf) ||
    [4, 5, 6].all (fun i => isZero32 (a i)) || flt f32 (a 7) (a 3)

/-- A traversal at its start: the root, and the ray in the world (R330, R332). -/
def startTrav (d : Nat) (a : List Word) : Trav :=
  let r : Ray :=
    { o := [wordAt a 0, wordAt a 1, wordAt a 2], d := [wordAt a 4, wordAt a 5, wordAt a 6], tmin := wordAt a 3, tmax := wordAt a 7 }
  { stack := [{ ref := 2 ^ 30, dist := wordAt a 3, ctx := { chain := [], ray := r, user := 0, base := nfield d 63 0 } }]
    tcur := wordAt a 7 }

/-- A lane of RTRACE or RTANY (R330, R338). -/
def State.rayLane (s : State) (core id : Nat) (o : RayOp) (l : Nat) (lane : RayLane) : Lane (List Word) :=
  let a := fun (i : Nat) => (wordAt lane.args i).toNat
  let none_ : Trav := { stack := [], tcur := wordAt lane.args 7 }
  if accelBad o.desc then .ok s (endedRun none_ 10)
  else if rayIdle a then .ok s (completeRun none_ (wordAt lane.args 7))
  else s.traverse core id o l (wordAt lane.args 7) popsPerStep (lane.trav.getD (startTrav o.desc lane.args))

/-- A lane of RTQRY (R339). -/
def State.queryLane (s : State) (core id : Nat) (o : RayOp) (lane : RayLane) : Lane (List Word) :=
  let hid := (wordAt lane.args 0).toNat
  let item := (wordAt lane.args 1).toNat
  let zeros := List.replicate 4 0#32
  let w := fun (l : List Nat) => l.map (BitVec.ofNat 32)
  if accelBad o.desc || hid == 0xFFFFFFFF then .ok s zeros
  else if 8 ≤ item ∧ item ≤ 10 then
    if hid / 2 ^ 25 = 127 then .ok s (w ((List.range 4).map fun j => if j = item - 8 then one32 else 0))
    else
      (s.unitRead core id o.ctx (winVa o.win (nfield o.desc 191 128 + 64 * (hid / 2 ^ 25))) 64).bind fun s b =>
        .ok s (w ((List.range 4).map fun j => recWord b (16 * (item - 8) + 4 * j)))
  else if 4 ≤ item then .ok s zeros
  else
    (s.unitRead core id o.ctx (winVa o.win (nfield o.desc 127 64 + 64 * (hid % 2 ^ 25))) 64).bind fun s b =>
      let pt := (List.range 3).map fun j => recWord b (4 + 12 * item + 4 * j)
      match b % 4 with
      | 0 => .ok s (if item ≤ 2 then w (pt ++ [0]) else zeros)
      | 1 => .ok s (if item ≤ 1 then w (pt ++ [recWord b (28 + 4 * item)]) else zeros)
      | 2 => .ok s (w (pt ++ [if item = 0 then recWord b 52 else if item = 3 then recWord b 56 else 0]))
      | _ => .ok s zeros

/-! ## The light-tree walker (R341 to R344) -/

/-- A light-tree node read. -/
def State.lightNode (s : State) (core id : Nat) (o : RayOp) (idx : Nat) : Lane Nat :=
  s.unitRead core id o.ctx (winVa o.win (nfield o.desc 63 0 + 64 * idx)) 64

/-- The probability of the left child of a node whose children start at `left` (R343). -/
def State.branchProb (s : State) (core id : Nat) (o : RayOp) (left : Nat) (p n : Nat → Nat) : Lane Nat :=
  (s.lightNode core id o left).bind fun s l =>
    (s.lightNode core id o (left + 1)).bind fun s r => .ok s (leftProb (importance l p n) (importance r p n))

/-- The walk of R343 from a node on, `fuel` levels at most. -/
def State.lightWalk (s : State) (core id : Nat) (o : RayOp) (p n : Nat → Nat) : Nat → Nat → Nat → Nat → Lane (List Word)
  | fuel, node, x, pdf =>
    (s.lightNode core id o node).bind fun s b =>
      let link := recWord b 36
      if link.testBit 31 then .ok s [BitVec.ofNat 32 (link % 2 ^ 31), BitVec.ofNat 32 pdf]
      else
        match fuel with
        | 0 => .ok s [0xFFFFFFFF#32, 0#32]
        | fuel + 1 =>
          (s.branchProb core id o (link % 2 ^ 31) p n).bind fun s pL =>
            let left := flt f32 x pL
            let x := if left then fD x pL else fD (fS x pL) (fS one32 pL)
            s.lightWalk core id o p n fuel (if left then link % 2 ^ 31 else link % 2 ^ 31 + 1) (fMin x 0x3F7FFFFF)
              (fM pdf (if left then pL else fS one32 pL))

/-- A lane of LTWALK (R343). -/
def State.walkLane (s : State) (core id : Nat) (o : RayOp) (lane : RayLane) : Lane (List Word) :=
  let a := fun (i : Nat) => (wordAt lane.args i).toNat
  let x := if isNaN32 (a 6) || flt f32 (a 6) 0 then 0 else if fle f32 one32 (a 6) then 0x3F7FFFFF else a 6
  if lightBad o.desc then .ok s [0xFFFFFFFE#32, 0#32] else s.lightWalk core id o a (fun k => a (3 + k)) 64 0 x one32

/-- The steps from a node to the root (R344): each parent with whether its left child lies on the way; none past 64 levels. -/
def State.lightPath (s : State) (core id : Nat) (o : RayOp) : Nat → Nat → List (Nat × Bool) → Lane (Option (List (Nat × Bool)))
  | fuel, node, acc =>
    (s.lightNode core id o node).bind fun s b =>
      let parent := recWord b 40
      if parent = 0xFFFFFFFF then .ok s (some acc)
      else
        match fuel with
        | 0 => .ok s none
        | fuel + 1 =>
          (s.lightNode core id o parent).bind fun s q =>
            s.lightPath core id o fuel parent ((recWord q 36 % 2 ^ 31, recWord q 36 % 2 ^ 31 == node) :: acc)

/-- The branch probabilities multiplied from the root down (R344). -/
def State.pathPdf (s : State) (core id : Nat) (o : RayOp) (p n : Nat → Nat) : List (Nat × Bool) → Nat → Lane Nat
  | [], pdf => .ok s pdf
  | (left, isLeft) :: r, pdf =>
    (s.branchProb core id o left p n).bind fun s pL =>
      s.pathPdf core id o p n r (fM pdf (if isLeft then pL else fS one32 pL))

/-- A lane of LTPDF (R344). -/
def State.pdfLane (s : State) (core id : Nat) (o : RayOp) (lane : RayLane) : Lane (List Word) :=
  let a := fun (i : Nat) => (wordAt lane.args i).toNat
  if lightBad o.desc || decide (nfield o.desc 159 128 ≤ a 6) then .ok s [0#32]
  else
    (s.unitRead core id o.ctx (winVa o.win (nfield o.desc 127 64 + 4 * a 6)) 4).bind fun s leaf =>
      (s.lightPath core id o 64 leaf []).bind fun s path =>
        match path with
        | none => .ok s [0#32]
        | some l => (s.pathPdf core id o a (fun k => a (3 + k)) l one32).bind fun s pdf => .ok s [BitVec.ofNat 32 pdf]

/-! ## Texture fetch (R345 to R349) -/

/-- A texel read and decoded (R346, R348). -/
def State.texel (s : State) (core id : Nat) (o : RayOp) (l : Nat) (x y : Int) : Lane (List Nat) :=
  let d := o.desc
  let x := mapIndex (nfield d 115 114) (levelW d l) x
  let y := mapIndex (nfield d 117 116) (levelH d l) y
  let n := texelSize (texFmt d)
  (s.unitRead core id o.ctx (winVa o.win (levelAt d l + levelPitch d l * y + n * x)) n).bind fun s raw => .ok s (texelOf (texFmt d) raw)

/-- A bilinear sample of a level (R348). -/
def State.bilinear (s : State) (core id : Nat) (o : RayOp) (l u v : Nat) : Lane (List Nat) :=
  let d := o.desc
  let (i, qx) := splitCoord (fS (scaleCoord u (levelW d l)) half32)
  let (j, qy) := splitCoord (fS (scaleCoord v (levelH d l)) half32)
  let fx := fM (ofInt32 qx) 0x3B800000
  let fy := fM (ofInt32 qy) 0x3B800000
  let gx := fS one32 fx
  let gy := fS one32 fy
  (s.texel core id o l i j).bind fun s t0 => (s.texel core id o l (i + 1) j).bind fun s t1 =>
    (s.texel core id o l i (j + 1)).bind fun s t2 => (s.texel core id o l (i + 1) (j + 1)).bind fun s t3 =>
      .ok s ((List.range 4).map fun k =>
        fA (fA (fA (fM (t0.getD k 0) (fM gx gy)) (fM (t1.getD k 0) (fM fx gy))) (fM (t2.getD k 0) (fM gx fy))) (fM (t3.getD k 0) (fM fx fy)))

/-- A lane of TEXLD or TEXG (R347 to R349). -/
def State.texLane (s : State) (core id : Nat) (o : RayOp) (lane : RayLane) : Lane (List Word) :=
  let d := o.desc
  let a := fun (i : Nat) => (wordAt lane.args i).toNat
  let w := fun (l : List Nat) => l.map (BitVec.ofNat 32)
  if texBad d then .ok s (List.replicate 4 0x7FC00000#32)
  else
    let lod := texLod d (o.kind == 6) a
    if texFilter d = 2 then
      let l0 := (floor32 lod).toNat
      (s.bilinear core id o l0 (a 0) (a 1)).bind fun s s0 =>
        if l0 + 1 = texLevels d then .ok s (w s0)
        else
          (s.bilinear core id o (l0 + 1) (a 0) (a 1)).bind fun s s1 =>
            let f := fS lod (ofInt32 (l0 : Nat))
            .ok s (w ((List.range 4).map fun k => fA (s0.getD k 0) (fM (fS (s1.getD k 0) (s0.getD k 0)) f)))
    else
      let l := (floor32 (fA lod half32)).toNat
      if texFilter d = 1 then (s.bilinear core id o l (a 0) (a 1)).bind fun s t => .ok s (w t)
      else
        (s.texel core id o l (floor32 (scaleCoord (a 0) (levelW d l))) (floor32 (scaleCoord (a 1) (levelH d l)))).bind fun s t => .ok s (w t)

/-! ## Instructions and their completion -/

/-- The unit of an instruction: the ray unit, the walker, the texture unit (R324). -/
def unitOf (kind : Nat) : Nat := if kind ≤ 2 then 0 else if kind ≤ 4 then 1 else 2

/-- Whether a unit of a core has room (R324). -/
def State.unitFree (s : State) (core unit : Nat) : Bool :=
  decide (((s.core core).rays.filter fun e => unitOf e.2.kind == unit && e.2.job.isNone).length < 32)

/-- The registers that an instruction writes (Table 13.1). -/
def rayDest (kind : Nat) : Nat := [8, 8, 4, 2, 1, 4, 4].getD kind 8

/-- The result of a lane whose work a fatal fault ends, or a termination (R325, R338, R339, R343, R344, R349). -/
def faultRun (kind : Nat) (lane : RayLane) : List Word :=
  match kind with
  | 2 => List.replicate 4 0#32
  | 3 => [0xFFFFFFFE#32, 0#32]
  | 4 => [0#32]
  | 5 => List.replicate 4 0x7FC00000#32
  | 6 => List.replicate 4 0x7FC00000#32
  | _ => endedRun ((lane.last.or lane.trav).getD { stack := [], tcur := wordAt lane.args 7 }) 9

/-- The work of a lane by the kind of its instruction. -/
def State.unitLane (s : State) (core id : Nat) (o : RayOp) (l : Nat) (lane : RayLane) : Lane (List Word) :=
  match o.kind with
  | 2 => s.queryLane core id o lane
  | 3 => s.walkLane core id o lane
  | 4 => s.pdfLane core id o lane
  | 5 => s.texLane core id o lane
  | 6 => s.texLane core id o lane
  | _ => s.rayLane core id o l lane

/-- The lanes of an operation worked one after another (R325): whether some lane is to be tried again. -/
def State.workLanes (s : State) (core id : Nat) (o : RayOp) : List (Nat × RayLane) → State × Keyed RayLane × Bool
  | [] => (s, [], false)
  | (l, lane) :: r =>
    let rest := fun (s : State) (lane : RayLane) (again : Bool) =>
      let (s, k, b) := s.workLanes core id o r
      (s, (l, lane) :: k, again || b)
    if lane.result.isSome || lane.suspended then rest s lane false
    else if lane.killed then rest s { lane with result := some (faultRun o.kind lane) } false
    else
      match s.unitLane core id o l lane with
      | .ok s w => rest s { lane with result := some w } false
      | .more s t => rest s { lane with trav := some t } true
      | .again s t => rest s { lane with trav := t <|> lane.trav } true
      | .fault s va w f t =>
        if !f.engineRestart then rest s { lane with result := some (faultRun o.kind lane) } false
        else if s.faultRoom core then
          rest (s.postEngine core 1 (32 * id + l) (faultWords va o.ctx core l (if w then 1 else 0) 0 0))
            { lane with suspended := true, trav := none, last := t } false
        else rest s { lane with trav := none, last := t } true

/-- The register writes of an operation whose lanes are done (R323). -/
def RayOp.writes (o : RayOp) : Writes :=
  let mask := laneMask (o.lanes.map Prod.fst)
  { v := (List.range (rayDest o.kind)).map fun i =>
      (o.dst + i, mask, o.lanes.foldl (fun st e => storeWrite st e.1 (wordAt (e.2.result.getD []) i)) ([] : Store 32)) }

/-- The lines that an operation took are given up (R334). -/
def State.disown (s : State) (core id : Nat) : State :=
  s.modDev fun d => { d with owned := d.owned.filter fun o => !(o.2.1 == core && o.2.2 == id) }

/-- RAY_UNIT_COMPLETE (R323): a released instruction reads and works its lanes; with the last of them its D run is written, and P3 is
lowered. The visibility rays of a reuse job go back to it (R374). -/
def execRayUnitComplete (core op : Nat) (s : State) : Out :=
  match keyFind (s.core core).rays op with
  | none => .next s
  | some o =>
    if o.held then .next s
    else
      let (s, lanes, again) := s.workLanes core op o o.lanes
      let o := { o with lanes := lanes }
      let s := s.modCore core fun k => { k with rays := keyPut k.rays op o }
      if lanes.all fun e => e.2.result.isSome then
        let s := s.disown core op
        match o.job with
        | none => .next ((s.modCore core fun k => { k with rays := keyDrop k.rays op }).finishOp core o.slot op o.writes)
        | some j => .next (s.after 1 (.reuseBatch core j))
      else if again then .next (s.after 16 (.rayUnitComplete core op))
      else .next s

/-- RAY_LANE_RESTART (R325): the page is resident, and the lane's work starts again from its beginning; or it was terminated (R421). -/
def execRayLaneRestart (core op lane : Nat) (s : State) : Out :=
  match keyFind (s.core core).rays op with
  | none => .next s
  | some o =>
    match keyFind o.lanes lane with
    | none => .next s
    | some l =>
      if l.suspended then
        let o := { o with lanes := keyPut o.lanes lane { l with suspended := false, trav := none } }
        .next ((s.modCore core fun k => { k with rays := keyPut k.rays op o }).after 1 (.rayUnitComplete core op))
      else .next s

/-- An instruction of one of the three units (R322, R323): the descriptor is read at its place in scratchpad order, P3 is raised, and the
work is held until its region commits. With no active lane nothing is read. -/
def rayIssue (kind n : Nat) (c : BitVec 4) (a d : BitVec 8) (s : State) : Out :=
  issue { rd := [.s (c.setWidth 7) 1, .v a n], wr := [.v d (rayDest kind)], roles := 8#4, path := some 3 } s fun s =>
    let core := s.g.core
    if !s.unitFree core (unitOf kind) then .next (s.stall (.unitRoom (unitOf kind)))
    else
      let off := (s.readS (c.setWidth 7)).toNat
      let idle := s.p.exec == 0#32
      if !idle && off % 32 != 0 then .next (s.trap { cause := cMISALIGN, lanes := some 0#32 })
      else if !idle && !s.ownBounds off 32 then .next (s.trap { cause := cSPBOUND, lanes := some 0#32 })
      else
        let desc := leNat (s.teamBytes s.g.team off 32)
        let win := match unitOf kind with | 0 => nfield desc 194 192 | 1 => nfield desc 162 160 | _ => nfield desc 122 120
        let id := s.nextId
        let o : RayOp :=
          { kind := kind, team := s.g.team, slot := s.g.slot, op := id, ctx := s.g.ctx, desc := desc, win := (s.win win).toNat
            priv := s.privBase, dst := d.toNat, held := true
            lanes := s.active.map fun l => (l, { args := s.runOf a n l }) }
        let s := s.addOp { id := 0, flag := none, path := some 3, vdst := vdests d (rayDest kind), inRegion := true, command := some core }
        let s := s.modCore core fun k => { k with rays := keyPut k.rays id o }
        .next (s.hold 1 id 3).retire

/-- A released instruction begins its work (R226, R350). -/
def State.startRay (s : State) (core id : Nat) : State :=
  (s.modCore core fun k => { k with rays := keyModify k.rays id fun o => { o with held := false } }).after 200 (.rayUnitComplete core id)

/-- RTRACE (R330 to R338). -/
def execRtrace (c : BitVec 4) (a d : BitVec 8) (s : State) : Out := rayIssue 0 8 c a d s

/-- RTANY (R332, R338). -/
def execRtany (c : BitVec 4) (a d : BitVec 8) (s : State) : Out := rayIssue 1 8 c a d s

/-- RTQRY (R339). -/
def execRtqry (c : BitVec 4) (a d : BitVec 8) (s : State) : Out := rayIssue 2 2 c a d s

/-- LTWALK (R343). -/
def execLtwalk (c : BitVec 4) (a d : BitVec 8) (s : State) : Out := rayIssue 3 7 c a d s

/-- LTPDF (R344). -/
def execLtpdf (c : BitVec 4) (a d : BitVec 8) (s : State) : Out := rayIssue 4 7 c a d s

/-- TEXLD (R345 to R349). -/
def execTexld (c : BitVec 4) (a d : BitVec 8) (s : State) : Out := rayIssue 5 3 c a d s

/-- TEXG (R345 to R349). -/
def execTexg (c : BitVec 4) (a d : BitVec 8) (s : State) : Out := rayIssue 6 6 c a d s

end Sys2Proof.Machine
end

