-- ==== Sys2Proof/Machine/Reuse.lean ====
section
/-! DEFINITION. Sys2Proof/Machine/Reuse.lean: reuse jobs and target callables (14_reservoirs_and_reuse.md, R371 to R379). -/

namespace Sys2Proof.Machine

/-! ## The reuse descriptor (Table 14.5) -/

/-- Its fields, held as a little-endian number. -/
def rdLeft (d : Nat) : Nat := nfield d 15 0
def rdTop (d : Nat) : Nat := nfield d 31 16
def rdW (d : Nat) : Nat := nfield d 39 32
def rdH (d : Nat) : Nat := nfield d 47 40
def rdCur (d : Nat) : Nat := nfield d 49 48
def rdPrev (d : Nat) : Nat := nfield d 51 50
def rdOut (d : Nat) : Nat := nfield d 53 52
def rdTemporal (d : Nat) : Bool := d.testBit 54
def rdVis (d : Nat) : Nat := nfield d 57 56
def rdCount (d : Nat) : Nat := nfield d 67 64
def rdPattern (d : Nat) : Nat := nfield d 69 68
def rdRadius (d : Nat) : Nat := nfield d 79 72
def rdMcap (d : Nat) : Nat := nfield d 95 80
def rdSeed (d : Nat) : Nat := nfield d 127 96
def rdFrame (d : Nat) : Nat := nfield d 159 128
def rdKey0 (d : Nat) : Nat := nfield d 191 160
def rdKey1 (d : Nat) : Nat := nfield d 223 192
def rdCallable (d : Nat) : Nat := nfield d 255 224
def rdArg (d : Nat) : Nat := nfield d 319 256
def rdPitch (d : Nat) : Nat := nfield d 383 352
def rdMotion (d : Nat) : Nat := nfield d 447 384
def rdAccel (d : Nat) : Nat := nfield d 479 448
def rdBarrier (d : Nat) : Nat := nfield d 511 480

/-- The checks of REUSE on a descriptor (R371). -/
def State.reuseChecks (s : State) (d : Nat) : Bool :=
  let l := s.launchOf s.g.team
  let used := [rdCur d, rdOut d] ++ (if rdTemporal d then [rdPrev d] else [])
  !d.testBit 55 && nfield d 63 58 == 0 && nfield d 71 70 == 0 && nfield d 351 323 == 0 && nfield d 991 512 == 0 &&
    decide (4 ≤ rdW d) && decide (rdW d ≤ 16) && decide (4 ≤ rdH d) && decide (rdH d ≤ 16) &&
    rdLeft d / 16 == (rdLeft d + rdW d - 1) / 16 && rdTop d / 16 == (rdTop d + rdH d - 1) / 16 &&
    decide (rdLeft d + rdW d ≤ l.w) && decide (rdTop d + rdH d ≤ l.h) && l.ownerDie (rdLeft d) (rdTop d) == dieOf s.g.core &&
    used.all (fun p => decide (p < l.planes)) && rdOut d != rdCur d && !(rdTemporal d && rdOut d == rdPrev d) && rdVis d != 3 &&
    decide (rdCount d ≤ 8) && (rdCount d == 0 || (decide (1 ≤ rdRadius d) && decide (rdRadius d ≤ 64))) && rdCallable d % 4 == 0 &&
    rdBarrier d % 16 == 0 && s.ownBounds (rdBarrier d) 16 && (rdVis d == 0 || (rdAccel d % 32 == 0 && s.ownBounds (rdAccel d) 32))

/-- REUSE (R371): the job is held until its region commits; P4 is raised. -/
def execReuse (c : BitVec 4) (s : State) : Out :=
  issue { rd := [.s (c.setWidth 7) 1], roles := 8#4, path := some 4 } s fun s =>
    let core := s.g.core
    if 16 ≤ (s.core core).jobs.length then .next (s.stall .jobRoom)
    else
      let off := (s.readS (c.setWidth 7)).toNat
      let d := leNat (s.teamBytes s.g.team off 128)
      if off % 128 ≠ 0 then .next (s.trap { cause := cMISALIGN, lanes := some 0#32 })
      else if !s.ownBounds off 128 || !s.reuseChecks d then .next (s.trap { cause := cSPBOUND, lanes := some 0#32 })
      else
        let accel := if rdVis d = 0 then 0 else leNat (s.teamBytes s.g.team (rdAccel d) 32)
        let id := s.nextId
        let j : ReuseJob :=
          { team := s.g.team, slot := s.g.slot, op := id, ctx := s.g.ctx, launch := s.myTeam.launch, off := off, desc := d, accel := accel
            win := (s.win (nfield d 322 320)).toNat, accelWin := (s.win (nfield accel 194 192)).toNat, priv := s.privBase }
        let s := s.addOp { id := 0, flag := none, path := some 4, inRegion := true, command := some core }
        let s := s.modCore core fun k => { k with jobs := keyPut k.jobs id j }
        .next (s.hold 2 id 4).retire

/-! ## A job and its pixels -/

/-- The pixels of a job, row by row (R375). -/
def ReuseJob.pixels (j : ReuseJob) : List (Nat × Nat) := rectPixels (rdLeft j.desc) (rdTop j.desc) (rdW j.desc) (rdH j.desc)

/-- The launch a job runs under. -/
def State.jobLaunch (s : State) (j : ReuseJob) : Launch := (keyFind s.dev.launches j.launch).getD { ctx := 0 }

/-- The line of the reservoir store that a pixel's output goes to. -/
def State.outLine (s : State) (j : ReuseJob) (die : Nat) (e : Nat × Nat) : Nat :=
  rsvLine ((s.jobLaunch j).recordPa die (rdOut j.desc) e.1 e.2)

/-- A core's job changed. -/
def State.modJob (s : State) (core job : Nat) (f : ReuseJob → ReuseJob) : State :=
  s.modCore core fun k => { k with jobs := keyModify k.jobs job f }

/-- A released job takes its output lines and begins (R226, R230, R375). -/
def State.startReuse (s : State) (core job : Nat) : State :=
  match keyFind (s.core core).jobs job with
  | none => s
  | some j =>
    let lines := (j.pixels.map (s.outLine j (dieOf core))).eraseDups
    let s := s.modDev fun d => { d with owned := d.owned ++ lines.map fun n => (n, core, job) }
    (s.modJob core job fun j => { j with held := false }).after 230 (.reuseJobStart core job)

/-! ## Candidates (R372, R373) -/

/-- The spatial patterns (Table 14.6). -/
def patterns : List (List (Int × Int)) :=
  [[(8, 0), (0, 8), (-8, 0), (0, -8), (6, 6), (-6, 6), (-6, -6), (6, -6)],
   [(3, 1), (-2, 5), (-6, -1), (2, -7), (8, 3), (-5, 7), (-8, -5), (4, -8)],
   [(4, 0), (-4, 0), (0, 4), (0, -4), (8, 0), (-8, 0), (0, 8), (0, -8)],
   [(4, 4), (-4, -4), (4, -4), (-4, 4), (8, 8), (-8, -8), (8, -8), (-8, 8)]]

/-- The offset of neighbour `k` of a pixel (R373). -/
def neighbour (d x y k : Nat) : Int × Int :=
  let (bx, by_) := (patterns.getD (rdPattern d) []).getD k (0, 0)
  let q := (blockingHash (BitVec.ofNat 64 (y * 65536 + x)) (BitVec.ofNat 32 (rdSeed d))).toNat % 4
  let (bx, by_) := match q with
    | 0 => (bx, by_)
    | 1 => (-by_, bx)
    | 2 => (-bx, -by_)
    | _ => (by_, -bx)
  let r : Int := rdRadius d
  ((bx * r + 4) / 8, (by_ * r + 4) / 8)

/-- What reading comes to for a job. -/
inductive JobRead (α : Type) where
  | ok (s : State) (x : α)
  | again (s : State)
  | fault (s : State) (va : Nat) (f : XFault)

/-- The motion vector of a pixel (R372), as two f32. -/
def State.motionOf (s : State) (core job : Nat) (j : ReuseJob) (x y : Nat) : JobRead (Nat × Nat) :=
  let va := winVa j.win (rdMotion j.desc + rdPitch j.desc * y + 8 * x)
  match s.pieces core j.ctx accR (s.firstOwner core job) 2 va 0 8 with
  | .again s => .again s
  | .fault s off f => .fault s (va + off) f
  | .ok s l => let v := leNat (s.pieceBytes l); .ok s (v % 2 ^ 32, v / 2 ^ 32)

/-- The pixel of the previous plane that a motion vector leads to (R372). -/
def temporalPixel (x y mx my : Nat) : Option (Int × Int) :=
  let fx := fS (fA (ofInt32 (x : Nat)) half32) mx
  let fy := fS (fA (ofInt32 (y : Nat)) half32) my
  if finite32 fx && finite32 fy then some (floor32 fx, floor32 fy) else none

/-- A candidate's record, if it is not absent (R372); it waits for a line that an engine owns. -/
def State.candidate (s : State) (core job : Nat) (j : ReuseJob) (pix i plane : Nat) (x y : Int) : JobRead (List Cand) :=
  let l := s.jobLaunch j
  let die := dieOf core
  if x < 0 ∨ y < 0 ∨ !l.inImage plane x.toNat y.toNat then .ok s []
  else
    let px := x.toNat
    let py := y.toNat
    let pa := l.recordPa die plane px py
    if !s.firstOwner core job (rsvLine pa) then .again s
    else if s.dev.poisoned.contains (lineOf pa) then .fault s pa { cause := cMEMERR, kind := 0, level := 0 }
    else
      let (s, w) := s.readRecord l die plane px py
      if resValid w && (l.ownerDie px py == die || resBrim w) then .ok s [{ pix := pix, i := i, record := w }] else .ok s []

/-- Candidates one after another. -/
def State.candidates (s : State) (core job : Nat) (j : ReuseJob) (pix : Nat) : List (Nat × Nat × Int × Int) → JobRead (List Cand)
  | [] => .ok s []
  | (i, plane, x, y) :: r =>
    match s.candidate core job j pix i plane x y with
    | .again s => .again s
    | .fault s va f => .fault s va f
    | .ok s c =>
      match s.candidates core job j pix r with
      | .ok s t => .ok s (c ++ t)
      | e => e

/-- The candidates of a pixel, in order (R372). -/
def State.pixelCands (s : State) (core job : Nat) (j : ReuseJob) (pix x y : Nat) : JobRead (List Cand) :=
  let d := j.desc
  let spatial := (List.range (rdCount d)).map fun k =>
    let o := neighbour d x y k
    (k + 2, rdCur d, (x : Int) + o.1, (y : Int) + o.2)
  let first : Nat × Nat × Int × Int := (0, rdCur d, (x : Int), (y : Int))
  if rdTemporal d then
    match s.motionOf core job j x y with
    | .again s => .again s
    | .fault s va f => .fault s va f
    | .ok s m =>
      let t := match temporalPixel x y m.1 m.2 with | some p => [(1, rdPrev d, p.1, p.2)] | none => []
      s.candidates core job j pix (first :: t ++ spatial)
  else s.candidates core job j pix (first :: spatial)

/-- The candidates of every pixel from number `pix` on. -/
def State.allCands (s : State) (core job : Nat) (j : ReuseJob) : Nat → List (Nat × Nat) → JobRead (List Cand)
  | _, [] => .ok s []
  | pix, (x, y) :: r =>
    match s.pixelCands core job j pix x y with
    | .again s => .again s
    | .fault s va f => .fault s va f
    | .ok s c =>
      match s.allCands core job j (pix + 1) r with
      | .ok s t => .ok s (c ++ t)
      | e => e

/-- A read of a job has faulted (R325, R378): it waits for the page, or ends with FAULT. -/
def State.jobFault (s : State) (core job : Nat) (j : ReuseJob) (va : Nat) (f : XFault) (again : Event) : State :=
  if !f.engineRestart then (s.modJob core job fun j => { j with code := 2 }).after 1 (.reuseJobComplete core job)
  else if s.faultRoom core then s.postEngine core 3 job (faultWords va j.ctx core 0 0 0 0)
  else s.after 16 again

/-- REUSE_JOB_START (R372): a released job reads its candidates. A job that has read them starts its batch again, after a fault
(R376). -/
def execReuseJobStart (core job : Nat) (s : State) : Out :=
  match keyFind (s.core core).jobs job with
  | none => .next s
  | some j =>
    if j.held || j.code != 0 then .next s
    else if j.started then .next ((s.modJob core job fun j => { j with batch := [], count := 0 }).after 1 (.reuseBatch core job))
    else
      match s.allCands core job j 0 j.pixels with
      | .again s => .next (s.after 16 (.reuseJobStart core job))
      | .fault s va f => .next (s.jobFault core job j va f (.reuseJobStart core job))
      | .ok s l => .next ((s.modJob core job fun j => { j with started := true, cands := l }).after 1 (.reuseBatch core job))

/-! ## The evaluator (R374, R376, R377) -/

/-- Whether a candidate is still to be evaluated: the canonical one never is (R374). -/
def Cand.pending (c : Cand) : Bool := c.i != 0 && c.phat.isNone

/-- The places of the next batch (R376). -/
def ReuseJob.nextBatch (j : ReuseJob) : List Nat :=
  ((j.cands.zipIdx.filter fun e => e.1.pending).map Prod.snd).take 32

/-- The registers of a batch (R376): the record in v0 to v7, x, y and i. -/
def ReuseJob.batchRegs (j : ReuseJob) (batch : List Nat) : Store 32 :=
  batch.zipIdx.foldl (fun v e =>
    let c := j.cands.getD e.1 { pix := 0, i := 0, record := [] }
    let p := j.pixels.getD c.pix (0, 0)
    let regs := c.record ++ [BitVec.ofNat 32 p.1, BitVec.ofNat 32 p.2, BitVec.ofNat 32 c.i]
    regs.zipIdx.foldl (fun v r => storeWrite v (32 * r.2 + e.2) r.1) v) []

/-- The evaluator's group of a job, and its split at the callable's entry (R376). -/
def ReuseJob.evaluator (j : ReuseJob) (core job clock : Nat) (batch : List Nat) : Group :=
  let m := laneMask (List.range batch.length)
  let lo : Word := BitVec.ofNat 32 (rdArg j.desc)
  let hi : Word := BitVec.ofNat 32 (rdArg j.desc / 2 ^ 32)
  { core := core, slot := evalSlot, ctx := j.ctx, team := j.team, nregs := 32, role := 3#2
    v := j.batchRegs batch, s := storeWrite (storeWrite (storeWrite [] 0 lo) 1 hi) 2 (BitVec.ofNat 32 (rdFrame j.desc))
    splits := [{ pc := BitVec.ofNat 32 (rdCallable j.desc), exec := m, member := m, readyTime := clock }]
    evaluates := some job }

/-- The ray operation of a job in the ray unit (R374). -/
def State.jobRays (s : State) (core job : Nat) : Option (Nat × RayOp) := (s.core core).rays.find? fun e => e.2.job == some job

/-- The results of a job's rays taken (R374): a hit, or an end without one, drops its candidate. -/
def ReuseJob.seeRays (j : ReuseJob) (o : RayOp) : ReuseJob :=
  o.lanes.foldl (fun j e =>
    let r := e.2.result.getD []
    let ended := decide (8 ≤ (wordAt r 4).toNat % 16)
    let drop := ended || wordAt r 1 != 0xFFFFFFFF#32
    match j.batch[e.1]? with
    | none => j
    | some p =>
      { j with cands := j.cands.modify p fun c => { c with seen := true, dropped := drop }
               rayEnd := if ended then min 255 (j.rayEnd + 1) else j.rayEnd }) j

/-- REUSE_BATCH (R376): the next batch enters the evaluator when it is free; after its visibility rays the pixels that are ready are
merged. -/
def execReuseBatch (core job : Nat) (s : State) : Out :=
  match keyFind (s.core core).jobs job with
  | none => .next s
  | some j =>
    if j.held || !j.started || j.code != 0 then .next s
    else if !j.batch.isEmpty then
      match s.jobRays core job with
      | some (id, o) =>
        if o.lanes.all fun e => e.2.result.isSome then
          let s := s.modCore core fun k => { k with rays := keyDrop k.rays id, jobs := keyPut k.jobs job { j.seeRays o with batch := [] } }
          .next (s.after 1 (.reuseMerge core job))
        else .next s
      | none => .next s
    else
      match j.nextBatch with
      | [] => .next (s.after 1 (.reuseMerge core job))
      | b :: r =>
        if s.groups.any fun g => g.at core evalSlot then .next (s.after 16 (.reuseBatch core job))
        else
          let s := { s with others := s.others ++ [j.evaluator core job s.clock (b :: r)] }
          .next (s.modJob core job fun j => { j with batch := b :: r, count := 0 })

/-- The ray of a lane of a batch (R374, R377): in reconnection mode its limit comes from the candidate's distance. -/
def ReuseJob.rayArgs (j : ReuseJob) (place : Nat) (w : List Word) : List Word :=
  if rdVis j.desc = 2 then
    let c := j.cands.getD place { pix := 0, i := 0, record := [] }
    w.set 7 (BitVec.ofNat 32 (fM (wordAt c.record 6).toNat 0x3F7FF000))
  else w

/-- TGTRET on the evaluator (R377): the results of every lane of the batch are taken, and the batch has ended; its visibility rays enter
the ray unit (R374). -/
def State.batchEnds (s : State) (job : Nat) (j : ReuseJob) (a d : BitVec 8) : State :=
  let core := s.g.core
  let cands := j.batch.zipIdx.foldl (fun l e => l.modify e.1 fun c => { c with phat := some (s.g.vreg a.toNat e.2) }) j.cands
  let rays : Keyed RayLane := j.batch.zipIdx.map fun e => (e.2, { args := j.rayArgs e.1 (s.runOf d 8 e.2) })
  let s := { s with g := { s.g with live := false }, p := { s.p with live := false } }
  if rdVis j.desc = 0 then
    (s.modCore core fun k => { k with jobs := keyPut k.jobs job { j with cands := cands, batch := [] } }).after 1 (.reuseMerge core job)
  else
    let id := s.nextId
    let o : RayOp :=
      { kind := 1, team := j.team, slot := j.slot, op := id, ctx := j.ctx, desc := j.accel, win := j.accelWin, priv := j.priv, dst := 0
        lanes := rays, held := false, job := some job }
    ({ s with nextId := id + 1 }.modCore core fun k =>
      { k with jobs := keyPut k.jobs job { j with cands := cands }, rays := keyPut k.rays id o }).after 200 (.rayUnitComplete core id)

/-- TGTRET (R377): a group's is ILLEGAL at step 7 of R64. -/
def execTgtret (a d : BitVec 8) (s : State) : Out :=
  issue { rd := [.v a 1, .v d 8], roles := 8#4 } s fun s =>
    match s.g.evaluates with
    | none => .next (s.trap s.illegal)
    | some job =>
      match keyFind (s.core s.g.core).jobs job with
      | none => .next { s with g := { s.g with live := false }, p := { s.p with live := false } }
      | some j => .next (s.batchEnds job j a d)

/-! ## Merging and completion (R375, R378, R379) -/

/-- A pixel's output (R375): the record. -/
def ReuseJob.output (j : ReuseJob) (pix : Nat) : List Word :=
  let (x, y) := j.pixels.getD pix (0, 0)
  let cands := j.cands.filter fun c => c.pix == pix && !c.dropped
  let w := fun (n : Nat) => BitVec.ofNat 32 n
  let st := cands.foldl (fun (st : List Word × Nat) c =>
    let a := (rngctr (w x) (w y) (w (rdFrame j.desc)) (w (16 + c.i)) (w (rdKey0 j.desc)) (w (rdKey1 j.desc))).1
    let (out, _, taken) := rsvMerge (rdMcap j.desc) st.1 c.record (c.phat.getD (wordAt c.record 2)) (rngf a)
    (out, if taken then c.i else st.2)) (List.replicate 8 0#32, 0)
  let out := (rsvNorm st.1).1
  if st.2 = 1 then
    let f := resFlags out
    out.set 5 (word5 (resM out) (f - 2 * resAge out + 2 * min (resAge out + 1) 63))
  else out

/-- Whether every candidate of a pixel has its target value and its ray. -/
def ReuseJob.pixelReady (j : ReuseJob) (pix : Nat) : Bool :=
  j.cands.all fun c => c.pix != pix || c.i == 0 || (c.phat.isSome && (rdVis j.desc == 0 || c.seen))

/-- REUSE_MERGE (R375): the next pixel, if it is ready, is written, and its line given up when it is the last of it; a job of a failed
context writes nothing more (R427). -/
def execReuseMerge (core job : Nat) (s : State) : Out :=
  match keyFind (s.core core).jobs job with
  | none => .next s
  | some j =>
    if j.held || !j.started || j.code != 0 then .next s
    else if j.pixels.length ≤ j.pix then .next (s.after 1 (.reuseJobComplete core job))
    else if !j.pixelReady j.pix then .next (s.after 1 (.reuseBatch core job))
    else
      let e := j.pixels.getD j.pix (0, 0)
      let die := dieOf core
      let line := s.outLine j die e
      if !s.firstOwner core job line then .next (s.after 16 (.reuseMerge core job))
      else
        let s := if (s.ctx j.ctx).failed then s else s.writeRecord (s.jobLaunch j) die (rdOut j.desc) e.1 e.2 (j.output j.pix)
        let more := (j.pixels.drop (j.pix + 1)).any fun f => s.outLine j die f == line
        let s := if more then s
          else s.modDev fun d => { d with owned := d.owned.filter fun o => !(o.1 == line && o.2.1 == core && o.2.2 == job) }
        .next ((s.modJob core job fun j => { j with pix := j.pix + 1 }).after 1 (.reuseMerge core job))

/-- REUSE_JOB_COMPLETE (R379): the status word is delivered, the barrier object is credited, with FAULT too where the delivery is refused
(R213), and P4 is lowered; lines never written are given up. -/
def execReuseJobComplete (core job : Nat) (s : State) : Out :=
  match keyFind (s.core core).jobs job with
  | none => .next s
  | some j =>
    if j.held || (j.code == 0 && decide (j.pix < j.pixels.length)) then .next s
    else
      let s := s.disown core job
      let s := { s with others := s.others.filter fun g => !(g.at core evalSlot && g.evaluates == some job) }
      let word := BitVec.ofNat 32 (j.code + 256 * j.rayEnd)
      let fits := s.deliverable j.team (j.off + 124) 4
      let s := if fits then s.putTeamWord j.team (j.off + 124) word else s
      let s := s.credit j.team (rdBarrier j.desc) 1 (if j.code = 0 ∧ fits = true then 0 else barFault)
      .next ((s.modCore core fun k => { k with
        jobs := keyDrop k.jobs job
        rays := k.rays.filter fun e => !(e.2.job == some job) }).finishOp core j.slot job {})

end Sys2Proof.Machine
end

