-- ==== Sys2Proof/Machine/Tasks.lean ====
section
/-! DEFINITION. Sys2Proof/Machine/Tasks.lean: job cards and their checks, task queues, POST and DEPDEC, placement, launch, grid ends,
stage rings and mailboxes (15_tasks_and_queues.md). -/

namespace Sys2Proof.Machine

/-! ## Cards (R382, R383) -/

/-- Byte `i` of a block held as a little-endian number. -/
def byteOf (b i : Nat) : Nat := b / 256 ^ i % 256

/-- The card that 64 bytes hold (Table 15.1). -/
def cardOf (c : Nat) : Card :=
  { codeBase := nfield c 63 0, entry := 2 * nfield c 95 64, win := nfield c 98 96, prio := nfield c 100 99
    groups := nfield c 108 104 + 1, teams := nfield c 127 112 + 1, w := nfield c 131 128, h := nfield c 135 132
    regs := 8 * nfield c 140 136, spad := 4096 * byteOf c 18, queues := nfield c 156 152, rings := nfield c 164 160
    scope := nfield c 172 168, dep := nfield c 191 176
    roles := (List.range 4).filterMap fun i =>
      let r := nfield c (207 + 16 * i) (192 + 16 * i)
      if r.testBit 12 then some (nfield r 4 0, nfield r 9 5, nfield r 11 10) else none
    arg := nfield c 319 256, completion := nfield c 383 320, successor := nfield c 447 384, stages := nfield c 450 448 + 1 }

/-- The cores of a rectangle on the mesh of one die, by position; none when it does not fit (R20, R393). -/
def rect (top w h : Nat) : Option (List Nat) :=
  if top % 16 + w ≤ 16 ∧ top % 160 / 16 + h ≤ 10 then
    some ((List.range (w * h)).map fun p => top + 16 * (p / w) + p % w)
  else none

/-- Whether a scope holds one whole cluster (R383). -/
def scopeFits (mask w h : Nat) : Bool :=
  (List.range 320).any fun t => match rect t w h with
    | some l => l.all mask.testBit
    | none => false

/-- The checks of a card in ascending byte order (R382, R383): each byte offset with whether its field passes. -/
def cardChecks (c : Nat) (scopeOk launched : Bool) : List (Nat × Bool) :=
  let k := cardOf c
  let shape := decide (1 ≤ k.w ∧ 1 ≤ k.h ∧ k.w * k.h ≤ 12)
  [(0, k.codeBase % 128 == 0), (8, k.entry % 4 == 0), (12, nfield c 103 101 == 0), (13, nfield c 111 109 == 0),
   (14, !shape || k.teams % (k.w * k.h) == 0), (16, shape && decide (k.h ≤ 10)),
   (17, nfield c 143 141 == 0 && decide (8 ≤ k.regs ∧ k.regs ≤ 224 ∧ (k.groups + 3) / 4 * k.regs ≤ 480)),
   (18, decide (byteOf c 18 ≤ 128)), (19, decide (byteOf c 19 ≤ 16)), (20, decide (byteOf c 20 ≤ 16)),
   (21, nfield c 175 173 == 0 && scopeOk), (22, !launched || k.dep == 0)] ++
  ((List.range 4).map fun i =>
    let r := nfield c (207 + 16 * i) (192 + 16 * i)
    (24 + 2 * i, nfield r 15 13 == 0 && (!r.testBit 12 || decide (nfield r 4 0 ≤ nfield r 9 5)))) ++
  [(40, k.completion % 16 == 0), (48, k.successor % 64 == 0), (56, nfield c 455 451 == 0 && decide (2 ≤ k.stages)),
   (57, nfield c 511 456 == 0)]

/-- The reason of the first check that fails (R383). -/
def firstFail (l : List (Nat × Bool)) : Option Nat := (l.find? fun e => !e.2).map Prod.fst

/-! ## Task queues (R386) -/

/-- The queue that a target code names for a core (Table 15.3): core queue n of core c is 2 c + n. -/
def queueKey (core target : Nat) : Nat :=
  let x := core % 16
  let y := core % 160 / 16
  let near := fun (on : Bool) (c : Nat) => if on then 2 * c else dieQueue (dieOf core)
  match target with
  | 0 => 2 * core
  | 1 => 2 * core + 1
  | 2 => near (decide (0 < y)) (core - 16)
  | 3 => near (decide (x < 15)) (core + 1)
  | 4 => near (decide (y < 9)) (core + 16)
  | 5 => near (decide (0 < x)) (core - 1)
  | 6 => dieQueue (dieOf core)
  | _ => 642

/-- The device queue. -/
def deviceQueue : Nat := 642

/-- The entries that a queue holds (Table 15.3). -/
def queueCap (key : Nat) : Nat := if key < 640 then 32 else if key < 642 then 512 else 2048

/-- The entries of a task queue, the head first. -/
def State.taskQueue (s : State) (key : Nat) : List Task := (keyFind s.dev.queues key).getD []

/-- A task enters the tail of a queue as a grid (R386, R388); in a context marked failed the grid is over at once (R427). -/
def State.enqueue (s : State) (key : Nat) (t : Task) : State :=
  let id := s.nextId
  let t := { t with id := id, grid := id, poster := none }
  let failed := (s.ctx t.ctx).failed
  let s := ({ s with nextId := id + 1 } : State).modDev fun d =>
    { d with grids := keyPut d.grids id ({ task := t, failed := failed } : Grid)
             queues := if failed then d.queues else keyPut d.queues key (s.taskQueue key ++ [t]) }
  if failed then s.after 1 (.gridEnd id) else s

/-- A refused card makes a grid that is over at once, with its reason (R383, R384). -/
def State.refuse (s : State) (t : Task) (reason : Nat) (wins : Option (List Nat)) : State :=
  let id := s.nextId
  let g : Grid := { task := { t with id := id, grid := id, poster := none }, refused := some reason, wins := wins }
  ({ s with nextId := id + 1 }.modDev fun d => { d with grids := keyPut d.grids id g }).after 1 (.gridEnd id)

/-- A posted card read and checked as it stands (R383, R388, R392): with the reason that refuses it, if one does. -/
def State.takeCard (s : State) (t : Task) : Task × Option Nat :=
  if s.dev.poisoned.contains (lineOf t.cardPa) then ({ t with card := {} }, some 0xFFFFFFFF)
  else
    let c := readBytes s.mem t.cardPa 64
    let k := cardOf c
    let mask := if k.scope = 1 then t.scopeMask else (s.scopeMask t.ctx t.core 0 k.scope).toNat
    let key := queueKey t.core t.target
    let scopeOk := scopeFits mask k.w k.h && (decide (640 ≤ key) || mask.testBit (key / 2))
    ({ t with card := { k with arg := t.arg.getD k.arg }, scopeMask := mask }, firstFail (cardChecks c scopeOk false))

/-- P7 of the group that posted a task is lowered (R388). -/
def State.lowerPost (s : State) (t : Task) : State :=
  match t.poster with
  | some (core, slot, op) => s.finishOp core slot op {}
  | none => s

/-- A posted card whose count is 0: it is refused, or on its way to its queue (R388, R389). -/
def State.submit (s : State) (t : Task) (clk : Nat) : State :=
  match s.takeCard t with
  | (t, some reason) => (s.lowerPost t).refuse t reason none
  | (t, none) =>
    let id := s.nextId
    ({ s with nextId := id + 1 }.modDev fun d => { d with posted := d.posted ++ [{ t with id := id }] }).after clk
      (.taskQueueAcceptance id)

/-- The time from POST to acceptance (Table 15.7). -/
def acceptTime (target : Nat) : Nat := if target < 6 then 40 else if target = 6 then 200 else 450

/-- The number of entries that the pending table holds (R390). -/
def pendingSize : Nat := 1024

/-- A task that the issuing group posts, with its operation on P7. -/
def State.postTask (s : State) (pa va target : Nat) (arg : Option Nat) (op : Nat) : Task :=
  { id := 0, card := {}, cardPa := pa, cardVa := va, ctx := s.g.ctx, arg := arg, target := target, core := s.g.core
    scopeMask := (s.scopeMask s.g.ctx s.g.core s.g.team 1).toNat, launch := s.myTeam.launch
    privhwm := ((keyFind s.dev.grids s.myTeam.grid).map fun g => g.task.privhwm).getD 0
    poster := some (s.g.core, s.g.slot, op) }

/-- The POST's own commit on the card's line, for its operation `op` on P7 (R388): a count of 0 submits the card, any other registers a pending entry, which waits
with P7 raised while the table is full. -/
def State.posting (s : State) (pa va target op : Nat) (arg : Option Nat) : State :=
  let t := s.postTask pa va target arg op
  if depOf s.mem pa = 0 then s.submit t (acceptTime target)
  else
    let id := s.nextId
    ({ s with nextId := id + 1 }.modDev fun d => { d with pendingCards := d.pendingCards ++ [{ t with id := id }] }).after 220
      (.taskQueueAcceptance id)

/-- The address of a card translated at issue: a walk is asked for, a fault is taken (R387, R388); a poisoned line is MEMERR (R428). -/
def withCard (acc va : Nat) (s : State) (k : Nat → Tlb → Out) : Out :=
  match s.lookup va acc with
  | .hit pa t =>
    if s.dev.poisoned.contains (lineOf pa) then
      .next (s.trap { cause := cMEMERR, sub := if accWrites acc then 4 else 0, va := BitVec.ofNat 80 va })
    else k pa t
  | .miss => .next (s.askWalk (BitVec.ofNat 80 va) acc)
  | .fault f => .next (s.pageTrap f acc (BitVec.ofNat 80 va) none)

/-- The same of a POST, whose checks are made before its commit (R219). -/
def withKeptCard (acc va : Nat) (s : State) (k : Nat → State → Out) : Out :=
  match s.p.kept with
  | some (.card pa _ _) => if s.p.stale then again s.reopened else k pa s
  | _ => again s
where
  again (s : State) : Out := withCard acc va s fun pa t => k pa { s with p := { s.p with kept := some (.card pa va t), stale := false } }

/-- P7 raised for a POST whose region has committed, once (R388). -/
def State.raisePost (s : State) : State × Nat :=
  match s.p.reply with
  | some op => (s, op)
  | none => let op := s.nextId; ({ s.startPath 7 {} [] [] with p := { s.p with reply := some op } }, op)

/-- POST (R387, R388). -/
def execPost (arg card target : BitVec 7) (s : State) : Out :=
  issue { rd := [.s target 1, .s card 2, .s arg 2], path := some 7 } s fun s =>
    let tgt := (s.readS target).toNat
    let va := (s.win 0 ++ s.readS64 card).toNat
    if 7 < tgt then .next (s.trap { cause := cSPBOUND, lanes := some 0#32 })
    else if va % 64 ≠ 0 then .next (s.trap { cause := cMISALIGN, lanes := some 0#32, va := BitVec.ofNat 80 va })
    else
      withKeptCard accR va s fun pa s => atCommit s fun s =>
        let (s, op) := s.raisePost
        if s.ownedLine (lineOf pa) then .next (s.holdAct (.owned (lineOf pa)))
        else if s.dev.poisoned.contains (lineOf pa) then
          .next ((s.finishOp s.g.core s.g.slot op {}).trap { cause := cMEMERR, va := BitVec.ofNat 80 va })
        else .next (s.posting pa va tgt op (if arg = 125#7 then none else some (s.readS64 arg).toNat)).retire

/-- DEPDEC (R389): the card's line joins the write set; its count is lowered at the region's commit. -/
def execDepdec (b : BitVec 7) (s : State) : Out :=
  issue { rd := [.s b 2] } s fun s =>
    let va := (s.win 0 ++ s.readS64 b).toNat
    withCard accW va s fun pa t =>
      let line := lineOf pa
      if overfull 64 s.g.region.writeLines [line] then .next s.capacityCommit
      else
        let e := { lineEntry s.g.region.stores line with va := va / 128, ctx := s.g.ctx, peer := t.peer, streaming := t.streaming }
        .next { s with g := { s.g with region := { s.g.region with
          stores := keyPut s.g.region.stores line e, depdecs := s.g.region.depdecs ++ [pa] } } }.retire

/-- The pending entries of a card are released: each is checked as the card stands now, and queued 300 clk later (R389). -/
def State.releasePending (s : State) (pa : Nat) : State :=
  let mine := s.dev.pendingCards.filter fun t => t.cardPa == pa
  mine.foldl (fun s t => s.submit t 300)
    (s.modDev fun d => { d with pendingCards := d.pendingCards.filter fun t => t.cardPa != pa })

/-- A card's count lowered by 1 in the commit being made (R389). -/
def State.lowerCard (s : State) (pa : Nat) : State :=
  let s := (s.makeDirty (lineOf pa)).lineWritten (lineOf pa)
  let (m, zero) := lowerDep s.mem pa
  let s := { s with mem := m }
  if zero then s.releasePending pa else s

/-- TASK_QUEUE_ACCEPTANCE (R388): the queue, or the pending table, accepts once it has room, and P7 is lowered. -/
def execTaskQueueAcceptance (msg : Nat) (s : State) : Out :=
  match s.dev.posted.find? fun t => t.id == msg with
  | some t =>
    let key := queueKey t.core t.target
    if queueCap key ≤ (s.taskQueue key).length then .next (s.after 1 (.taskQueueAcceptance msg))
    else
      .next (((s.modDev fun d => { d with posted := d.posted.filter fun t => t.id != msg }).lowerPost t).enqueue key t).placeSoon
  | none =>
    match s.dev.pendingCards.find? fun t => t.id == msg with
    | some t =>
      if pendingSize ≤ (s.dev.pendingCards.takeWhile fun t => t.id != msg).length then .next (s.after 16 (.taskQueueAcceptance msg))
      else
        .next ((s.modDev fun d => { d with pendingCards := d.pendingCards.map fun t =>
          if t.id = msg then { t with poster := none } else t }).lowerPost t)
    | none => .next s

/-! ## What a core has free (R26 to R29, R184, R385) -/

/-- The resources that a team would take on a core: its team slot, the group slots by group index, the starts of its scratchpad, its
queues and its rings. -/
structure Fit where
  tslot : Nat
  slots : List (Nat × Nat)
  spb : Nat
  qb : Nat
  rb : Nat
deriving DecidableEq, Repr

/-- The lowest start of a free run of `need` among `total`, beside runs that are taken (log 23). -/
def lowestRun (taken : List (Nat × Nat)) (total need : Nat) : Option Nat :=
  if need = 0 then some 0
  else
    let ok := fun a => decide (a + need ≤ total) && taken.all fun e => decide (a + need ≤ e.1 ∨ e.1 + e.2 ≤ a)
    ((0 :: taken.map fun e => e.1 + e.2).filter ok).foldl (fun b a => match b with | some b => some (min a b) | none => some a) none

/-- The lowest free slot of quadrant g mod 4 for each group index (R26, R27). -/
def assignSlots (used : List Nat) : List Nat → Option (List (Nat × Nat))
  | [] => some []
  | g :: r =>
    match ((List.range 16).map (16 * (g % 4) + ·)).find? fun i => !used.contains i with
    | none => none
    | some i => (assignSlots (i :: used) r).map ((g, i) :: ·)

/-- What a team of a card, with these groups, takes on a core, if everything it needs is free there (R29). A team counts among the eight until
its resources are released (log 63); what a team that an abort ended holds counts until then, and a slot with a record until its action (R424). -/
def State.fit (s : State) (core : Nat) (card : Card) (gids : List Nat) : Option Fit :=
  let teams := (s.dev.teams.filter fun e => e.2.core == core && !e.2.released).map Prod.snd
  let alive := teams.filter fun t => !t.ending || !t.held.isEmpty
  let groups := s.groups.filter fun g => g.core == core && g.live && g.isThread
  let held := teams.flatMap Team.held
  let used := supSlot :: (groups.map Group.slot ++ held.map Prod.fst ++ (s.core core).traps.map Prod.fst ++ (s.core core).owed.map Prod.fst)
  let regs := fun q => ((groups.filter fun g => g.slot / 16 == q && !(s.team g.team).released).map Group.nregs).sum +
    ((held.filter fun e => e.1 / 16 == q).map Prod.snd).sum +
    card.regs * (gids.filter fun g => g % 4 == q).length
  let fits := decide (teams.length < 8 ∧ regs 0 ≤ 480 ∧ regs 1 ≤ 512 ∧ regs 2 ≤ 512 ∧ regs 3 ≤ 512)
  match (List.range 8).find? (fun i => !(teams.map Team.tslot).contains i), assignSlots used gids,
      lowestRun (teams.map fun t => (t.spbase, t.spsize)) 524288 card.spad,
      lowestRun (alive.map fun t => (t.qbase, t.card.queues)) 16 card.queues,
      lowestRun (alive.map fun t => (t.rbase, t.card.rings)) 16 card.rings with
  | some ts, some slots, some spb, some qb, some rb =>
    if fits then some { tslot := ts, slots := slots, spb := spb, qb := qb, rb := rb } else none
  | _, _, _, _, _ => none

/-- Whether a core has room for carding tables and maps beside those that it holds (Table 1.4). -/
def State.unitsRoom (s : State) (core : Nat) (tables : Keyed CardTable) (maps : Keyed MapRegion) : Bool :=
  let all := s.coreTables core ++ tables.map Prod.snd
  decide (all.length ≤ 4) && decide ((all.map CardTable.size).foldl (· + ·) 0 ≤ 256 * 1024) && decide (s.coreMaps core + maps.length ≤ 8)

/-- The saved team of a cluster position (R432). -/
def Task.savedAt (t : Task) (p : Nat) : Option Saved := t.saved.find? fun v => v.team.pos == p

/-- The team that starts again at a cluster position: its index and region id (R426). -/
def Task.againAt (t : Task) (p : Nat) : Option (Nat × Nat) := t.again.find? fun e => e.1 % (t.card.w * t.card.h) == p

/-- What the team of cluster position `p` takes on a core: nothing when the entry has no team there; a saved team needs its slot and
tile numbers free (R320, R432), and room for its carding tables and its maps (Table 1.4). -/
def State.fitAt (s : State) (t : Task) (core p : Nat) : Option (Option Fit) :=
  if !t.saved.isEmpty then
    match t.savedAt p with
    | none => some none
    | some v =>
      let k := s.core core
      if (v.slots.any fun e => (keyFind k.slots e.1).isSome) || (v.tiles.any fun e => (keyFind k.tiles e.1).isSome) ||
          !s.unitsRoom core v.team.tables v.team.maps then none
      else (s.fit core t.card (v.groups.map Group.gid)).map some
  else if !t.again.isEmpty && (t.againAt p).isNone then some none
  else (s.fit core t.card (List.range t.card.groups)).map some

/-- The same for every core of a rectangle, in positions from `p` on. -/
def State.fitAll (s : State) (t : Task) : Nat → List Nat → Option (List (Option Fit))
  | _, [] => some []
  | p, c :: r =>
    match s.fitAt t c p with
    | none => none
    | some f => (s.fitAll t (p + 1) r).map (f :: ·)

/-- The rectangle for an entry among top-left cores, in ascending order: every core in scope and free (R393). -/
def State.findPlace (s : State) (t : Task) (tops : List Nat) : Option (Nat × List (Option Fit)) :=
  tops.findSome? fun top =>
    match rect top t.card.w t.card.h with
    | none => none
    | some cs => if cs.all t.scopeMask.testBit then (s.fitAll t 0 cs).map fun l => (top, l) else none

/-! ## Starting teams (R112, R134, R143, R145, R385, R415) -/

/-- From a queue's head to the first instruction (Table 15.7). -/
def headTime : Nat := 220

/-- The scratchpad, the queues and the ring phases of a fresh allocation: zeros, empty, 0 (R184, R385). -/
def Core.allot (k : Core) (f : Fit) (card : Card) : Core :=
  { k with
    spad := storeClear k.spad f.spb card.spad
    queues := k.queues.filter fun e => !(decide (f.qb ≤ e.1) && decide (e.1 < f.qb + card.queues))
    phases := storeClear k.phases (8 * f.rb) (8 * card.rings) }

/-- A group as it starts (R112, R143, R145, Table 6.5). -/
def newGroup (t : Task) (num core index gid slot start : Nat) : Group :=
  { core := core, slot := slot, ctx := t.ctx, team := num, gid := gid, nregs := t.card.regs, role := t.card.roleOf gid
    s := storeFill [] [0, 1, 2, 3] fun i =>
      match i with
      | 0 => BitVec.ofNat 32 t.card.arg
      | 1 => BitVec.ofNat 32 (t.card.arg / 2 ^ 32)
      | 2 => BitVec.ofNat 32 index
      | _ => BitVec.ofNat 32 t.card.groups
    sys := { gang := 1#32 <<< gid, privhwm := BitVec.ofNat 32 t.privhwm }
    splits := [{ pc := BitVec.ofNat 32 t.card.entry, wait := .clock start, readyTime := start, lastIssue := start }] }

/-- The watchdog of a team looked at when its limit can be reached, if the core has one (R429). -/
def State.watch (s : State) (num : Nat) : State :=
  let tm := s.team num
  let n := (s.core tm.core).wdlimit.toNat
  if n = 0 then s else s.after (tm.lastIssue + n - s.clock) (.watchdog num)

/-- Credits of BRIMX that came while a team was not on a core reach its barrier objects (R370). -/
def State.payCredits (s : State) (grid index num : Nat) : State :=
  let due := ((keyFind s.dev.grids grid).map fun g => (g.credits.filter fun e => e.1 == index).map Prod.snd).getD []
  let s := s.modDev fun d => { d with grids := keyModify d.grids grid fun g => { g with credits := g.credits.filter fun e => e.1 != index } }
  due.foldl (fun s off => s.credit num off 1 0) s

/-- A team starts on a core (R385): everything that its card asks for is allotted; a barrier-object credit that came before it and
deliveries held for it reach it (R264, R370). -/
def State.startTeam (s : State) (t : Task) (num cluster core pos index region : Nat) (f : Fit) : State :=
  let start := s.clock + headTime
  let team : Team :=
    { core := core, tslot := f.tslot, grid := t.grid, cluster := cluster, pos := pos, index := index, groups := t.card.groups
      ctx := t.ctx, card := t.card, spbase := f.spb, spsize := t.card.spad, qbase := f.qb, rbase := f.rb, region := region
      launch := t.launch, lastIssue := if (s.core core).halted then 0 else start }
  let s := s.modCore core fun k => k.allot f t.card
  let s : State := { s with others := s.others ++ f.slots.map fun e => newGroup t num core index e.1 e.2 start }
  let s := s.modDev fun d => { d with teams := keyPut d.teams num team }
  let s := s.modCtx t.ctx fun c => { c with regions := if c.regions.contains region then c.regions else c.regions ++ [region] }
  ((s.payCredits t.grid index num).wakeHeld t.grid index).watch num

/-- A saved team goes on (R432): its state stands on the new core under the new group slots, with a new scratchpad base; its slots and
tiles keep their numbers (R320). -/
def State.resumeTeam (s : State) (t : Task) (v : Saved) (num cluster core : Nat) (f : Fit) : State :=
  let start := s.clock + headTime
  let slotOf := fun (old : Nat) =>
    match v.groups.find? fun g => g.slot == old with
    | some g => ((f.slots.find? fun e => e.1 == g.gid).map Prod.snd).getD old
    | none => old
  let team := { v.team with
    core := core, tslot := f.tslot, cluster := cluster, spbase := f.spb, qbase := f.qb, rbase := f.rb
    lastIssue := if (s.core core).halted then 0 else start }
  let s := s.modCore core fun k =>
    let k : Core := k.allot f t.card
    { k with
      spad := storePaste k.spad f.spb team.spsize v.spad
      queues := v.queues.foldl (fun q e => keyPut q (f.qb + e.1) e.2) k.queues
      phases := storePaste k.phases (8 * f.rb) (8 * t.card.rings) v.phases
      slots := v.slots.foldl (fun m e => keyPut m e.1 { e.2 with owner := slotOf e.2.owner, team := num }) k.slots
      tiles := v.tiles.foldl (fun m e => keyPut m e.1 { e.2 with owner := slotOf e.2.owner, team := num }) k.tiles }
  let s : State := { s with others := s.others ++ v.groups.map fun g =>
    { g with
      core := core, slot := slotOf g.slot, team := num
      splits := g.splits.map fun q =>
        if q.wait = .preempted then { q with wait := .clock start, readyTime := start, lastIssue := start } else q } }
  let s := s.modDev fun d => { d with teams := keyPut d.teams num team }
  ((s.payCredits t.grid v.team.index num).wakeHeld t.grid v.team.index).watch num

/-- The lowest region id that is free in a context (R415). -/
def State.freeRegion (s : State) (ctx : Nat) : Nat :=
  let used := (s.ctx ctx).regions
  ((List.range (used.length + 1)).find? fun r => !used.contains r).getD 0

/-- The teams of a cluster placed, position by position; `base` is the first ticket. -/
def State.startAll (s : State) (t : Task) (cluster base : Nat) : Nat → List Nat → List (Option Fit) → State
  | p, c :: cs, f :: fs =>
    let num := cluster + 1 + p
    let s := match f with
      | none => s
      | some f =>
        match t.savedAt p with
        | some v => s.resumeTeam t v num cluster c f
        | none =>
          match t.againAt p with
          | some (index, region) => s.startTeam t num cluster c p index region f
          | none => s.startTeam t num cluster c p (base + p) (s.freeRegion t.ctx) f
    s.startAll t cluster base (p + 1) cs fs
  | _, _, _ => s

/-- The entry at the head of a queue places a cluster (R391, R393, R395): a fresh one takes its tickets, and the entry leaves its queue
with the last of them; a requeue or resume entry leaves at once. -/
def State.place (s : State) (key : Nat) (t : Task) (top : Nat) (fits : List (Option Fit)) : State :=
  let n := t.card.w * t.card.h
  let fresh := t.again.isEmpty && t.saved.isEmpty
  let base := ((keyFind s.dev.grids t.grid).map Grid.ticket).getD 0
  let cluster := s.nextId
  let cs := (rect top t.card.w t.card.h).getD []
  let nums := (List.range n).map fun p => match fits[p]? with | some (some _) => cluster + 1 + p | _ => 0
  let last := !fresh || decide (t.card.teams ≤ base + n)
  let s := ({ s with nextId := cluster + 1 + n } : State).modDev fun d =>
    { d with
      queues := if last then keyModify d.queues key List.tail else d.queues
      grids := if fresh then keyModify d.grids t.grid fun g => { g with ticket := base + n } else d.grids }
  if fresh && decide (t.card.teams ≤ base) then s
  else
    let k : Cluster := { teams := nums, core := top, w := t.card.w, h := t.card.h, grid := t.grid, nr := t.nr }
    let s := s.modDev fun d => { d with clusters := keyPut d.clusters cluster k }
    s.startAll t cluster base 0 cs fits

/-- The rank of a queue among heads of one priority (R391): core queue 1, core queue 0, the die queue, the device queue. -/
def queueRank (key : Nat) : Nat := if key < 640 then (if key % 2 = 1 then 0 else 1) else if key < 642 then 2 else 3

/-- Whether the head of queue `a` comes before that of queue `b` (R391). -/
def headBefore (a b : Nat × Task) : Bool :=
  if a.2.card.prio ≠ b.2.card.prio then decide (b.2.card.prio < a.2.card.prio)
  else if queueRank a.1 ≠ queueRank b.1 then decide (queueRank a.1 < queueRank b.1)
  else decide (a.2.id < b.2.id)

/-- A head put in its place among others. -/
def insertHead (e : Nat × Task) : List (Nat × Task) → List (Nat × Task)
  | [] => [e]
  | x :: r => if headBefore e x then e :: x :: r else x :: insertHead e r

/-- The heads of the queues that may place on a die, in order; those of suspended and failed contexts do not place (R427, R434), nor
those that find no region id (R415). -/
def State.heads (s : State) (die : Nat) : List (Nat × Task) :=
  (s.dev.queues.filterMap fun e =>
    match e.2 with
    | [] => none
    | t :: _ =>
      let mine := if e.1 < 640 then dieOf (e.1 / 2) == die else e.1 == dieQueue die || e.1 == deviceQueue
      let c := s.ctx t.ctx
      let room := !t.again.isEmpty || !t.saved.isEmpty || decide (c.regions.length + t.card.w * t.card.h ≤ 65536)
      if mine && !c.suspended && !c.failed && room then some (e.1, t) else none).foldr insertHead []

/-- The top-left cores that a queue may place on, from a die's distributor (Table 15.3). -/
def topsOf (die key : Nat) : List Nat := if key < 640 then [key / 2] else span (160 * die) 160

/-- TEAM_PLACEMENT (R391): the distributor of a die places the next team or cluster of the first head that fits; both look
again, for a head that stands on the device queue is either's to place. -/
def execTeamPlacement (die : Nat) (s : State) : Out :=
  match (s.heads die).findSome? fun e => (s.findPlace e.2 (topsOf die e.1)).map fun p => (e, p) with
  | none => .next s
  | some ((key, t), top, fits) => .next (s.place key t top fits).placeSoon

/-! ## Launch (R394, R361, R362) -/

/-- The checks of a launch parameter block beyond its card, in ascending byte order (Tables 14.3 and 15.5). -/
def blockChecks (b : Nat) : List (Nat × Bool) :=
  [(64, decide (byteOf b 64 ≤ 4)), (65, decide (byteOf b 65 ≤ 4)), (66, decide (byteOf b 66 ≤ 64)), (67, byteOf b 67 == 0),
   (68, decide (nfield b 559 544 < 16384)), (70, decide (nfield b 575 560 < 16384)), (72, byteOf b 72 % 8 == 0),
   (80, decide (byteOf b 80 < 8)), (81, nfield b 767 648 == 0)] ++
  ((List.range 12).map fun i => (96 + 8 * i, nfield b (768 + 64 * i + 20) (768 + 64 * i) == 0)) ++
  [(192, nfield b 1551 1536 != 0), (194, nfield b 1567 1552 == 0), (224, decide (nfield b 1807 1792 ≤ 3840)),
   (226, nfield b 2047 1808 == 0)]

/-- The reservoir section of a block (Table 14.3), with an ownership map. -/
def launchOfBlock (b map : Nat) : Launch :=
  { ctx := nfield b 1551 1536, ways := nfield b 514 512, planes := nfield b 522 520
    brim := if byteOf b 66 = 0 then 32 else byteOf b 66, w := nfield b 559 544 + 1, h := nfield b 575 560 + 1, map := map
    bases := (List.range 4).map fun i => nfield b (768 + 64 * i + 55) (768 + 64 * i)
    brims := (List.range 8).map fun i => nfield b (1024 + 64 * i + 55) (1024 + 64 * i) }

/-- Window `k` of a block (Table 15.5). -/
def blockWin (b k : Nat) : Nat := nfield b (1568 + 16 * k + 15) (1568 + 16 * k)

/-- The ownership map of a block read through its window (R362): its number, or why it cannot be read. -/
def State.readMap (s : State) (b : Nat) : State × Except Bool Nat :=
  let l := launchOfBlock b 0
  let bits := (l.w + 63) / 64 * ((l.h + 63) / 64)
  let n := (bits + 7) / 8
  match s.pieces noCore l.ctx accR (fun _ => false) (linesOf n) (blockWin b (nfield b 642 640) * 2 ^ 64 + nfield b 639 576) 0 n with
  | .ok s p => (s, .ok (leNat (s.pieceBytes p) % 2 ^ bits))
  | .again s => (s, .error true)
  | .fault s _ _ => (s, .error false)

/-- The inline bytes written at the argument pointer, line by line (R394, R440); from a line that does not translate on, none (log
24). With it, whether the write has to be tried again. -/
def State.writeInline (s : State) (ctx va : Nat) (bs : List Byte) : State × Bool :=
  let go := fun n => s.pieces noCore ctx accW (fun _ => false) (linesOf n) va 0 n
  match go bs.length with
  | .ok s p => (s.putPieces p bs, false)
  | .again s => (s, true)
  | .fault s off _ =>
    match go off with
    | .ok s p => (s.putPieces p (bs.take off), false)
    | _ => (s, false)

/-- The reservoir ways that the running launches ask for (R364). -/
def State.waysWanted (s : State) : Nat :=
  (s.dev.launches.map fun e => if e.2.planes = 0 then 0 else e.2.ways).foldl max 0

/-- A launch takes effect (R394): its context's windows, orphan time and lease, its mailboxes at 0 (R397), which may release waiting teams
(R398), its reservoir section in force (R364), and its card at the tail of the device queue. -/
def State.startLaunch (s : State) (b : Nat) (t : Task) (l : Launch) : State :=
  let s := s.modCtx t.ctx fun c =>
    { c with
      win := storeFill c.win (List.range 8) fun k => BitVec.ofNat 16 (blockWin b k)
      orphan := BitVec.ofNat 32 (max 1 (min (nfield b 1727 1696) 1000000)), lease := BitVec.ofNat 32 (nfield b 1759 1728), boxes := [] }
  let s := ((s.dev.teams.filter fun e => e.2.ctx == t.ctx).map Prod.fst).foldl State.checkWaitx s
  let id := s.nextId
  let s := s.modDev fun d => { d with launches := keyPut d.launches id l }
  let s := if s.waysWanted = s.dev.rsvWays then s else s.setRsvWays s.waysWanted
  let s := s.enqueue deviceQueue { t with launch := id }
  (s.after 393 (.teamPlacement 0)).after 393 (.teamPlacement 1)

/-- LAUNCH_MESSAGE (R383, R394): the block is checked in ascending byte order, the map read among its checks (R362); a refused card
completes so, an accepted one is launched. -/
def execLaunchMessage (block : Nat) (s : State) : Out :=
  match keyFind s.dev.inbox block with
  | none => .next s
  | some bytes =>
    let b := leNat (bytes.take 256)
    let c := b % 2 ^ 512
    let k := cardOf c
    let ctx := nfield b 1551 1536
    let mask := if k.scope < 3 then 0 else (s.scopeMask ctx 0 0 k.scope).toNat
    let t : Task :=
      { id := 0, card := k, ctx := ctx, scopeMask := mask, launched := true, privhwm := nfield b 1791 1760 }
    let wins := (List.range 8).map (blockWin b)
    let taken := fun (s : State) => s.modDev fun d => { d with inbox := keyDrop d.inbox block }
    let refuse := fun (s : State) r => Host.Outcome.next ((taken s).refuse t r (some wins))
    let reason := firstFail (cardChecks c (scopeFits mask k.w k.h) true ++ blockChecks b)
    let early := reason.any fun r => decide (r ≤ 72)
    match (if early || nfield b 522 520 == 0 then (s, Except.ok 0) else s.readMap b) with
    | (s, .error true) => .next (s.after 16 (.launchMessage block))
    | (s, .error false) => refuse s 72
    | (s, .ok map) =>
      match reason with
      | some r => refuse s r
      | none =>
        if queueCap deviceQueue ≤ (s.taskQueue deviceQueue).length then .next (s.after 16 (.launchMessage block))
        else
          let n := nfield b 1807 1792
          let data := (bytes.drop 256).take n ++ List.replicate (n - (bytes.length - 256)) 0#8
          match s.writeInline ctx (blockWin b 0 * 2 ^ 64 + k.arg) data with
          | (s, true) => .next (s.after 438 (.launchMessage block))
          | (s, false) => .next ((taken s).startLaunch b t (launchOfBlock b map))

/-! ## The end of a grid (R384) -/

/-- What an access of the device for a completion meets: nothing to do, a second try, a failed translation, an address. -/
inductive Reach where
  | none
  | again
  | fault
  | pa (pa : Nat)
deriving DecidableEq, Repr

/-- The address of a completion record, or of a successor's card, reached for a write in the grid's context (R384). -/
def State.reach (s : State) (ctx win off : Nat) : State × Reach :=
  if off = 0 then (s, .none)
  else
    match s.engineAt noCore ctx (win * 2 ^ 64 + off) accW (fun _ => false) with
    | .ok s pa => (s, .pa pa)
    | .again s => (s, .again)
    | .fault s _ => (s, .fault)

/-- Whether anything still runs under a launch: a grid, or a posted or pending card (log 25). -/
def State.launchRuns (s : State) (l : Nat) : Bool :=
  (s.dev.grids.any fun e => e.2.task.launch == l) || (s.dev.posted.any fun t => t.launch == l) ||
    s.dev.pendingCards.any fun t => t.launch == l

/-- A launch under which nothing runs is over, and its reservoir ways with it (R364). -/
def State.endLaunch (s : State) (l : Nat) : State :=
  if s.launchRuns l || (keyFind s.dev.launches l).isNone then s
  else
    let s := s.modDev fun d => { d with launches := keyDrop d.launches l }
    if s.waysWanted = s.dev.rsvWays then s else s.setRsvWays s.waysWanted

/-- The record of a grid that is over, and the decrement of its successor (R384, Table 15.2). -/
def State.complete (s : State) (id : Nat) (g : Grid) (rec card : Reach) (recVa cardVa : Nat) : State :=
  let t := g.task
  let status := if g.refused.isSome then 1 else if g.failed then 2 else 0
  let reason := g.refused.getD 0
  let s := s.modDev fun d => { d with grids := keyDrop d.grids id }
  let words := leBytes 4 status ++ leBytes 4 reason ++ leBytes 4 g.faultmask.toNat ++ leBytes 4 g.ended.length
  let s := match rec with
    | .pa pa => s.commitBytes pa words
    | .fault => s.say (.completionFault t.ctx t.cardVa recVa)
    | _ => s
  let s := match card with
    | .pa pa => s.lowerCard pa
    | .fault => s.say (.completionFault t.ctx t.cardVa cardVa)
    | _ => s
  let s := if t.launched then s.say (.completion t.ctx t.cardVa status reason g.faultmask g.ended.length) else s
  s.endLaunch t.launch

/-- GRID_END (R384): with every team ended and released, or its card refused, or its context failed and its teams gone, the grid
completes. -/
def execGridEnd (grid : Nat) (s : State) : Out :=
  match keyFind s.dev.grids grid with
  | none => .next s
  | some g =>
    if !(g.refused.isSome || g.failed || decide (g.task.card.teams ≤ g.ended.length)) then .next s
    else if s.dev.teams.any fun e => e.2.grid == grid then .next (s.after 16 (.gridEnd grid))
    else
      let k := g.task.card
      let win := fun n => match g.wins with
        | some l => l.getD n 0
        | none => (storeRead (s.ctx g.task.ctx).win n).toNat
      let w1 := win k.win
      let w0 := win 0
      let (s, rec) := s.reach g.task.ctx w1 k.completion
      let (s, card) := s.reach g.task.ctx w0 k.successor
      if rec = .again ∨ card = .again then .next (s.after 438 (.gridEnd grid))
      else .next (s.complete grid g rec card (w1 * 2 ^ 64 + k.completion) (w0 * 2 ^ 64 + k.successor))

/-! ## Stage rings (R396) -/

/-- The ring and the stage that a value names, within the team's counts; REGBOUND otherwise. -/
def withStage (r : BitVec 7) (s : State) (k : Nat → Nat → Out) : Out :=
  let v := s.readS r
  let ring := field v 3 0
  let stage := field v 6 4
  if s.myTeam.card.rings ≤ ring ∨ s.myTeam.card.stages ≤ stage then
    .next (s.trap { cause := cREGBOUND, infoA := v &&& 0x7F#32 })
  else k (s.myTeam.rbase + ring) stage

/-- The phase of a ring stage of a core. -/
def Core.phase (k : Core) (ring stage : Nat) : BitVec 1 := storeRead k.phases (8 * ring + stage)

/-- RINGARR (R396): the flip takes its place at issue, and P7 is lowered when it is applied. -/
def execRingarr (r : BitVec 7) (s : State) : Out :=
  issue { rd := [.s r 1], path := some 7 } s fun s =>
    withStage r s fun ring stage =>
      let id := s.nextId
      let s := (s.startPath 7 {} [] []).modCore s.g.core fun k =>
        { k with phases := storeWrite k.phases (8 * ring + stage) (~~~(k.phase ring stage)) }
      .next (s.returnSoon 4 id).retire

/-- RINGWAIT (R396): the split waits until the stage's phase is the one it names. -/
def execRingwait (p r : BitVec 7) (s : State) : Out :=
  issue { rd := [.s r 1, .s p 1] } s fun s =>
    withStage r s fun ring stage =>
      let ph := field (s.readS p) 0 0
      atCommitIf (!s.g.region.held.isEmpty) s fun s =>
        if ((s.core s.g.core).phase ring stage).toNat = ph then .next s.retire
        else .next (s.retire.stall (.ring s.g.core ring stage ph))

/-! ## Mailboxes (R397) -/

/-- MBOXSEND (R397): it commits, and sends a signal store; P7 is lowered when the store has been applied. -/
def execMboxsend (m v : BitVec 7) (s : State) : Out :=
  issue { rd := [.s v 1, .s m 1], path := some 7 } s fun s => atCommit s fun s =>
    let x := s.readS v
    let box := field (s.readS m) 3 0
    let die := field (s.readS m) 4 4
    let op := s.nextId
    let s := s.startPath 7 {} [] []
    .next (s.after (if die = dieOf s.g.core then 150 else 400) (.signalStore { ctx := s.g.ctx, core := s.g.core, op := op } die box x)).retire

/-- SIGNAL_STORE (R397, R398): the mailbox takes the value, teams that it satisfies go on, and P7 of the sender is lowered. -/
def execSignalStore (sender : Sender) (die box : Nat) (v : BitVec 32) (s : State) : Out :=
  let s := s.signal sender.ctx die box v
  match s.groups.find? fun g => g.core == sender.core && (g.op sender.op).isSome with
  | some g => .next (s.finishOp sender.core g.slot sender.op {})
  | none => .next s

end Sys2Proof.Machine
end

