-- ==== Sys2Proof/Machine/Preempt.lean ====
section
/-! DEFINITION. Sys2Proof/Machine/Preempt.lean: page walks (R401, R407, R408), the end of a team (R200, R300), the watchdog (R429),
pre-emption (R430 to R433), and the state of peer links (R409). -/

namespace Sys2Proof.Machine

/-! ## Page walks (R401, R407, R408) -/

/-- The splits of a core that wait for a walk of a context's page, made ready with what it returned. -/
def State.walkReply (s : State) (core ctx page acc : Nat) (f : Split → Split) : State :=
  s.mapGroups fun g =>
    if g.core == core && g.ctx == ctx then
      { g with splits := g.splits.map fun q => if q.wait = .walk page acc then f (s.wake q) else q }
    else g

/-- A walk that gave a translation: it is held by the core and by its die, and the splits go on (R407). -/
def State.walkHit (s : State) (core ctx va acc : Nat) (t : Tlb) : State :=
  (s.tlbFill core t).walkReply core ctx (va / 65536) acc fun q => { q with xlat := q.xlat ++ [t] }

/-- A walk that failed: the splits take the fault when they issue (R401, R406). -/
def State.walkMiss (s : State) (core ctx va acc : Nat) (f : XFault) : State :=
  s.walkReply core ctx (va / 65536) acc fun q =>
    { q with walkFault := some { page := va / 65536, acc := acc, cause := f.cause, kind := f.kind, level := f.level } }

/-- One attempt at a walk (R401, R408): a migrating entry is tried again every 250 ns, and after 4 µs it is WALKBUSY. -/
def State.tryWalk (s : State) (core ctx va acc : Nat) (again : Event) : State :=
  let key := (core, ctx, va / 65536)
  match s.level2 core ctx va with
  | some t =>
    match s.tlbFault t acc with
    | some f => s.walkMiss core ctx va acc f
    | none => s.walkHit core ctx va acc t
  | none =>
    match s.walkFor ctx va acc with
    | (s, .leaf t _ _) => (s.endTries key).walkHit core ctx va acc t
    | (s, .fault f) => (s.endTries key).walkMiss core ctx va acc f
    | (s, .waits) => s.after 16 again
    | (s, .migrating level) =>
      match s.tryAgain key with
      | (true, s) => s.after 438 again
      | (false, s) => (s.endTries key).walkMiss core ctx va acc (walkBusy level)

/-- PAGE_WALK (R401). -/
def execPageWalk (core ctx : Nat) (va : BitVec 80) (kind : Nat) (s : State) : Out :=
  .next (s.tryWalk core ctx va.toNat kind (.migratingRetry core ctx va kind))

/-- MIGRATING_RETRY (R401, R408). -/
def execMigratingRetry (core ctx : Nat) (va : BitVec 80) (kind : Nat) (s : State) : Out :=
  .next (s.tryWalk core ctx va.toNat kind (.migratingRetry core ctx va kind))

/-! ## The end of a team (R200, R212, R300, R304, R379) -/

/-- The teams whose scratchpads the rows to come of a command write into, where that is its destination (R279, R300): those of a scatter
by the indices read, and by the others as they stand (R286). -/
def State.copyTeams (s : State) (c : CopyCmd) : List Nat :=
  let b := boxOf c.desc
  if b.dk ≠ 0 then []
  else if c.kind = 2 then
    let c := s.readIdx c b (b.rows - 1)
    ((span c.row (b.rows - c.row)).flatMap fun r => (b.elems 2 r (c.rowIdx b r)).map Prod.snd).filterMap fun a => s.peerOf c.team (a / 2 ^ 20)
  else (s.peerOf c.team (b.dst / 2 ^ 20)).toList

/-- Whether an engine still works for a team: copies that it gave or that write to it, jobs, exchanges, units, MMAs, and what operations of its
ended groups still do. -/
def State.engineBusy (s : State) (t : Nat) : Bool :=
  s.cores.any fun e =>
    (e.2.copies.any fun c => c.2.team == t || c.2.receivers.contains t || (s.copyTeams c.2).contains t) || (e.2.jobs.any fun j => j.2.team == t) ||
      (e.2.brims.any fun b => b.2.team == t) || (e.2.rays.any fun o => o.2.team == t) || (e.2.mmas.any fun m => m.team == t) || e.2.late.any fun l => l.1 == t

/-- Whether a slot or a tile of a team is claimed; and whether one is being zeroed, or has accesses in its order. -/
def State.slotsHeld (s : State) (t : Nat) : Bool :=
  let k := s.core (s.team t).core
  (k.slots.any fun e => e.2.team == t) || k.tiles.any fun e => e.2.team == t
def State.slotsBusy (s : State) (t : Nat) : Bool :=
  let k := s.core (s.team t).core
  (k.slots.any fun e => e.2.team == t && (e.2.zeroing || !e.2.order.isEmpty)) ||
    k.tiles.any fun e => e.2.team == t && (e.2.zeroing || !e.2.order.isEmpty)

/-- The maps of an ending team unmapped one after another (R200): their dirty words are written back; what does not translate is
discarded (log 26), and so are the words of a map with a fault that was not answered by another try (R198). None asks for another try. -/
def State.unmapAll (s : State) (t : Nat) : List (Nat × MapRegion) → Option State
  | [] => some s
  | (m, r) :: l =>
    if r.faulted then (s.modTeam t fun tm => { tm with maps := keyDrop tm.maps m }).unmapAll t l
    else
    match (s.modTeam t fun tm => { tm with maps := keyModify tm.maps m MapRegion.startWb }).writeBack t m
        (r.dirty.length + r.wb.length + 1) with
    | .again _ => none
    | .done s => (s.modTeam t fun tm => { tm with maps := keyDrop tm.maps m }).unmapAll t l
    | .fault s _ _ => (s.modTeam t fun tm => { tm with maps := keyDrop tm.maps m }).unmapAll t l

/-- The resources that a team claimed itself go back to its core: its slots and tiles (R304, R311), its tables (R212), what an abort held of
its groups (R424). -/
def State.releaseTeam (s : State) (t : Nat) : State :=
  let s := s.modCore (s.team t).core fun k =>
    { k with slots := k.slots.filter fun e => e.2.team != t, tiles := k.tiles.filter fun e => e.2.team != t }
  s.modTeam t fun tm => { tm with tables := [], maps := [], latch := [], held := [] }

/-- TEAM_END (R300): a command still suspended is terminated; when the engines have drained, the maps are unmapped and the resources
released. A team that an abort ended does not count as ended: it starts again, and its commands run to completion (R424, R426). -/
def execTeamEnd (team : Nat) (s : State) : Out :=
  match keyFind s.dev.teams team with
  | none => .next s
  | some tm =>
    if tm.released || !tm.ending then .next s
    else
      let aborted := ((keyFind s.dev.clusters tm.cluster).map Cluster.aborted).getD false
      let stuck := if aborted then [] else
        s.cores.flatMap fun e => (e.2.copies.filter fun c => c.2.team == team && c.2.suspended).map fun c => (e.1, c.1)
      let s := stuck.foldl (fun s e => s.stopCopy e.1 e.2 barFault) s
      if s.engineBusy team || s.slotsHeld team then .next (s.after 16 (.teamEnd team))
      else
        let done := fun (s : State) =>
          let s := s.releaseTeam team
          if aborted then
            if ((keyFind s.dev.clusters tm.cluster).map Cluster.lost).getD [] = [] then (s.dropTeam team).placeSoon
            else ((s.endRequest team).modTeam team fun tm => { tm with released := true }).placeSoon
          else s.finishTeam team
        if aborted || (s.ctx tm.ctx).failed then .next (done s)
        else
          match s.unmapAll team tm.maps with
          | none => .next (s.after 438 (.teamEnd team))
          | some s => .next (done s)

/-! ## Traps that no instruction of the group raises (R409, R429, R433) -/

/-- A group raises a trap where it stands: its lowest split is named, at the next instruction it would issue. -/
def State.raiseAt (s : State) (core slot cause sub : Nat) (aborted : Bool) (infoA : Word) (action : Word := defaultAction cause sub) :
    State :=
  match s.group core slot with
  | none => s
  | some g =>
    match g.movers.head?.or g.splits.head? with
    | none => s
    | some q =>
      let (pc, count) := match q.mods.start with
        | some (pc, count, _) => (pc, count)
        | none => (q.pc, q.count)
      let r : TrapRec :=
        { cause := cause, sub := sub, split := q.idx, aborted := aborted, nr := s.nonRestart g.team, pc := pc, ctx := g.ctx
          lanes := q.exec, exec := q.exec, infoA := infoA, action := action, tslot := (s.team g.team).tslot, team := g.team
          clock := BitVec.ofNat 64 s.clock, hwmval := g.sys.privhwm }
      (s.modGroup core slot fun g => g.modSplit q.idx fun q => { q with pc := pc, count := count, mods := {} }).stopWith g (pc, count) r

/-- The group of the lowest group index among groups. -/
def lowestGroup (l : List Group) : Option Group :=
  l.foldl (fun b g => match b with | some x => if g.gid < x.gid then some g else b | none => some g) none

/-! ## The watchdog (R429) -/

/-- WATCHDOG (R429): a team of which no group has issued for sys.wdlimit clk has its lowest live group raise WATCHDOG; otherwise the count
is looked at again when it could be reached. -/
def execWatchdog (team : Nat) (s : State) : Out :=
  match keyFind s.dev.teams team with
  | none => .next s
  | some tm =>
    let n := (s.core tm.core).wdlimit.toNat
    if n = 0 ∨ tm.ending then .next s
    else if s.paused tm then .next (s.after n (.watchdog team))
    else if s.clock < tm.lastIssue + n then .next (s.after (tm.lastIssue + n - s.clock) (.watchdog team))
    else
      match lowestGroup (s.teamGroups team) with
      | none => .next s
      | some g =>
        let s := s.after n (.watchdog team)
        if ((keyFind (s.core g.core).traps g.slot).map TrapRec.cause) = some cWATCHDOG ||
            ((s.core g.core).owed.any fun e => e.1 == g.slot && e.2.1.cause == cWATCHDOG) then .next s
        else
          .next ((s.raiseAt g.core g.slot cWATCHDOG 0 false (BitVec.ofNat 32 tm.tslot)).countFrom team s.clock)

/-- The watchdog's next look at a team set anew, in the place of the one that was to come. -/
def State.rewatch (s : State) (t : Nat) : State :=
  let s := { s with agenda := s.agenda.filter fun a => a.ev != .watchdog t }
  if s.paused (s.team t) then s else s.watch t

/-- The counts of the watchdog stop and go on as cores are halted and contexts suspended (R429): a count that stands still is kept as a
number of clks. A limit that has been written holds from now on. `old` is the state before the step. -/
def State.pauseCounts (old s : State) : State :=
  let changed := s.dev.teams.filter fun e =>
    (keyFind old.dev.teams e.1).isSome && old.paused e.2 != s.paused e.2
  let s := changed.foldl (fun s e => s.modTeam e.1 fun tm => { tm with lastIssue := s.clock - tm.lastIssue }) s
  let again := s.dev.teams.filter fun e =>
    (keyFind old.dev.teams e.1).isSome &&
      ((old.paused e.2 && !s.paused e.2) || (old.core e.2.core).wdlimit != (s.core e.2.core).wdlimit)
  again.foldl (fun s e => s.rewatch e.1) s

/-! ## Pre-emption (R430 to R433) -/

/-- The team in a team slot of a core. -/
def State.teamAt (s : State) (core tslot : Nat) : Option (Nat × Team) :=
  s.dev.teams.find? fun e => e.2.core == core && e.2.tslot == tslot && !e.2.released

/-- The save block of a team (R431): 2 MiB of the save area of its core, named by its team slot. -/
def State.saveBlock (s : State) (t : Nat) : Nat :=
  let tm := s.team t
  let k := s.core tm.core
  k.pesave1.toNat * 2 ^ 32 + k.pesave0.toNat + 2 ^ 21 * tm.tslot

/-- Pre-emption of one team slot is requested (R430): with a team there, its whole cluster is asked to stop. -/
def State.requestPreempt (s : State) (core tslot : Nat) : State :=
  let none_ := s.modCore core fun k => { k with preempt := k.preempt &&& ~~~(1#8 <<< tslot) }
  match s.teamAt core tslot with
  | none => none_
  | some (_, tm) =>
    match keyFind s.dev.clusters tm.cluster with
    | none => none_
    | some c =>
      if c.aborted || tm.ending then none_
      else if c.preempt.isSome then s
      else
        let s := s.modCluster tm.cluster fun c => { c with preempt := some (s.clock, c.teams.map s.saveBlock) }
        (s.after 16 (.preemptSave core tslot)).after (s.core core).preemptLimit.toNat (.preemptLimitExpiry core tslot)

/-- PREEMPT_REQUEST (R430): bits of sys.preempt are set: by an SWR, which has set them already, or by the control node, whose messages set
them in host-assisted mode alone (R449). -/
def execPreemptRequest (core : Nat) (mask : BitVec 8) (s : State) : Out :=
  let mask := if s.dev.hmode.getLsbD 7 then mask else mask &&& (s.core core).preempt
  let s := s.modCore core fun k => { k with preempt := k.preempt ||| mask }
  .next (((List.range 8).filter mask.getLsbD).foldl (fun s t => s.requestPreempt core t) s)

/-- A group's registers as the save keeps them (R33, R38): the granules that its live masks name, w0 to w7 under WL. -/
def Group.saved (g : Group) : Group :=
  let live := g.movers.foldl (fun m q => m ||| q.liveMask) 0#30
  { g with
    v := g.v.filter fun e => if e.1 / 32 < 224 then live.getLsbD (e.1 / 256) else live.getLsbD 28
    splits := g.splits.map fun q => { q with y0 := [], y1 := [] } }

/-- What the save of a team holds (R431, R320): the queues only when a live mask says so (R38). -/
def State.saveOf (s : State) (t block : Nat) : Saved :=
  let tm := s.team t
  let k := s.core tm.core
  let gs := s.teamGroups t
  let ql := gs.any fun g => g.movers.any fun q => q.liveMask.getLsbD 29
  { team := tm, groups := gs.map Group.saved, spad := storeCut k.spad tm.spbase tm.spsize
    queues := if ql then (k.queues.filter fun e => decide (tm.qbase ≤ e.1) && decide (e.1 < tm.qbase + tm.card.queues)).map
        fun e => (e.1 - tm.qbase, e.2) else []
    phases := storeCut k.phases (8 * tm.rbase) (8 * tm.card.rings)
    slots := k.slots.filter fun e => e.2.team == t, tiles := k.tiles.filter fun e => e.2.team == t, block := block }

/-- The groups of a team taken from their core. -/
def State.takeGroups (s : State) (t : Nat) : State :=
  let mine := fun (g : Group) => g.team == t && g.isThread
  let s : State := { s with others := s.others.filter fun g => !mine g }
  if s.g.live && mine s.g then { s with g := { s.g with live := false }, p := { s.p with live := false } } else s

/-- The bytes of a save block after a save: the block's layout is internal to the device, so each byte is free (log 27). -/
def State.saveBytes (s : State) (block : Nat) : State :=
  let n := 2 ^ 21
  let s : State := { s with mem := storeFill s.mem (span block n) fun a => Config.freeByte (2 ^ 21 * s.nextId + (a - block)) }
  (List.range 32).foldl (fun s i => s.markWritten (block + 65536 * i)) { s with nextId := s.nextId + 1 }

/-- A later save to a block replaces what an earlier one left there (R431). -/
def replaceSaved (v : Saved) (t : Task) : Task :=
  { t with saved := t.saved.map fun w => if w.block = v.block then { v with team := { v.team with pos := w.team.pos } } else w }

/-- Whether an operation is an FSEND in backoff: its core's send queue holds it, and goes on while the team is saved (R273). -/
def State.inBackoff (s : State) (op : Nat) : Bool :=
  s.dev.msgs.any fun e => e.2.place == .backoff && ((e.2.sender.map fun x => x.2.2 == op) == some true)

/-- PREEMPT_SAVE (R431): when every group of the cluster has stopped and what it gave the engines has drained, the teams are saved,
their resources released, and a resume entry stands at the head of its class in the die queue. -/
def execPreemptSave (core tslot : Nat) (s : State) : Out :=
  match s.teamAt core tslot with
  | none => .next s
  | some (t, tm) =>
    match keyFind s.dev.clusters tm.cluster, keyFind s.dev.grids tm.grid with
    | some c, some gr =>
      match c.preempt with
      | none => .next s
      | some (_, blocks) =>
        let gs := s.clusterGroups t
        let ready := !gs.isEmpty && (gs.all fun g => g.atSafePoint && !g.trapped && (g.ops.all fun o => o.done || s.inBackoff o.id) && g.splits.all fun q => q.pushing.isEmpty) &&
          !(c.teams.any fun u => s.engineBusy u || s.slotsBusy u)
        if !ready then .next (s.after 16 (.preemptSave core tslot))
        else
          let mine := (c.teams.zip blocks).filter fun e => (keyFind s.dev.teams e.1).isSome && !(s.team e.1).ending
          let saves := mine.map fun e => s.saveOf e.1 e.2
          let s := mine.foldl (fun s e => (((s.saveBytes e.2).takeGroups e.1).releaseTeam e.1).dropTeam e.1) s
          let s := s.modDev fun d =>
            { d with queues := d.queues.map fun q => (q.1, q.2.map fun e => saves.foldl (fun e v => replaceSaved v e) e) }
          let entry := { gr.task with id := s.nextId, grid := tm.grid, nr := c.nr, again := [], saved := saves }
          .next ({ s with nextId := s.nextId + 1 }.putHead (dieOf core) entry)
    | _, _ => .next s

/-- PREEMPT_LIMIT_EXPIRY (R433): a cluster that has not stopped in time is aborted and requeued; a non-restartable one goes on, and its
lowest live group raises PREEMPT. -/
def execPreemptLimitExpiry (core tslot : Nat) (s : State) : Out :=
  match s.teamAt core tslot with
  | none => .next s
  | some (t, tm) =>
    match (keyFind s.dev.clusters tm.cluster).bind Cluster.preempt with
    | none => .next s
    | some (since, _) =>
      let gs := s.clusterGroups t
      if s.clock < since + (s.core core).preemptLimit.toNat then
        .next (s.after (since + (s.core core).preemptLimit.toNat - s.clock) (.preemptLimitExpiry core tslot))
      else if gs.all Group.atSafePoint then .next s
      else if !s.nonRestart t then .next ((s.abortTask t).requeue t)
      else
        let s := ((s.clusterOf t).map Cluster.teams).getD [] |>.foldl State.endRequest s
        let s := s.modCluster tm.cluster fun c => { c with preempt := none }
        let s := s.releaseWait (fun h => gs.any fun g => g.at h.core h.slot) .preempted
        match (((s.clusterOf t).map Cluster.teams).getD []).findSome? fun u => lowestGroup (s.teamGroups u) with
        | none => .next s
        | some g => .next (s.raiseAt g.core g.slot cPREEMPT 0 false (BitVec.ofNat 32 (s.team g.team).tslot))

/-! ## Peer links (R409) -/

/-- Whether a region holds a store to the peer of a port. -/
def Region.storesTo (r : Region) (port : Nat) : Bool := r.stores.any fun e => e.2.peer && nfield (128 * e.1) 54 52 == port

/-- A group whose open region holds a store to a peer that has gone: its task is aborted, or it stops with NONRESTART (R409, R425). Where
no task is concerned, the lines are marked, so that the commit meets the fault (R411). -/
def State.peerAbort (s : State) (port core slot : Nat) : State :=
  match s.group core slot with
  | none => s
  | some g =>
    if !g.region.storesTo port then s
    else if !g.isThread then
      s.modGroup core slot fun g => { g with region := { g.region with stores := g.region.stores.map fun e =>
        (e.1, if e.2.peer && nfield (128 * e.1) 54 52 == port then { e.2 with marked := true } else e.2) } }
    else if s.nonRestart g.team then s.raiseAt core slot cNONRESTART 4 false (BitVec.ofNat 32 port)
    else (s.raiseAt core slot cPEERDOWN 4 true (BitVec.ofNat 32 port)).abortTask g.team

/-- Operands that cross a link that goes down are lost; the sender's P5 is lowered (R274). -/
def State.loseOperands (s : State) (port : Nat) : State :=
  (s.dev.msgs.filter fun e => e.2.place == .flight && nodePort e.2.node == some port).foldl (fun s e => (s.dropMsg e.1).acceptMsg e.2) s

/-- PEER_LINK_DOWN (R409, R442): the translations that name the peer go, device-wide; tasks with buffered stores to it are aborted, loads in
flight to it trap with PEERDOWN; operands that cross it are lost; the port's bindings are cleared. -/
def execPeerLinkDown (port : Nat) (s : State) : Out :=
  let s := (s.removeTlb fun t => t.ofPeer port).loseOperands port
  let s := s.modDev fun d =>
    { d with peerDown := if d.peerDown.contains port then d.peerDown else d.peerDown ++ [port]
             bindings := d.bindings.filter fun e => e.2.2.1 != port }
  let who := s.groups.map fun g => (g.core, g.slot)
  let s := who.foldl (fun s e => s.peerAbort port e.1 e.2) s
  .next (who.foldl (fun s e => s.failOps (LaneAt.ofPeer port) cPEERDOWN (BitVec.ofNat 32 port) e.1 e.2) s)

/-- PEER_LINK_UP (R409). -/
def execPeerLinkUp (port : Nat) (s : State) : Out :=
  .next (s.modDev fun d => { d with peerDown := d.peerDown.filter fun p => p != port })

end Sys2Proof.Machine
end

