-- ==== Sys2Proof/Machine/Commit.lean ====
section
/-! DEFINITION. Sys2Proof/Machine/Commit.lean: the commit of a region (R221 to R226, R237, R389, R411), the completion of asynchronous
operations (R39 to R41), and the events that set splits and engines going again. -/

namespace Sys2Proof.Machine

/-! ## What a commit waits for (R221, R225, R229, R230) -/

/-- Whether an operation is an engine command, given before, whose engine has lines of global memory still to read or write: every
command of the units, and a copy with a side there (R229). -/
def State.engineToCome (s : State) (g : Group) (o : Async) : Bool :=
  !o.done && !o.inRegion && o.command.isSome &&
    match o.path with
    | some 2 => (s.core g.core).copies.any fun e =>
        e.2.slot == g.slot && e.2.op == o.id && ((boxOf e.2.desc).sk == 0 || (boxOf e.2.desc).dk == 3)
    | some 3 => true
    | some 4 => true
    | some 7 => true
    | _ => false

/-- Whether the commit under way is that of an atomic, whose own commit comes behind it (R229, R238). -/
def Group.atomicBehind (g : Group) : Bool :=
  (g.region.committing.bind fun i => findSplit i g.splits).any Split.isAtomic

/-- Whether a group's commit has to wait: for a load or an atomic of its own, with something to publish or to validate, or an atomic behind it,
for its engine commands (R229), for a line that an engine owns, for a line that another group has reserved. -/
def State.commitWaits (s : State) (g : Group) : Bool :=
  (g.ops.any fun o => !o.done && (o.path == some 0 || o.atomic.isSome)) ||
    ((!(g.region.stores.isEmpty && g.region.reads.isEmpty) || g.atomicBehind) && g.ops.any (s.engineToCome g)) ||
    (g.region.reads.any fun e => s.ownedLine e.1) ||
    g.region.stores.any fun e => s.ownedLine e.1 || s.reservedElse g.core g.slot e.1

/-- What the second translation of a region's marked lines comes to (R411). -/
inductive Recheck where
  | ok (s : State)
  | moved (s : State)
  | again (s : State)
  | fault (s : State) (acc va : Nat) (f : XFault)

/-- The marked lines of a region that are translated again: the access, the physical line, its virtual address and context (R411). -/
def Region.marked (r : Region) : List (Nat × Nat × Nat × Nat) :=
  ((r.stores.filter fun e => e.2.marked).map fun e => (accW, e.1, 128 * e.2.va, e.2.ctx)) ++
    (r.reads.filter fun e => e.2.marked).map fun e => (accR, e.1, 128 * e.2.va, e.2.ctx)

/-- The lines of what a commit point's checks found, as those of a region are named, where a translation of them has been removed (R411). -/
def Split.staleLines (q : Split) (ctx : Nat) : List (Nat × Nat × Nat × Nat) :=
  if q.stale then
    match q.kept with
    | some (.places l) => l.filterMap fun e => match e.place with | .pa pa _ => some (accRW, lineOf pa, e.va, ctx) | .map _ _ => none
    | some (.card pa va _) => [(accR, lineOf pa, va, ctx)]
    | _ => []
  else []

/-- A poisoned line that a region's commit would write or validate (R428): the access, and its virtual address. -/
def State.poisonedLine (s : State) (r : Region) : Option (Nat × Nat) :=
  let hit := fun (k : Keyed LineBytes) => (k.find? fun e => s.dev.poisoned.contains e.1).map fun (e : Nat × LineBytes) => 128 * e.2.va
  ((hit r.stores).map fun va => (accW, va)).or ((hit r.reads).map fun va => (accR, va))

/-- Those lines translated, in order (R411): an entry that is migrating is tried again for 4 µs (R408). -/
def State.recheck (s : State) (core : Nat) : List (Nat × Nat × Nat × Nat) → Recheck
  | [] => .ok s
  | (acc, line, va, ctx) :: r =>
    let key := (core, ctx, va / 65536)
    match s.engineVa core ctx va acc with
    | (s, .leaf t _ _) => if lineOf (t.apply va) = line then (s.endTries key).recheck core r else .moved (s.endTries key)
    | (s, .fault f) => .fault (s.endTries key) acc va f
    | (s, .waits) => .again s
    | (s, .migrating level) =>
      match s.tryAgain key with
      | (true, s) => .again s
      | (false, s) => .fault (s.endTries key) acc va (walkBusy level)

/-! ## Success: publication (R221, R226, R237, R389) -/

/-- A line that a commit forward-holds for a consumer core, where its slice holds it; when the forward-held lines of its set fill every
free way, the oldest is written back (R237). -/
def State.forwardHold (s : State) (f : Nat × Nat) : State :=
  if !s.holdsLine f.1 then s
  else
  let s := s.modDev fun d => { d with forwards := d.forwards.filter (fun e => e.1 != f.1) ++ [f] }
  let mine := s.dev.forwards.filter fun e => sameSet e.1 f.1
  if s.freeWays f.1 ≤ mine.length then
    match mine with
    | o :: _ => s.evictLine o.1
    | [] => s
  else s

/-- A forward-held line that its consumer has read is dropped from its slice: its bytes are then those of DRAM (R237). -/
def State.dropForward (s : State) (core line : Nat) : State :=
  if s.dev.forwards.contains (line, core) then (s.loseData line).evictLine line else s

/-- The held commands of a region go to their engines, in issue order (R226). -/
def State.releaseCommands (s : State) (core : Nat) (l : List Held) : State :=
  let s := s.modCore core fun k =>
    { k with copies := k.copies.map fun e =>
        (e.1, if l.any fun h => h.agent == 0 && h.id == e.1 then { e.2 with held := false } else e.2) }
  let s := l.foldl (fun s h =>
    match h.agent with
    | 1 => s.startRay core h.id
    | 2 => s.startReuse core h.id
    | 3 => s.startBrim core h.id
    | _ => s) s
  (l.filter fun h => h.agent == 0).foldl (fun s h => s.releaseCopy core h.id) s

/-- THE COMMIT SUCCEEDS (R221): the write set is published at one point, the counts of decremented cards fall, forwarded lines are held or
dropped, P1 is lowered, held commands are released, and the next region begins with `next`. -/
def State.commitRegion (s : State) (g : Group) (next : Region) : State :=
  let r := g.region
  let s := r.stores.foldl (fun s e => s.publish (r.forwards.any fun f => f.1 == e.1) e) s
  let s := r.depdecs.foldl State.lowerCard s
  let s := r.drops.foldl (fun s l => s.dropForward g.core l) s
  let s := r.forwards.foldl State.forwardHold s
  let s := s.modDev fun d => { d with reservations := d.reservations.filter fun e => !(e.2.1 == g.core && e.2.2.1 == g.slot) }
  let s := s.modGroup g.core g.slot fun g =>
    { g with
      region := next
      ops := creditOps [] (g.ops.map fun o => { o with inRegion := false, done := o.done || (o.inRegion && o.path == some 1) }) }
  s.releaseCommands g.core r.held

/-! ## Failure (R222, R225, R226) -/

/-- Whether a group of a core runs in reserved mode (R225). -/
def State.reservedBusy (s : State) (core : Nat) : Bool :=
  match (s.core core).reserved with
  | none => false
  | some slot => match s.group core slot with
    | some g => g.region.reserved
    | none => false

/-- What a group whose splits no longer wait at the latch holds there is given up (R136, R222). -/
def State.dropLatch (s : State) (g : Group) : State :=
  s.modTeam g.team fun tm => { tm with latch := tm.latch.filter fun h =>
    h.slot != g.slot || ((s.group g.core g.slot).bind fun g => findSplit h.split g.splits).any fun q => q.wait == .latch }

/-- THE COMMIT FAILS (R222): nothing is published; the held commands are discarded; the group issues again from its snapshot. After 16
failures the next execution reserves the lines it reads (R225). -/
def State.failCommit (s : State) (g : Group) : State :=
  let s := (((s.discardHeld g).dropTurns g.core g.splits).modGroup g.core g.slot failRegion).dropLatch g
  if 16 ≤ g.region.fails + 1 && !g.region.reserved && !s.reservedBusy g.core then
    (s.modGroup g.core g.slot fun g => { g with region := { g.region with reserved := true } }).modCore g.core fun k =>
      { k with reserved := some g.slot }
  else s

/-- The trap of a line that does not translate at a commit (R411, R424): a store to a peer whose link is down aborts a restartable task as
a page that is not present does (R409). -/
def State.commitTrap (s : State) (f : XFault) (acc : Nat) (va : VAddr) : State :=
  if f.cause = cPEERDOWN && acc == accW && !s.isSup then
    let t := xTrap f acc va none s.g.ctx
    if s.nonRestart s.g.team then s.trap { t with cause := cNONRESTART }
    else (s.trap { t with aborted := true }).abortTask s.g.team
  else s.pageTrap f acc va none

/-- The commit of a group's split meets a fault: its instruction traps, and its region stays uncommitted (R219). -/
def State.commitFault (s : State) (g : Group) (idx : Nat) (f : XFault) (acc va : Nat) : State :=
  let s := (s.dropPosting g).focus g.core g.slot idx
  let s := { s with cur := g.region.atIssue, g := { s.g with region := { s.g.region with committing := none } } }
  s.commitTrap f acc (BitVec.ofNat 80 va)

/-- REGION_COMMIT and CAPACITY_COMMIT (R221, R224, R411): the commit that was begun waits, translates its marked lines, validates its
read set, and succeeds or fails; a poisoned line among them is MEMERR (R428). -/
def regionCommit (capacity : Bool) (core slot : Nat) (s : State) : Out :=
  let again : Event := if capacity then .capacityCommit core slot else .regionCommit core slot
  match s.group core slot with
  | none => .next s
  | some g =>
    match g.region.committing with
    | none => .next s
    | some idx =>
      if g.region.acting then .next s
      else if s.commitWaits g then .next (s.after 16 again)
      else
        match s.poisonedLine g.region with
        | some (acc, va) => .next (s.commitFault g idx { cause := cMEMERR, kind := 0, level := 0 } acc va)
        | none =>
        match s.recheck core (g.region.marked ++ ((findSplit idx g.splits).map fun q => q.staleLines g.ctx).getD []) with
        | .again s => .next (s.after 438 again)
        | .moved s => .next (s.failCommit g)
        | .fault s acc va f => .next (s.commitFault g idx f acc va)
        | .ok s =>
          let s := s.modSplit core slot idx fun q => if q.stale then { q with stale := false } else q
          if g.region.reads.all (validLine s) then
            if capacity then
              .next ((s.commitRegion g {}).modCluster (s.team g.team).cluster fun c => { c with nr := true })
            else .next (s.commitRegion g { acting := true, committing := some idx, atIssue := g.region.atIssue })
          else .next (s.failCommit g)

/-- REGION_COMMIT (R221). -/
def execRegionCommit (core slot : Nat) (s : State) : Out := regionCommit false core slot s

/-- CAPACITY_COMMIT (R224): its success marks the task non-restartable. -/
def execCapacityCommit (core slot : Nat) (s : State) : Out := regionCommit true core slot s

/-! ## Completion (R39 to R41, R47, R49) -/

/-- An operation whose data are there: its registers are written and it completes (R41); one that writes queues does so when they have accepted
its entries, at the end of this clk or later (R47, R49, State.acceptPushes). -/
def State.land (s : State) (core slot : Nat) (o : Async) (w : Writes) : State :=
  if w.q.isEmpty then s.finishOp core slot o.id w
  else s.modGroup core slot fun g => g.modOp o.id fun o => { o with returned := some s.clock, writes := w }

/-- The carding operations of a core that are still there, in their order (R210). -/
def State.cardingOrder (s : State) (core : Nat) : List (Nat × Nat) :=
  (s.core core).cardOrder.filter fun e => match s.group core e.1 with
    | some g => (g.op e.2).isSome
    | none => false

/-- Whether a carding operation stands behind an earlier one of its core (R210). -/
def State.cardingBehind (s : State) (core slot op : Nat) : Bool :=
  let l := s.cardingOrder core
  l.contains (slot, op) && l.head? != some (slot, op)

/-- A carding operation leaves the order. -/
def State.cardingOut (s : State) (core slot op : Nat) : State :=
  if (s.core core).cardOrder.isEmpty then s
  else s.modCore core fun k => { k with cardOrder := k.cardOrder.filter fun e => e != (slot, op) }

/-- The completion of a map's write-back (R199, R200): it is tried again on a migrating entry, and after the record of its fault has been
answered. -/
def State.finishWriteBack (s : State) (core slot : Nat) (o : Async) (m : Nat) (unmap : Bool) (split : Nat) (pc : Word) : State :=
  let again : Event := .flagOperationComplete core slot o.id
  match s.group core slot with
  | none => s
  | some g =>
    if g.trapped then s.after 16 again
    else
      let n := ((keyFind (s.team g.team).maps m).map fun r => r.wb.length).getD 0
      match s.writeBack g.team m (n + 1) with
      | .again s => s.after 438 again
      | .fault s va f => (s.lateTrap core slot split pc f accW va).after 16 again
      | .done s => (if unmap then s.disarm g.team m else s).finishOp core slot o.id o.writes

/-- What an operation still does whose group has ended (R304, R310, R314): everything but its register writes. A write-back that meets a fault
discards what does not translate (log 26); with a fault that was not answered by another try, and in a failed context, it writes nothing more
(R198, R427). -/
def State.lateAct (s : State) (core slot team : Nat) (o : Async) : State :=
  let again : Event := .flagOperationComplete core slot o.id
  let finish := fun (s : State) => s.modCore core fun k => { k with late := k.late.filter fun e => e.2.id != o.id }
  match o.act with
  | some (.serve m) => finish (s.modTeam team fun tm => { tm with maps := keyModify tm.maps m fun r => { r with serving := !r.closing } })
  | some (.writeBack m unmap _ _) =>
    let out := fun (s : State) => finish (if unmap then s.disarm team m else s)
    if (s.ctx (s.team team).ctx).failed || (keyFind (s.team team).maps m).any MapRegion.faulted then out s
    else
      match s.writeBack team m (((keyFind (s.team team).maps m).map fun r => r.wb.length).getD 0 + 1) with
      | .again s => s.after 438 again
      | .fault s _ _ => out s
      | .done s => out s
  | some (.claim t) => finish (s.modTable team t fun c => { c with claimed := true })
  | some act =>
    match act.order with
    | none => finish s
    | some n => if s.atTurn core n o.id then finish ((s.actAt core n o.id act).1.tokenDone core n o.id) else s.after 2 again
  | none => finish s

/-- FLAG_OPERATION_COMPLETE (R39, R41): what the operation does at its completion takes its place in the order it belongs to, and its
writes land. -/
def execFlagOperationComplete (core slot op : Nat) (s : State) : Out :=
  let again : Event := .flagOperationComplete core slot op
  match (s.group core slot).bind fun g => (g.op op).map fun o => (g, o) with
  | none =>
    match (s.core core).late.find? fun e => e.2.id == op with
    | some (team, o) => .next (s.lateAct core slot team o)
    | none => .next s
  | some (g, o) =>
    if o.returned.isSome then .next s
    else if s.cardingBehind core slot op then .next (s.after 1 again)
    else
      match o.act with
      | some (.serve m) =>
        let s := s.modTeam g.team fun tm => { tm with maps := keyModify tm.maps m fun r => { r with serving := !r.closing } }
        .next (s.land core slot o o.writes)
      | some (.writeBack m unmap split pc) => .next (s.finishWriteBack core slot o m unmap split pc)
      | some (.claim t) =>
        let s := s.modTable g.team t fun c => { c with claimed := true }
        .next ((s.cardingOut core slot op).land core slot o o.writes)
      | some act =>
        match act.order with
        | some n =>
          if s.atTurn core n op then
            let (s, w) := s.actAt core n op act
            .next ((s.tokenDone core n op).land core slot o w)
          else .next (s.after 2 again)
        | none => .next (s.land core slot o o.writes)
      | none => .next ((s.cardingOut core slot op).land core slot o o.writes)

/-- GLOBAL_LOAD_RETURN (R40, R41): the data of a load have come back. -/
def execGlobalLoadReturn (core slot op : Nat) (s : State) : Out :=
  match (s.group core slot).bind fun g => g.op op with
  | none => .next s
  | some o => .next (if o.returned.isSome then s else s.land core slot o o.writes)

/-! ## Splits (R115, R132) and engines (R298) set going -/

/-- SPLIT_PROMOTION (R115). -/
def execSplitPromotion (core slot split : Nat) (s : State) : Out :=
  .next (s.modSplit core slot split fun q => { q with promoted := true })

/-- SLEEP_EXPIRY (R132): the split is ready again. -/
def execSleepExpiry (core slot split : Nat) (s : State) : Out :=
  .next (s.modSplit core slot split fun q =>
    match q.wait with
    | .sleep t => if t ≤ s.clock then s.wake q else q
    | _ => q)

/-- COPY_RESTART (R298): a suspended command goes on at its cursor row; the carding instruction that a fault holds is made again
(R482). -/
def execCopyRestart (core cmd : Nat) (s : State) : Out :=
  if (keyFind (s.core core).copies cmd).isSome then .next (s.goOnCopy core cmd) else .next (s.cardAnswer core cmd false)

/-- COPY_RESUME (R298, R482): the answer to a suspended command: it goes on, or it is terminated. -/
def execCopyResume (core cmd : Nat) (terminate : Bool) (s : State) : Out :=
  if (keyFind (s.core core).copies cmd).isSome then
    .next (if terminate then s.stopCopy core cmd barFault else s.goOnCopy core cmd)
  else .next (s.cardAnswer core cmd terminate)

end Sys2Proof.Machine
end

