-- ==== Sys2Proof/Machine/Package.lean ====
section
/-! DEFINITION. Sys2Proof/Machine/Package.lean: boot and attestation (R443 to R445), what the control node and peer modules ask for
(R440, R442), slice registers (R446), lost flits (R428), power and heat (R22, R447), and housekeeping (R448, R449). -/

namespace Sys2Proof.Machine

/-! ## SHA-256 (R444, FIPS 180-4; log 29) -/

/-- The round constants. -/
def shaK : List Word :=
  [0x428A2F98#32, 0x71374491#32, 0xB5C0FBCF#32, 0xE9B5DBA5#32, 0x3956C25B#32, 0x59F111F1#32, 0x923F82A4#32, 0xAB1C5ED5#32] ++
  [0xD807AA98#32, 0x12835B01#32, 0x243185BE#32, 0x550C7DC3#32, 0x72BE5D74#32, 0x80DEB1FE#32, 0x9BDC06A7#32, 0xC19BF174#32] ++
  [0xE49B69C1#32, 0xEFBE4786#32, 0x0FC19DC6#32, 0x240CA1CC#32, 0x2DE92C6F#32, 0x4A7484AA#32, 0x5CB0A9DC#32, 0x76F988DA#32] ++
  [0x983E5152#32, 0xA831C66D#32, 0xB00327C8#32, 0xBF597FC7#32, 0xC6E00BF3#32, 0xD5A79147#32, 0x06CA6351#32, 0x14292967#32] ++
  [0x27B70A85#32, 0x2E1B2138#32, 0x4D2C6DFC#32, 0x53380D13#32, 0x650A7354#32, 0x766A0ABB#32, 0x81C2C92E#32, 0x92722C85#32] ++
  [0xA2BFE8A1#32, 0xA81A664B#32, 0xC24B8B70#32, 0xC76C51A3#32, 0xD192E819#32, 0xD6990624#32, 0xF40E3585#32, 0x106AA070#32] ++
  [0x19A4C116#32, 0x1E376C08#32, 0x2748774C#32, 0x34B0BCB5#32, 0x391C0CB3#32, 0x4ED8AA4A#32, 0x5B9CCA4F#32, 0x682E6FF3#32] ++
  [0x748F82EE#32, 0x78A5636F#32, 0x84C87814#32, 0x8CC70208#32, 0x90BEFFFA#32, 0xA4506CEB#32, 0xBEF9A3F7#32, 0xC67178F2#32]

/-- The initial hash value. -/
def shaH0 : List Word :=
  [0x6A09E667#32, 0xBB67AE85#32, 0x3C6EF372#32, 0xA54FF53A#32, 0x510E527F#32, 0x9B05688C#32, 0x1F83D9AB#32, 0x5BE0CD19#32]

def rotr (x : Word) (n : Nat) : Word := x.rotateRight n

/-- The message schedule extended by `n` words. -/
def shaSchedule : Nat → List Word → List Word
  | 0, w => w
  | n + 1, w =>
    let at_ := fun k => w.getD (w.length - k) 0#32
    let x := at_ 15
    let y := at_ 2
    let s0 := rotr x 7 ^^^ rotr x 18 ^^^ (x >>> 3)
    let s1 := rotr y 17 ^^^ rotr y 19 ^^^ (y >>> 10)
    shaSchedule n (w ++ [at_ 16 + s0 + at_ 7 + s1])

/-- One round on the eight working variables. -/
def shaRound (v : List Word) (kw : Word × Word) : List Word :=
  match v with
  | [a, b, c, d, e, f, g, h] =>
    let t1 := h + (rotr e 6 ^^^ rotr e 11 ^^^ rotr e 25) + ((e &&& f) ^^^ (~~~e &&& g)) + kw.1 + kw.2
    let t2 := (rotr a 2 ^^^ rotr a 13 ^^^ rotr a 22) + ((a &&& b) ^^^ (a &&& c) ^^^ (b &&& c))
    [t1 + t2, a, b, c, d + t1, e, f, g]
  | l => l

/-- One block of 64 bytes taken into the hash value. -/
def shaBlock (h : List Word) (m : List Byte) : List Word :=
  let w := (List.range 16).map fun i =>
    (m.getD (4 * i) 0#8) ++ (m.getD (4 * i + 1) 0#8) ++ (m.getD (4 * i + 2) 0#8) ++ (m.getD (4 * i + 3) 0#8)
  List.zipWith (· + ·) h ((shaK.zip (shaSchedule 48 w)).foldl shaRound h)

/-- The blocks of a message, `n` of them. -/
def shaBlocks : Nat → List Word → List Byte → List Word
  | 0, h, _ => h
  | n + 1, h, m => shaBlocks n (shaBlock h (m.take 64)) (m.drop 64)

/-- The bytes of a number, the most significant first. -/
def beBytes (n v : Nat) : List Byte := (leBytes n v).reverse

/-- SHA-256 of a byte string. -/
def sha256 (m : List Byte) : BitVec 256 :=
  let n := (m.length + 8) / 64 + 1
  let p := m ++ [0x80#8] ++ List.replicate (64 * n - 9 - m.length) 0#8 ++ beBytes 8 (8 * m.length)
  BitVec.ofNat 256 ((shaBlocks n shaH0 p).foldl (fun a w => 2 ^ 32 * a + w.toNat) 0)

/-! ## Boot (R443, R444) -/

/-- The boot stages by number, in order: the security processor, the system controller, the command processors, the supervisor (R443). -/
def bootStages : List Nat := [1, 2, 3, 4]

/-- A register with a stage's image measured into it (R444). -/
def measure (meas : BitVec 256) (image : List Byte) : BitVec 256 := sha256 (beBytes 32 meas.toNat ++ beBytes 32 (sha256 image).toNat)

/-- The measurement register of a stage. -/
def State.measurement (s : State) (n : Nat) : BitVec 256 := storeRead s.dev.measured n

/-- The checks of a stage (R443): the key's digest is that of the fuses, the image's signature verifies under it, and its version is not
below the fused minimum. -/
def bootAccepts (n : Nat) : Bool :=
  sha256 (Config.bootKey n) == Config.fusedDigest && Config.slhDsaVerify (Config.bootKey n) (Config.bootImage n) (Config.bootSignature n) &&
    decide (Config.fusedMinimum n ≤ Config.bootVersion n)

/-- The stages run in order: each is checked and measured before it runs; the first that fails its checks stops the boot with its number
(R443, R444). -/
def runStages : List Nat → State → State
  | [], s =>
    let (base, tvec, pa) := Config.supervisorHeader
    { s with
      mem := putBytes s.mem pa (Config.bootImage 4)
      cores := (List.range 320).map fun c => (c, { Core.reset with tvec := BitVec.ofNat 32 tvec })
      dev := { s.dev with supBase := base } }
  | n :: r, s =>
    if bootAccepts n then
      runStages r (s.modDev fun d => { d with measured := storeWrite d.measured n (measure (s.measurement n) (Config.bootImage n)) })
    else { s.say (.bootFail n) with dev := { (s.say (.bootFail n)).dev with stopped := true } }

/-- RESET (R443): everything is as reset leaves it, and the boot stages run. -/
def execReset (s : State) : Out := .next (runStages bootStages { State.reset with agenda := [], sched := s.sched })

/-- ATTESTATION_REQUEST (R445). -/
def execAttestationRequest (nonce : BitVec 256) (s : State) : Out :=
  let meas := bootStages.map s.measurement
  let versions := bootStages.map Config.bootVersion
  .next (s.say (.attestation nonce meas versions Config.identityKey (Config.signature nonce meas versions Config.identityKey)))

/-! ## Slice registers (R446) -/

/-- SL_PIN (R446): what a store to the pin register does at its commit. -/
def execSlPin (line : Nat) (s : State) : Out := .next (s.pinLine line)

/-- SL_UNPIN (R446): likewise. -/
def execSlUnpin (line : Nat) (s : State) : Out := .next (s.unpinLine line)

/-- SL_BYPASS_CLEAR (R446, Table 17.2): bits written as 1 are cleared. -/
def execSlBypassClear (slice : Nat) (mask : BitVec 32) (s : State) : Out := .next (s.clearBypass slice mask)

/-! ## Accesses from outside (R440, R442) -/

/-- A read or write that the I-die makes for another node, in one commit (R228, R440): the bytes to be written are the message's; as many
bytes are read. It waits for a line that an engine owns, or that a group has reserved. -/
def outsideAccess (pa msg : Nat) (write : Bool) (again : Event) (s : State) : Out :=
  match keyFind s.dev.inbox msg with
  | none => .next s
  | some bytes =>
    let lines := (List.range ((pa % 128 + bytes.length + 127) / 128)).map (lineOf pa + ·)
    let held := lines.any fun l => s.ownedLine l || (write && s.reservedLine l)
    if held then .next (s.after 16 again)
    else
      let s := s.modDev fun d => { d with inbox := keyDrop d.inbox msg }
      if lines.any s.dev.poisoned.contains then .next (s.say (.memoryFault msg))
      else if !write then .next (s.say (.memoryData msg ((span pa bytes.length).map s.phys)))
      else .next (s.commitBytes pa bytes)

/-- CONTROL_NODE_MEMORY_ACCESS (R440). -/
def execControlNodeMemoryAccess (pa msg : Nat) (write : Bool) (s : State) : Out :=
  outsideAccess pa msg write (.controlNodeMemoryAccess pa msg write) s

/-- PEER_PORT_REQUEST (R442, R228): nothing arrives through a port whose link is down (R409). -/
def execPeerPortRequest (port pa msg : Nat) (write : Bool) (s : State) : Out :=
  if s.dev.peerDown.contains port then .next s
  else outsideAccess pa msg write (.peerPortRequest port pa msg write) s

/-- CONTEXT_BINDING_WRITE (R442): only while the port is up, and for up to 256 entries. -/
def execContextBindingWrite (index ctx port remote : Nat) (s : State) : Out :=
  if 256 ≤ index ∨ 8 ≤ port ∨ s.dev.peerDown.contains port then .next s
  else .next (s.modDev fun d => { d with bindings := keyPut d.bindings index (ctx, port, remote) })

/-! ## Flits and links (R428, R437) -/

/-- FLIT_REPLAY (R437): a flit whose CRC fails is sent again; no state that any agent reads changes. -/
def execFlitReplay (_link : Nat) (s : State) : Out := .next s

/-- MODULE_LANE_FAILURE (R437): the traffic of a module that is taken down moves to the others; no access is lost. -/
def execModuleLaneFailure (_link : Nat) (s : State) : Out := .next s

/-- The requests of a group that wait for acknowledgements have lost one (R413). -/
def State.loseAck (s : State) (core slot : Nat) : State :=
  s.modDev fun d => { d with requests := d.requests.map fun e =>
    (e.1, if e.2.core == core && e.2.slot == slot then { e.2 with lost := true } else e.2) }

/-- A line of a slice poisoned (R428, R448): what it held and had not written to DRAM is lost. -/
def State.poison (s : State) (line : Nat) : State :=
  if slicedLine line && !s.dev.poisoned.contains line then
    (s.loseData line).modDev fun d => { d with poisoned := d.poisoned ++ [line] }
  else s

/-- A group's requests that wait on lost control traffic complete with MEMERR, whose action is FAIL (R428, Table 16.5); a record that is
pending stays, and a request that waits for acknowledgements is R413's. -/
def State.controlLost (s : State) (g : Group) : State :=
  let asks := g.splits.any fun q => match q.wait with | .request _ => true | _ => false
  let s := if g.trapped || g.evaluates.isSome || asks then s else s.raiseAt g.core g.slot cMEMERR 0 false 0#32 4#32
  if g.isThread then (s.modCluster (s.team g.team).cluster fun c => { c with nr := true }).failContext g.ctx else s

/-- UNCORRECTABLE_FLIT (R428): its link, numbers 0 to 7 being the peer ports, is taken down. A lost data flit is MEMERR at the load that
waits for the line. With lost control traffic the line is poisoned, an acknowledgement that was on its way is missing (R413), the group's
requests complete with MEMERR, and a program group's task is marked non-restartable and its context failed. -/
def execUncorrectableFlit (link line core slot : Nat) (control : Bool) (s : State) : Out :=
  let s :=
    if control then
      let s := (s.poison line).loseAck core slot
      match s.group core slot with
      | some g => s.controlLost g
      | none => s
    else s.failOps (LaneAt.inLine line) cMEMERR 0#32 core slot
  if link < 8 then execPeerLinkDown link s else .next s

/-! ## Power and heat (R22, R447) -/

/-- The next clk whose issues are still to come. -/
def State.nextIssue (s : State) : Nat := if s.phase = .arrive then s.clock + 1 else s.clock

/-- POWER_THROTTLE (R22): an idle issue clock for the schedulers of a die, behind those that have been inserted. -/
def execPowerThrottle (die : Nat) (s : State) : Out :=
  .next (s.modDev fun d => { d with idle := keyPut d.idle die (max (((keyFind d.idle die).map (· + 1)).getD 0) s.nextIssue) })

/-- THERMAL_THROTTLE (R447): a junction above 105 °C: idle clocks are inserted on its die until it has cooled. -/
def execThermalThrottle (die : Nat) (s : State) : Out :=
  .next (s.modDev fun d => { d with hot := if d.hot.contains die then d.hot else d.hot ++ [die] })

/-- THERMAL_THROTTLE_END (R447). -/
def execThermalThrottleEnd (die : Nat) (s : State) : Out := .next (s.modDev fun d => { d with hot := d.hot.filter fun x => x != die })

/-- THERMTRIP (R447): the module stops. -/
def execThermtrip (s : State) : Out := .next ((s.say .thermTrip).modDev fun d => { d with stopped := true })

/-! ## Housekeeping (R448, R449) -/

/-- DRAM_SCRUB (R448): errors are corrected in place. -/
def execDramScrub (_line : Nat) (s : State) : Out := .next s

/-- Whether a scrub may run: the system controller's runs continuously; in host-assisted mode, in the windows that the control node has named
(R449). -/
def State.scrubs (s : State) : Bool :=
  !s.dev.hmode.getLsbD 9 || s.dev.scrubWindows.any fun w => decide (w.1 ≤ s.clock) && decide (s.clock < w.2)

/-- A poisoned line reloaded from DRAM, in one commit of its own; what it held and had not written is lost (R448). -/
def State.reloadLine (s : State) (line : Nat) : State :=
  ((s.loseData line).writeBackLine line).modDev fun d =>
    { d with poisoned := d.poisoned.filter fun l => l != line, versions := keyPut d.versions line (s.version line + 1) }

/-- SRAM_SCRUB (R448): correctable errors are corrected in place, an uncorrectable one poisons the line; a poisoned line is reloaded. -/
def execSramScrub (line : Nat) (s : State) : Out :=
  if !s.scrubs then .next s
  else if s.dev.poisoned.contains line then .next (s.reloadLine line)
  else
    let found := s.holdsLine line && Config.sramError s.nextId
    let s : State := { s with nextId := s.nextId + 1 }
    .next (if found then s.poison line else s)

/-- SCRUBLATE (R449): a missed scrub period is reported in host-assisted mode. -/
def execScrublate (s : State) : Out := .next (if s.dev.hmode.getLsbD 9 then s.say .scrubLate else s)

/-- UCIE_RETRAINING, GDDR7_RETRAINING, AGING_MONITOR, FLASH_WEAR_LEVELLING (R448): timing only. -/
def execUcieRetraining (_link : Nat) (s : State) : Out := .next s
/-- GDDR7_RETRAINING (R448). -/
def execGddr7Retraining (_device : Nat) (s : State) : Out := .next s
/-- AGING_MONITOR (R448). -/
def execAgingMonitor (s : State) : Out := .next s
/-- FLASH_WEAR_LEVELLING (R448). -/
def execFlashWearLevelling (s : State) : Out := .next s

/-- TELEMETRY (R448): sent every 1 ms: the clock, and the dies that are throttled for heat (log 30). -/
def execTelemetry (s : State) : Out := .next (s.say (.telemetry s.clock s.dev.hot))

end Sys2Proof.Machine
end

