-- ==== Sys2Proof/Machine/Scalar.lean ====
section
/-! DEFINITION. Sys2Proof/Machine/Scalar.lean: the scalar ALU of majors 0x04 to 0x0A (06_registers_scalar.md, R147 to R150). -/

namespace Sys2Proof.Machine

/-- A scalar instruction of 32-bit sources `rd` with the result `f` in `d` (R147). -/
def scalarOp (rd : List (BitVec 7)) (d : BitVec 7) (f : State → Word) (s : State) : Out :=
  issue { rd := rd.map fun a => .s a 1, wr := [.s d 1] } s fun s => .next (s.writeS d (f s)).retire

/-- A scalar instruction with a 64-bit result in the pair `d` (R149). -/
def scalarOp64 (rd : List Reg) (d : BitVec 7) (f : State → Dword) (s : State) : Out :=
  issue { rd := rd, wr := [.s d 2] } s fun s => .next (s.writeS64 d (f s)).retire

/-- 1 or 0. -/
def boolWord (b : Bool) : Word := if b then 1#32 else 0#32

/-- The count of leading zero bits, of trailing zero bits, of 1 bits, and the bits in reverse (Table 6.2). -/
def clz32 (a : Word) : Word := if a = 0#32 then 32#32 else BitVec.ofNat 32 (31 - Nat.log2 a.toNat)
def ctz32 (a : Word) : Word := BitVec.ofNat 32 (((List.range 32).find? fun i => a.getLsbD i).getD 32)
def popc32 (a : Word) : Word := BitVec.ofNat 32 ((List.range 32).filter fun i => a.getLsbD i).length
def brev32 (a : Word) : Word := maskOf fun i => a.getLsbD (31 - i)

/-- The low five bits of a shift count. -/
def sh5 (b : Word) : Nat := b.toNat % 32

/-- The high words of the signed and of the natural product. -/
def mulhI (a b : Word) : Word := hi32 (a.signExtend 64 * b.signExtend 64)
def mulhN (a b : Word) : Word := hi32 (a.setWidth 64 * b.setWidth 64)

/-- SADD (R147, Table 6.2). -/
def execSadd (b a d : BitVec 7) (s : State) : Out :=
  scalarOp [a, b] d (fun s => (s.readS a) + (s.readS b)) s

/-- SSUB (R147, Table 6.2). -/
def execSsub (b a d : BitVec 7) (s : State) : Out :=
  scalarOp [a, b] d (fun s => (s.readS a) - (s.readS b)) s

/-- SMUL (R147, Table 6.2). -/
def execSmul (b a d : BitVec 7) (s : State) : Out :=
  scalarOp [a, b] d (fun s => (s.readS a) * (s.readS b)) s

/-- SMULH_I (R147, Table 6.2). -/
def execSmulhI (b a d : BitVec 7) (s : State) : Out :=
  scalarOp [a, b] d (fun s => mulhI (s.readS a) (s.readS b)) s

/-- SMULH_N (R147, Table 6.2). -/
def execSmulhN (b a d : BitVec 7) (s : State) : Out :=
  scalarOp [a, b] d (fun s => mulhN (s.readS a) (s.readS b)) s

/-- SMIN_I (R147, Table 6.2). -/
def execSminI (b a d : BitVec 7) (s : State) : Out :=
  scalarOp [a, b] d (fun s => if (s.readS a).slt (s.readS b) then (s.readS a) else (s.readS b)) s

/-- SMAX_I (R147, Table 6.2). -/
def execSmaxI (b a d : BitVec 7) (s : State) : Out :=
  scalarOp [a, b] d (fun s => if (s.readS a).slt (s.readS b) then (s.readS b) else (s.readS a)) s

/-- SMIN_N (R147, Table 6.2). -/
def execSminN (b a d : BitVec 7) (s : State) : Out :=
  scalarOp [a, b] d (fun s => if (s.readS a).ult (s.readS b) then (s.readS a) else (s.readS b)) s

/-- SMAX_N (R147, Table 6.2). -/
def execSmaxN (b a d : BitVec 7) (s : State) : Out :=
  scalarOp [a, b] d (fun s => if (s.readS a).ult (s.readS b) then (s.readS b) else (s.readS a)) s

/-- SAND (R147, Table 6.2). -/
def execSand (b a d : BitVec 7) (s : State) : Out :=
  scalarOp [a, b] d (fun s => (s.readS a) &&& (s.readS b)) s

/-- SOR (R147, Table 6.2). -/
def execSor (b a d : BitVec 7) (s : State) : Out :=
  scalarOp [a, b] d (fun s => (s.readS a) ||| (s.readS b)) s

/-- SXOR (R147, Table 6.2). -/
def execSxor (b a d : BitVec 7) (s : State) : Out :=
  scalarOp [a, b] d (fun s => (s.readS a) ^^^ (s.readS b)) s

/-- SANDN (R147, Table 6.2). -/
def execSandn (b a d : BitVec 7) (s : State) : Out :=
  scalarOp [a, b] d (fun s => (s.readS a) &&& ~~~(s.readS b)) s

/-- SSHL (R147, Table 6.2). -/
def execSshl (b a d : BitVec 7) (s : State) : Out :=
  scalarOp [a, b] d (fun s => (s.readS a) <<< sh5 (s.readS b)) s

/-- SSHR (R147, Table 6.2). -/
def execSshr (b a d : BitVec 7) (s : State) : Out :=
  scalarOp [a, b] d (fun s => (s.readS a) >>> sh5 (s.readS b)) s

/-- SSAR (R147, Table 6.2). -/
def execSsar (b a d : BitVec 7) (s : State) : Out :=
  scalarOp [a, b] d (fun s => (s.readS a).sshiftRight (sh5 (s.readS b))) s

/-- SCMP_EQ (R147, Table 6.2). -/
def execScmpEq (b a d : BitVec 7) (s : State) : Out :=
  scalarOp [a, b] d (fun s => boolWord ((s.readS a) == (s.readS b))) s

/-- SCMP_NE (R147, Table 6.2). -/
def execScmpNe (b a d : BitVec 7) (s : State) : Out :=
  scalarOp [a, b] d (fun s => boolWord ((s.readS a) != (s.readS b))) s

/-- SCMP_LT_I (R147, Table 6.2). -/
def execScmpLtI (b a d : BitVec 7) (s : State) : Out :=
  scalarOp [a, b] d (fun s => boolWord ((s.readS a).slt (s.readS b))) s

/-- SCMP_LE_I (R147, Table 6.2). -/
def execScmpLeI (b a d : BitVec 7) (s : State) : Out :=
  scalarOp [a, b] d (fun s => boolWord ((s.readS a).sle (s.readS b))) s

/-- SCMP_LT_N (R147, Table 6.2). -/
def execScmpLtN (b a d : BitVec 7) (s : State) : Out :=
  scalarOp [a, b] d (fun s => boolWord ((s.readS a).ult (s.readS b))) s

/-- SCMP_LE_N (R147, Table 6.2). -/
def execScmpLeN (b a d : BitVec 7) (s : State) : Out :=
  scalarOp [a, b] d (fun s => boolWord ((s.readS a).ule (s.readS b))) s

/-- SCLZ (R147, Table 6.2). -/
def execSclz (a d : BitVec 7) (s : State) : Out :=
  scalarOp [a] d (fun s => clz32 (s.readS a)) s

/-- SPOPC (R147, Table 6.2). -/
def execSpopc (a d : BitVec 7) (s : State) : Out :=
  scalarOp [a] d (fun s => popc32 (s.readS a)) s

/-- SBREV (R147, Table 6.2). -/
def execSbrev (a d : BitVec 7) (s : State) : Out :=
  scalarOp [a] d (fun s => brev32 (s.readS a)) s

/-- SCTZ (R147, Table 6.2). -/
def execSctz (a d : BitVec 7) (s : State) : Out :=
  scalarOp [a] d (fun s => ctz32 (s.readS a)) s

/-- SSEL (R148): D is the condition before it is written; with D = zero the condition is 0. -/
def execSsel (b a d : BitVec 7) (s : State) : Out :=
  scalarOp [a, b, d] d (fun s => if s.readS d ≠ 0#32 then s.readS a else s.readS b) s

/-- SADD64 (R149). -/
def execSadd64 (b a d : BitVec 7) (s : State) : Out :=
  scalarOp64 [.s a 2, .s b 2] d (fun s => s.readS64 a + s.readS64 b) s

/-- SSUB64 (R149). -/
def execSsub64 (b a d : BitVec 7) (s : State) : Out :=
  scalarOp64 [.s a 2, .s b 2] d (fun s => s.readS64 a - s.readS64 b) s

/-- SSHL64 (R149): the count is b[5:0]. -/
def execSshl64 (b a d : BitVec 7) (s : State) : Out :=
  scalarOp64 [.s a 2, .s b 1] d (fun s => s.readS64 a <<< ((s.readS b).toNat % 64)) s

/-- SSHR64 (R149). -/
def execSshr64 (b a d : BitVec 7) (s : State) : Out :=
  scalarOp64 [.s a 2, .s b 1] d (fun s => s.readS64 a >>> ((s.readS b).toNat % 64)) s

/-- SMUL64 (R149). -/
def execSmul64 (b a d : BitVec 7) (s : State) : Out :=
  scalarOp64 [.s a 2, .s b 2] d (fun s => s.readS64 a * s.readS64 b) s

/-- SADDI (R150). -/
def execSaddi (i : BitVec 11) (a d : BitVec 7) (s : State) : Out :=
  scalarOp [a] d (fun s => s.readS a + i.signExtend 32) s

/-- SANDI (R150). -/
def execSandi (i : BitVec 11) (a d : BitVec 7) (s : State) : Out :=
  scalarOp [a] d (fun s => s.readS a &&& i.signExtend 32) s

/-- SSHLI (R150): the encoding admits counts 0 to 31. -/
def execSshli (n : BitVec 5) (a d : BitVec 7) (s : State) : Out :=
  scalarOp [a] d (fun s => s.readS a <<< n.toNat) s

/-- SSHRI (R150). -/
def execSshri (n : BitVec 5) (a d : BitVec 7) (s : State) : Out :=
  scalarOp [a] d (fun s => s.readS a >>> n.toNat) s

/-- SLTI (R150). -/
def execSlti (i : BitVec 11) (a d : BitVec 7) (s : State) : Out :=
  scalarOp [a] d (fun s => boolWord ((s.readS a).slt (i.signExtend 32))) s

end Sys2Proof.Machine
end

