-- ==== Sys2Proof/Machine/Vector.lean ====
section
/-! DEFINITION. Sys2Proof/Machine/Vector.lean: the integer, logic, shift, field and interleave instructions of the vector lanes, and
their 16-bit forms (07_vector_lanes.md, R160 to R169; 02_instruction_formats.md, R51). -/

namespace Sys2Proof.Machine

/-- A synchronous vector instruction of two sources. -/
def vecBin (mx : ModxUse) (a b d : BitVec 8) (f : State → Lanes) (s : State) : Out :=
  issue { rd := [.v a 1, .v b 1], wr := [.v d 1], modx := mx } s fun s => syncResult [a, b] d (f s) s

/-- A synchronous vector instruction of two sources and the old destination (R160). -/
def vecTri (mx : ModxUse) (a b d : BitVec 8) (f : State → Lanes) (s : State) : Out :=
  issue { rd := [.v a 1, .v b 1, .v d 1], wr := [.v d 1], modx := mx } s fun s => syncResult [a, b] d (f s) s

/-- A synchronous vector instruction of one source. -/
def vecUn (mx : ModxUse) (a d : BitVec 8) (f : State → Lanes) (s : State) : Out :=
  issue { rd := [.v a 1], wr := [.v d 1], modx := mx } s fun s => syncResult [a] d (f s) s

/-- A lane function of two operands over the lanes of A and B. -/
def lanes2 (a b : BitVec 8) (f : Word → Word → Word) (s : State) : Lanes := fun l => f (s.srcA a l) (s.srcB b l)

/-- A lane function of operand A. -/
def lanes1 (a : BitVec 8) (f : Word → Word) (s : State) : Lanes := fun l => f (s.srcA a l)

/-- Kind 0 on A and B; with kind 5; on A alone. -/
def mxAB : ModxUse := { selA := true, selB := true }
def mxABsat : ModxUse := { selA := true, selB := true, satInt := true }
def mxA : ModxUse := { selA := true }
def mxAsat : ModxUse := { selA := true, satInt := true }

/-- The field of BFE and BFI named by b: offset, width, sign-extension (R167). -/
def bfOff (b : Word) : Nat := field b 4 0
def bfWidth (b : Word) : Nat := min (field b 13 8) 32

/-- BFE (R167). -/
def bfe (a b : Word) : Word :=
  let w := bfWidth b
  if w = 0 then 0#32
  else
    let f := (a >>> bfOff b) &&& BitVec.ofNat 32 (2 ^ w - 1)
    if b.getLsbD 16 && f.getLsbD (w - 1) then f ||| ~~~(BitVec.ofNat 32 (2 ^ w - 1)) else f

/-- BFI (R167). -/
def bfi (a b c : Word) : Word :=
  let m := BitVec.ofNat 32 (2 ^ bfWidth b - 1) <<< bfOff b
  (c &&& ~~~m) ||| ((a <<< bfOff b) &&& m)

/-- The word whose bit `i` is `f i`. -/
def bitsWord (f : Nat → Bool) : Word := maskOf f

/-- ILV2, ILV3, DILV2, DILV3 (Table 7.3). -/
def ilv2 (a b : Word) : Word := bitsWord fun k => if k % 2 = 1 then a.getLsbD (k / 2) else b.getLsbD (k / 2)
def ilv3 (a b c : Word) : Word :=
  bitsWord fun k => decide (k < 30) &&
    (if k % 3 = 2 then a.getLsbD (k / 3) else if k % 3 = 1 then b.getLsbD (k / 3) else c.getLsbD (k / 3))
def dilv2 (a b : Word) : Word := bitsWord fun i => decide (i < 16) && a.getLsbD (2 * i + 1 - b.toNat % 2)
def dilv3 (a b : Word) : Word :=
  let s := b.toNat % 4
  bitsWord fun i => decide (i < 10) && decide (s ≤ 2) && a.getLsbD (3 * i + 2 - s)

/-- The low `w` bits of a, sign-extended (R169). -/
def sextW (w : Nat) (a : Word) : Word :=
  let f := a &&& BitVec.ofNat 32 (2 ^ w - 1)
  if f.getLsbD (w - 1) then f ||| ~~~(BitVec.ofNat 32 (2 ^ w - 1)) else f

/-- IADD (R165, Table 7.2). -/
def execIadd (b a d : BitVec 8) (s : State) : Out :=
  vecBin mxABsat a b d (fun s => lanes2 a b (fun a b => s.satInt (a + b) (a.toInt + b.toInt) ((a.toNat : Int) + b.toNat)) s) s

/-- ISUB (R165, Table 7.2). -/
def execIsub (b a d : BitVec 8) (s : State) : Out :=
  vecBin mxABsat a b d (fun s => lanes2 a b (fun a b => s.satInt (a - b) (a.toInt - b.toInt) ((a.toNat : Int) - b.toNat)) s) s

/-- IMUL (R165, Table 7.2). -/
def execImul (b a d : BitVec 8) (s : State) : Out :=
  vecBin mxABsat a b d (fun s => lanes2 a b (fun a b => s.satInt (a * b) (a.toInt * b.toInt) ((a.toNat : Int) * b.toNat)) s) s

/-- SHL (R165, Table 7.2). -/
def execShl (b a d : BitVec 8) (s : State) : Out :=
  vecBin mxABsat a b d (fun s => lanes2 a b (fun a b => s.satInt (a <<< sh5 b) (a.toInt * (2 ^ sh5 b : Nat)) ((a.toNat : Int) * (2 ^ sh5 b : Nat))) s) s

/-- IMULH_I (R165). -/
def execImulhI (b a d : BitVec 8) (s : State) : Out :=
  vecBin mxAB a b d (lanes2 a b fun a b => mulhI a b) s

/-- IMULH_N (R165). -/
def execImulhN (b a d : BitVec 8) (s : State) : Out :=
  vecBin mxAB a b d (lanes2 a b fun a b => mulhN a b) s

/-- IMIN_I (R165). -/
def execIminI (b a d : BitVec 8) (s : State) : Out :=
  vecBin mxAB a b d (lanes2 a b fun a b => if a.slt b then a else b) s

/-- IMAX_I (R165). -/
def execImaxI (b a d : BitVec 8) (s : State) : Out :=
  vecBin mxAB a b d (lanes2 a b fun a b => if a.slt b then b else a) s

/-- IMIN_N (R165). -/
def execIminN (b a d : BitVec 8) (s : State) : Out :=
  vecBin mxAB a b d (lanes2 a b fun a b => if a.ult b then a else b) s

/-- IMAX_N (R165). -/
def execImaxN (b a d : BitVec 8) (s : State) : Out :=
  vecBin mxAB a b d (lanes2 a b fun a b => if a.ult b then b else a) s

/-- AND (R165). -/
def execAnd (b a d : BitVec 8) (s : State) : Out :=
  vecBin mxAB a b d (lanes2 a b fun a b => a &&& b) s

/-- OR (R165). -/
def execOr (b a d : BitVec 8) (s : State) : Out :=
  vecBin mxAB a b d (lanes2 a b fun a b => a ||| b) s

/-- XOR (R165). -/
def execXor (b a d : BitVec 8) (s : State) : Out :=
  vecBin mxAB a b d (lanes2 a b fun a b => a ^^^ b) s

/-- ANDN (R165). -/
def execAndn (b a d : BitVec 8) (s : State) : Out :=
  vecBin mxAB a b d (lanes2 a b fun a b => a &&& ~~~b) s

/-- SHR (R165). -/
def execShr (b a d : BitVec 8) (s : State) : Out :=
  vecBin mxAB a b d (lanes2 a b fun a b => a >>> sh5 b) s

/-- SAR (R165). -/
def execSar (b a d : BitVec 8) (s : State) : Out :=
  vecBin mxAB a b d (lanes2 a b fun a b => a.sshiftRight (sh5 b)) s

/-- ROL (R165). -/
def execRol (b a d : BitVec 8) (s : State) : Out :=
  vecBin mxAB a b d (lanes2 a b fun a b => a.rotateLeft (sh5 b)) s

/-- BFE (R167). -/
def execBfe (b a d : BitVec 8) (s : State) : Out :=
  vecBin mxAB a b d (lanes2 a b fun a b => bfe a b) s

/-- ILV2 (R168). -/
def execIlv2 (b a d : BitVec 8) (s : State) : Out :=
  vecBin mxAB a b d (lanes2 a b fun a b => ilv2 a b) s

/-- DILV2 (R168). -/
def execDilv2 (b a d : BitVec 8) (s : State) : Out :=
  vecBin mxAB a b d (lanes2 a b fun a b => dilv2 a b) s

/-- DILV3 (R168). -/
def execDilv3 (b a d : BitVec 8) (s : State) : Out :=
  vecBin mxAB a b d (lanes2 a b fun a b => dilv3 a b) s

/-- IMAD (R165, Table 7.2). -/
def execImad (b a d : BitVec 8) (s : State) : Out :=
  vecTri mxABsat a b d (fun s l =>
    let x := s.srcA a l
    let y := s.srcB b l
    let c := s.srcC d l
    s.satInt (x * y + c) (x.toInt * y.toInt + c.toInt) ((x.toNat : Int) * y.toNat + c.toNat)) s

/-- BFI (R167). -/
def execBfi (b a d : BitVec 8) (s : State) : Out :=
  vecTri mxAB a b d (fun s l => bfi (s.srcA a l) (s.srcB b l) (s.srcC d l)) s

/-- ILV3 (R168). -/
def execIlv3 (b a d : BitVec 8) (s : State) : Out :=
  vecTri mxAB a b d (fun s l => ilv3 (s.srcA a l) (s.srcB b l) (s.srcC d l)) s

/-- CLZ (R166). -/
def execClz (a d : BitVec 8) (s : State) : Out := vecUn mxA a d (lanes1 a clz32) s

/-- POPC (R166). -/
def execPopc (a d : BitVec 8) (s : State) : Out := vecUn mxA a d (lanes1 a popc32) s

/-- BREV (R166). -/
def execBrev (a d : BitVec 8) (s : State) : Out := vecUn mxA a d (lanes1 a brev32) s

/-- CTZ (R166). -/
def execCtz (a d : BitVec 8) (s : State) : Out := vecUn mxA a d (lanes1 a ctz32) s

/-- IABS (R166). -/
def execIabs (a d : BitVec 8) (s : State) : Out := vecUn mxA a d (lanes1 a (fun a => if a.msb then -a else a)) s

/-- INEG (R166). -/
def execIneg (a d : BitVec 8) (s : State) : Out := vecUn mxA a d (lanes1 a (fun a => -a)) s

/-- IADDI (R169). -/
def execIaddi (i a d : BitVec 8) (s : State) : Out :=
  vecUn mxAsat a d (fun s => lanes1 a (fun a =>
    s.satInt (a + i.signExtend 32) (a.toInt + i.toInt) ((a.toNat : Int) + i.toInt)) s) s

/-- SHLI (R169). -/
def execShli (n : BitVec 5) (a d : BitVec 8) (s : State) : Out :=
  vecUn mxAsat a d (fun s => lanes1 a (fun a =>
    s.satInt (a <<< n.toNat) (a.toInt * (2 ^ n.toNat : Nat)) ((a.toNat : Int) * (2 ^ n.toNat : Nat))) s) s

/-- SHRI (R169). -/
def execShri (n : BitVec 5) (a d : BitVec 8) (s : State) : Out := vecUn mxA a d (lanes1 a fun a => a >>> n.toNat) s

/-- SARI (R169). -/
def execSari (n : BitVec 5) (a d : BitVec 8) (s : State) : Out := vecUn mxA a d (lanes1 a fun a => a.sshiftRight n.toNat) s

/-- SEXT (R169). -/
def execSext (w a d : BitVec 8) (s : State) : Out := vecUn mxA a d (lanes1 a (sextW w.toNat)) s

/-! ## The 16-bit form (R51, R164) -/

/-- The vector specifiers that B5 and D6 name (R51). -/
def src5 (b : BitVec 5) : BitVec 8 :=
  let n := b.toNat
  if n < 8 then BitVec.ofNat 8 (0xE0 + n) else if n = 8 then 0xE8#8 else if n = 9 then 0xE9#8 else BitVec.ofNat 8 (n - 10)
def dst6 (d : BitVec 6) : BitVec 8 := d.setWidth 8

/-- D := D op B in the 16-bit form: no prefix applies. -/
def half2 (f : Word → Word → Word) (b : BitVec 5) (d : BitVec 6) (s : State) : Out :=
  vecBin {} (dst6 d) (src5 b) (dst6 d) (lanes2 (dst6 d) (src5 b) f) s

/-- NOP (R51): nothing but the place in the clause. -/
def execNop (s : State) : Out := issue {} s fun s => .next s.retire

/-- MOV_16 (R51). -/
def execMov16 (b : BitVec 5) (d : BitVec 6) (s : State) : Out :=
  vecUn {} (src5 b) (dst6 d) (lanes1 (src5 b) id) s

/-- IADD_16 (R51, Table 2.8). -/
def execIadd16 (b : BitVec 5) (d : BitVec 6) (s : State) : Out := half2 (fun a b => a + b) b d s

/-- ISUB_16 (R51, Table 2.8). -/
def execIsub16 (b : BitVec 5) (d : BitVec 6) (s : State) : Out := half2 (fun a b => a - b) b d s

/-- AND_16 (R51, Table 2.8). -/
def execAnd16 (b : BitVec 5) (d : BitVec 6) (s : State) : Out := half2 (fun a b => a &&& b) b d s

/-- OR_16 (R51, Table 2.8). -/
def execOr16 (b : BitVec 5) (d : BitVec 6) (s : State) : Out := half2 (fun a b => a ||| b) b d s

/-- XOR_16 (R51, Table 2.8). -/
def execXor16 (b : BitVec 5) (d : BitVec 6) (s : State) : Out := half2 (fun a b => a ^^^ b) b d s

/-- SHL_16 (R51, Table 2.8). -/
def execShl16 (b : BitVec 5) (d : BitVec 6) (s : State) : Out := half2 (fun a b => a <<< sh5 b) b d s

/-- SHR_16 (R51, Table 2.8). -/
def execShr16 (b : BitVec 5) (d : BitVec 6) (s : State) : Out := half2 (fun a b => a >>> sh5 b) b d s

/-- SAR_16 (R51, Table 2.8). -/
def execSar16 (b : BitVec 5) (d : BitVec 6) (s : State) : Out := half2 (fun a b => a.sshiftRight (sh5 b)) b d s

/-- IMIN_I_16 (R51, Table 2.8). -/
def execIminI16 (b : BitVec 5) (d : BitVec 6) (s : State) : Out := half2 (fun a b => if a.slt b then a else b) b d s

/-- IMAX_I_16 (R51, Table 2.8). -/
def execImaxI16 (b : BitVec 5) (d : BitVec 6) (s : State) : Out := half2 (fun a b => if a.slt b then b else a) b d s

end Sys2Proof.Machine
end

