-- ==== Sys2Proof/Machine/VectorFloat.lean ====
section
/-! DEFINITION. Sys2Proof/Machine/VectorFloat.lean: the floating-point instructions of the vector lanes (07_vector_lanes.md, R170 to
R175, R180): f32, packed, f64, compares, conversions. -/

namespace Sys2Proof.Machine

/-- A lane's result with its flags, as the float operations give it. -/
abbrev FRes := Nat × FFlags

/-- A synchronous float instruction with lane results `f` (R89). -/
def floatSync (u : Uses) (pops : List (BitVec 8)) (d : BitVec 8) (f : State → Nat → FRes) (s : State) : Out :=
  issue u s fun s =>
    withFlags s (fun l => (f s l).2) fun s' => syncResult pops d (fun l => BitVec.ofNat 32 (f s l).1) s'

/-- Kinds 0 and 1 on A and B; with kinds 3 and 5; with operand C; the function operations; flag-class. -/
def mxF : ModxUse := { selA := true, selB := true, negA := true, negB := true }
def mxFr : ModxUse := { mxF with round := true, satFloat := true }
def mxFc : ModxUse := { mxFr with negC := true }
def mxFu : ModxUse := { selA := true, negA := true, satFloat := true }

/-- The operands of an f32 instruction as numbers. -/
def State.fa (s : State) (a : BitVec 8) (l : Nat) : Nat := (s.fsrcA sign32 a l).toNat
def State.fb (s : State) (b : BitVec 8) (l : Nat) : Nat := (s.fsrcB sign32 b l).toNat
def State.fc (s : State) (d : BitVec 8) (l : Nat) : Nat := (s.fsrcC sign32 d l).toNat

/-- A result clamped under MODX kind 5. -/
def State.sat1 (s : State) (t : Fmt) (r : FRes) : FRes := (s.satF t r.1, r.2)

/-- The uses of a two-source instruction, of a three-source one, of a one-source one. -/
def use2 (mx : ModxUse) (a b d : BitVec 8) : Uses := { rd := [.v a 1, .v b 1], wr := [.v d 1], modx := mx }
def use3 (mx : ModxUse) (a b d : BitVec 8) : Uses := { rd := [.v a 1, .v b 1, .v d 1], wr := [.v d 1], modx := mx }
def use1 (mx : ModxUse) (a d : BitVec 8) : Uses := { rd := [.v a 1], wr := [.v d 1], modx := mx }

/-- An f32 operation in the two elements of a packed pair (R79): the results joined, the flags ORed. -/
def packed2 (f : Nat → Nat → FRes) (a b : Word) : FRes :=
  let r0 := f (a.toNat % 65536) (b.toNat % 65536)
  let r1 := f (a.toNat / 65536) (b.toNat / 65536)
  (r0.1 + 65536 * r1.1, r0.2 ||| r1.2)

/-- The same of three operands. -/
def packed3 (f : Nat → Nat → Nat → FRes) (a b c : Word) : FRes :=
  let r0 := f (a.toNat % 65536) (b.toNat % 65536) (c.toNat % 65536)
  let r1 := f (a.toNat / 65536) (b.toNat / 65536) (c.toNat / 65536)
  (r0.1 + 65536 * r1.1, r0.2 ||| r1.2)

/-- A literal word widened for f64: read as an f32 and converted exactly (R43); a signalling NaN becomes the canonical quiet
NaN and raises no flag of its own (log 65). -/
def litF64 (w : Word) : Dword := BitVec.ofNat 64 (fcvt f32 f64 0 false w.toNat).1

/-- FADD (R170, Table 7.5). -/
def execFadd (b a d : BitVec 8) (s : State) : Out :=
  floatSync (use2 mxFr a b d) [a, b] d (fun s l => s.sat1 f32 (fadd f32 s.rmode (s.fa a l) (s.fb b l))) s

/-- FSUB (R170, Table 7.5). -/
def execFsub (b a d : BitVec 8) (s : State) : Out :=
  floatSync (use2 mxFr a b d) [a, b] d (fun s l => s.sat1 f32 (fsub f32 s.rmode (s.fa a l) (s.fb b l))) s

/-- FMUL (R170, Table 7.5). -/
def execFmul (b a d : BitVec 8) (s : State) : Out :=
  floatSync (use2 mxFr a b d) [a, b] d (fun s l => s.sat1 f32 (fmul f32 s.rmode (s.fa a l) (s.fb b l))) s

/-- FFMA (R170, Table 7.5). -/
def execFfma (b a d : BitVec 8) (s : State) : Out :=
  floatSync (use3 mxFc a b d) [a, b] d
    (fun s l => s.sat1 f32 (ffma f32 s.rmode (s.fa a l) (s.fb b l) (s.fc d l))) s

/-- FMIN (R170, R82). -/
def execFmin (b a d : BitVec 8) (s : State) : Out :=
  floatSync (use2 mxF a b d) [a, b] d (fun s l => fminmax f32 false (s.fa a l) (s.fb b l)) s

/-- FMAX (R170, R82). -/
def execFmax (b a d : BitVec 8) (s : State) : Out :=
  floatSync (use2 mxF a b d) [a, b] d (fun s l => fminmax f32 true (s.fa a l) (s.fb b l)) s

/-- FCPYS (R170, R83). -/
def execFcpys (b a d : BitVec 8) (s : State) : Out :=
  floatSync (use2 mxF a b d) [a, b] d
    (fun s l => (((s.fsrcA sign32 a l &&& ~~~sign32) ||| (s.fsrcB sign32 b l &&& sign32)).toNat, 0#5)) s

/-- FDIV (R170, Table 7.5). -/
def execFdiv (b a d : BitVec 8) (s : State) : Out :=
  issue (use2 { mxFr with flag := true } a b d) s fun s =>
    let f := fun l => s.sat1 f32 (fdiv f32 s.rmode (s.fa a l) (s.fb b l))
    asyncResult 28 [a, b] d (fun l => BitVec.ofNat 32 (f l).1) (fun l => (f l).2) s

/-- A flag-class f32 function of one operand (R86, R171), completing after `clk`. -/
def floatFun (round : Bool) (clk : Nat) (g : Nat → Nat → FRes) (a d : BitVec 8) (s : State) : Out :=
  issue (use1 { mxFu with round := round, flag := true } a d) s fun s =>
    let f := fun l => s.sat1 f32 (g s.rmode (s.fa a l))
    asyncResult clk [a] d (fun l => BitVec.ofNat 32 (f l).1) (fun l => (f l).2) s

/-- FRCP (R171, Table 7.6). -/
def execFrcp (a d : BitVec 8) (s : State) : Out := floatFun false 18 (fun _ a => frcp f32 a) a d s

/-- FRSQ (R171, Table 7.6). -/
def execFrsq (a d : BitVec 8) (s : State) : Out := floatFun false 18 (fun _ a => frsq f32 a) a d s

/-- FSQRT (R171, Table 7.6). -/
def execFsqrt (a d : BitVec 8) (s : State) : Out := floatFun true 24 (fun rm a => fsqrt f32 rm a) a d s

/-- FEXP2 (R171, Table 7.6). -/
def execFexp2 (a d : BitVec 8) (s : State) : Out := floatFun false 18 (fun _ a => fexp2 a) a d s

/-- FLOG2 (R171, Table 7.6). -/
def execFlog2 (a d : BitVec 8) (s : State) : Out := floatFun false 18 (fun _ a => flog2 a) a d s

/-- FSIN (R171, Table 7.6). -/
def execFsin (a d : BitVec 8) (s : State) : Out := floatFun false 22 (fun _ a => fsincos false a) a d s

/-- FCOS (R171, Table 7.6). -/
def execFcos (a d : BitVec 8) (s : State) : Out := floatFun false 22 (fun _ a => fsincos true a) a d s

/-- FFRACT (R171, Table 7.6). -/
def execFfract (a d : BitVec 8) (s : State) : Out :=
  floatSync (use1 mxFu a d) [a] d (fun s l => s.sat1 f32 (ffract f32 (s.fa a l))) s

/-- FRINT_RNE (R171, Table 7.6). -/
def execFrintRne (a d : BitVec 8) (s : State) : Out :=
  floatSync (use1 mxFu a d) [a] d (fun s l => s.sat1 f32 (frint f32 0 (s.fa a l))) s

/-- FRINT_RTZ (R171, Table 7.6). -/
def execFrintRtz (a d : BitVec 8) (s : State) : Out :=
  floatSync (use1 mxFu a d) [a] d (fun s l => s.sat1 f32 (frint f32 1 (s.fa a l))) s

/-- FRINT_RDN (R171, Table 7.6). -/
def execFrintRdn (a d : BitVec 8) (s : State) : Out :=
  floatSync (use1 mxFu a d) [a] d (fun s l => s.sat1 f32 (frint f32 2 (s.fa a l))) s

/-- FRINT_RUP (R171, Table 7.6). -/
def execFrintRup (a d : BitVec 8) (s : State) : Out :=
  floatSync (use1 mxFu a d) [a] d (fun s l => s.sat1 f32 (frint f32 3 (s.fa a l))) s

/-- The packed instructions' results clamped on each element under MODX kind 5. -/
def State.satP (s : State) (t : Fmt) (r : FRes) : FRes := (s.satF t (r.1 % 65536) + 65536 * s.satF t (r.1 / 65536), r.2)

/-- HADD2 (R172). -/
def execHadd2 (b a d : BitVec 8) (s : State) : Out :=
  floatSync (use2 mxFr a b d) [a, b] d
    (fun s l => s.satP f16 (packed2 (fadd f16 s.rmode) (s.fsrcA sign16x2 a l) (s.fsrcB sign16x2 b l))) s

/-- HMUL2 (R172). -/
def execHmul2 (b a d : BitVec 8) (s : State) : Out :=
  floatSync (use2 mxFr a b d) [a, b] d
    (fun s l => s.satP f16 (packed2 (fmul f16 s.rmode) (s.fsrcA sign16x2 a l) (s.fsrcB sign16x2 b l))) s

/-- HFMA2 (R172). -/
def execHfma2 (b a d : BitVec 8) (s : State) : Out :=
  floatSync (use3 mxFc a b d) [a, b] d
    (fun s l => s.satP f16 (packed3 (ffma f16 s.rmode) (s.fsrcA sign16x2 a l) (s.fsrcB sign16x2 b l) (s.fsrcC sign16x2 d l))) s

/-- BFMA2 (R172). -/
def execBfma2 (b a d : BitVec 8) (s : State) : Out :=
  floatSync (use3 mxFc a b d) [a, b] d
    (fun s l => s.satP bf16 (packed3 (ffma bf16 s.rmode) (s.fsrcA sign16x2 a l) (s.fsrcB sign16x2 b l) (s.fsrcC sign16x2 d l))) s

/-! ## FP64 (R173) -/

/-- A flag-class f64 instruction on even pairs, completing after `clk`. -/
def doubleOp (mx : ModxUse) (rd : List Reg) (clk : Nat) (d : BitVec 8) (f : State → Nat → FRes) (s : State) : Out :=
  issue { rd := rd, wr := [.v d 2], modx := { mx with flag := true } } s fun s =>
    let f := fun l => s.sat1 f64 (f s l)
    asyncResult64 clk d (fun l => BitVec.ofNat 64 (f l).1) (fun l => (f l).2) s

/-- The f64 operands as numbers; C is the old pair D. -/
def State.da (s : State) (a : BitVec 8) (l : Nat) : Nat := (s.dsrcA litF64 a l).toNat
def State.db (s : State) (b : BitVec 8) (l : Nat) : Nat := (s.dsrcB litF64 b l).toNat
def State.dc (s : State) (d : BitVec 8) (l : Nat) : Nat := (negAbs s.p.mods 4 sign64 (s.vsource64 litF64 d l)).toNat

/-- DADD (R173). -/
def execDadd (b a d : BitVec 8) (s : State) : Out :=
  doubleOp mxFr [.v a 2, .v b 2] 16 d (fun s l => fadd f64 s.rmode (s.da a l) (s.db b l)) s

/-- DMUL (R173). -/
def execDmul (b a d : BitVec 8) (s : State) : Out :=
  doubleOp mxFr [.v a 2, .v b 2] 16 d (fun s l => fmul f64 s.rmode (s.da a l) (s.db b l)) s

/-- DDIV (R173). -/
def execDdiv (b a d : BitVec 8) (s : State) : Out :=
  doubleOp mxFr [.v a 2, .v b 2] 60 d (fun s l => fdiv f64 s.rmode (s.da a l) (s.db b l)) s

/-- DFMA (R173). -/
def execDfma (b a d : BitVec 8) (s : State) : Out :=
  doubleOp mxFc [.v a 2, .v b 2, .v d 2] 16 d (fun s l => ffma f64 s.rmode (s.da a l) (s.db b l) (s.dc d l)) s

/-! ## FCLASS and the compares (R174, R175) -/

/-- The class bit of an f32 (R174). -/
def fclass (x : Nat) : Nat :=
  match unpack f32 x with
  | .nan s => if s then 256 else 512
  | .inf n => if n then 1 else 128
  | .fin n m _ =>
    if m = 0 then (if n then 8 else 16)
    else if m < 2 ^ f32.f then (if n then 4 else 32)
    else if n then 2 else 64

/-- FCLASS (R174). -/
def execFclass (a d : BitVec 8) (s : State) : Out :=
  vecUn { selA := true, negA := true } a d (fun s l => BitVec.ofNat 32 (fclass (s.fa a l))) s

/-- A compare: a lane mask to a scalar (R175). -/
def compareOp (mx : ModxUse) (a b : BitVec 8) (d : BitVec 7) (f : State → Nat → Bool) (fl : State → Nat → FFlags)
    (s : State) : Out :=
  issue { rd := [.v a 1, .v b 1], wr := [.s d 1], modx := mx } s fun s =>
    withFlags s (fl s) fun s' => maskResult [a, b] d (f s) s'

/-- The flags of a compare: NV for a signalling NaN, or for any NaN (R175). -/
def cmpFlags (anyNan : Bool) (a b : Nat) : FFlags :=
  let x := unpack f32 a
  let y := unpack f32 b
  if (if anyNan then x.isNaN || y.isNaN else x.sNaN || y.sNaN) then flNV else 0#5

/-- ICMP_EQ (R175). -/
def execIcmpEq (b a : BitVec 8) (d : BitVec 7) (s : State) : Out :=
  compareOp mxAB a b d (fun s l => (s.srcA a l) == (s.srcB b l)) (fun _ _ => 0#5) s

/-- ICMP_NE (R175). -/
def execIcmpNe (b a : BitVec 8) (d : BitVec 7) (s : State) : Out :=
  compareOp mxAB a b d (fun s l => (s.srcA a l) != (s.srcB b l)) (fun _ _ => 0#5) s

/-- ICMP_LT_I (R175). -/
def execIcmpLtI (b a : BitVec 8) (d : BitVec 7) (s : State) : Out :=
  compareOp mxAB a b d (fun s l => (s.srcA a l).slt (s.srcB b l)) (fun _ _ => 0#5) s

/-- ICMP_LE_I (R175). -/
def execIcmpLeI (b a : BitVec 8) (d : BitVec 7) (s : State) : Out :=
  compareOp mxAB a b d (fun s l => (s.srcA a l).sle (s.srcB b l)) (fun _ _ => 0#5) s

/-- ICMP_LT_N (R175). -/
def execIcmpLtN (b a : BitVec 8) (d : BitVec 7) (s : State) : Out :=
  compareOp mxAB a b d (fun s l => (s.srcA a l).ult (s.srcB b l)) (fun _ _ => 0#5) s

/-- ICMP_LE_N (R175). -/
def execIcmpLeN (b a : BitVec 8) (d : BitVec 7) (s : State) : Out :=
  compareOp mxAB a b d (fun s l => (s.srcA a l).ule (s.srcB b l)) (fun _ _ => 0#5) s

/-- FCMP_EQ (R175). -/
def execFcmpEq (b a : BitVec 8) (d : BitVec 7) (s : State) : Out :=
  compareOp mxF a b d (fun s l => feq f32 (s.fa a l) (s.fb b l)) (fun s l => cmpFlags false (s.fa a l) (s.fb b l)) s

/-- FCMP_NE (R175). -/
def execFcmpNe (b a : BitVec 8) (d : BitVec 7) (s : State) : Out :=
  compareOp mxF a b d (fun s l => !feq f32 (s.fa a l) (s.fb b l)) (fun s l => cmpFlags false (s.fa a l) (s.fb b l)) s

/-- FCMP_LT (R175). -/
def execFcmpLt (b a : BitVec 8) (d : BitVec 7) (s : State) : Out :=
  compareOp mxF a b d (fun s l => flt f32 (s.fa a l) (s.fb b l)) (fun s l => cmpFlags true (s.fa a l) (s.fb b l)) s

/-- FCMP_LE (R175). -/
def execFcmpLe (b a : BitVec 8) (d : BitVec 7) (s : State) : Out :=
  compareOp mxF a b d (fun s l => fle f32 (s.fa a l) (s.fb b l)) (fun s l => cmpFlags true (s.fa a l) (s.fb b l)) s

/-- FCMP_UN (R175). -/
def execFcmpUn (b a : BitVec 8) (d : BitVec 7) (s : State) : Out :=
  compareOp mxF a b d (fun s l => funo f32 (s.fa a l) (s.fb b l)) (fun s l => cmpFlags false (s.fa a l) (s.fb b l)) s

/-! ## Conversions (R69, R90 to R92, R180) -/

/-- A conversion from a 32-bit source to a 32-bit result; `sign` is the sign bit of a float source. -/
def cvtOp (neg : Bool) (sign : Word) (a d : BitVec 8) (f : Word → FRes) (s : State) : Out :=
  floatSync (use1 { selA := true, negA := neg } a d) [a] d (fun s l => f (s.fsrcA sign a l)) s

/-- From a 64-bit source to a 32-bit result. -/
def cvtFrom64 (neg : Bool) (lit : Word → Dword) (a d : BitVec 8) (f : Dword → FRes) (s : State) : Out :=
  floatSync { rd := [.v a 2], wr := [.v d 1], modx := { selA := true, negA := neg } } [] d (fun s l => f (s.dsrcA lit a l)) s

/-- To a 64-bit result. -/
def cvtTo64 (u : Uses) (pops : List (BitVec 8)) (d : BitVec 8) (f : State → Nat → FRes) (s : State) : Out :=
  issue u s fun s =>
    withFlags s (fun l => (f s l).2) fun s' => syncResult64 pops d (fun l => BitVec.ofNat 64 (f s l).1) s'

/-- The uses of a conversion to 64 bits from 32, and from 64. -/
def use32to64 (neg : Bool) (a d : BitVec 8) : Uses := { rd := [.v a 1], wr := [.v d 2], modx := { selA := true, negA := neg } }
def use64to64 (a d : BitVec 8) : Uses := { rd := [.v a 2], wr := [.v d 2], modx := { selA := true } }

/-- An integer narrowed to `w` bits: its low bits, or clamped under SAT (R69, R92). -/
def narrow (isSigned : Bool) (w : Nat) (sat : Bool) (x : Word) : FRes :=
  let v : Int := if isSigned then x.toInt else x.toNat
  let lo : Int := if isSigned then -(2 ^ (w - 1) : Int) else 0
  let hi : Int := if isSigned then 2 ^ (w - 1) - 1 else 2 ^ w - 1
  let c := if sat then max lo (min hi v) else v
  let r := BitVec.ofInt w c
  ((if isSigned then r.signExtend 32 else r.setWidth 32 : Word).toNat, 0#5)

/-- The widening of a literal for i64 and for n64 (R43). -/
def litI64 (w : Word) : Dword := w.signExtend 64
def litN64 (w : Word) : Dword := w.setWidth 64

/-- CVT_F32_I32 (R69, Table 3.4). -/
def execCvtF32I32 (rm : BitVec 3) (a d : BitVec 8) (s : State) : Out :=
  cvtOp false 0#32 a d (fun x => intToF f32 rm.toNat x.toInt) s

/-- CVT_F32_N32 (R69, Table 3.4). -/
def execCvtF32N32 (rm : BitVec 3) (a d : BitVec 8) (s : State) : Out :=
  cvtOp false 0#32 a d (fun x => intToF f32 rm.toNat x.toNat) s

/-- CVT_I32_F32 (R92, Table 3.4). -/
def execCvtI32F32 (sat : BitVec 1) (rm : BitVec 3) (a d : BitVec 8) (s : State) : Out :=
  cvtOp true sign32 a d (fun x => fToInt f32 true 32 rm.toNat (sat == 1#1) x.toNat) s

/-- CVT_N32_F32 (R92, Table 3.4). -/
def execCvtN32F32 (sat : BitVec 1) (rm : BitVec 3) (a d : BitVec 8) (s : State) : Out :=
  cvtOp true sign32 a d (fun x => fToInt f32 false 32 rm.toNat (sat == 1#1) x.toNat) s

/-- CVT_F64_F32 (R90, Table 3.4). -/
def execCvtF64F32  (a d : BitVec 8) (s : State) : Out :=
  cvtTo64 (use32to64 true a d) [a] d (fun s l => fcvt f32 f64 0 false (s.fsrcA sign32 a l).toNat) s

/-- CVT_F32_F64 (R90, Table 3.4). -/
def execCvtF32F64 (sat : BitVec 1) (rm : BitVec 3) (a d : BitVec 8) (s : State) : Out :=
  cvtFrom64 true litF64 a d (fun x => fcvt f64 f32 rm.toNat (sat == 1#1) x.toNat) s

/-- CVT_F64_I32 (R90, Table 3.4). -/
def execCvtF64I32  (a d : BitVec 8) (s : State) : Out :=
  cvtTo64 (use32to64 false a d) [a] d (fun s l => intToF f64 0 (s.srcA a l).toInt) s

/-- CVT_F64_N32 (R90, Table 3.4). -/
def execCvtF64N32  (a d : BitVec 8) (s : State) : Out :=
  cvtTo64 (use32to64 false a d) [a] d (fun s l => intToF f64 0 (s.srcA a l).toNat) s

/-- CVT_I32_F64 (R92, Table 3.4). -/
def execCvtI32F64 (sat : BitVec 1) (rm : BitVec 3) (a d : BitVec 8) (s : State) : Out :=
  cvtFrom64 true litF64 a d (fun x => fToInt f64 true 32 rm.toNat (sat == 1#1) x.toNat) s

/-- CVT_N32_F64 (R92, Table 3.4). -/
def execCvtN32F64 (sat : BitVec 1) (rm : BitVec 3) (a d : BitVec 8) (s : State) : Out :=
  cvtFrom64 true litF64 a d (fun x => fToInt f64 false 32 rm.toNat (sat == 1#1) x.toNat) s

/-- CVT_F16_F32 (R90, Table 3.4). -/
def execCvtF16F32 (sat : BitVec 1) (rm : BitVec 3) (a d : BitVec 8) (s : State) : Out :=
  cvtOp true sign32 a d (fun x => fcvt f32 f16 rm.toNat (sat == 1#1) x.toNat) s

/-- CVT_F32_F16 (R90, Table 3.4). -/
def execCvtF32F16  (a d : BitVec 8) (s : State) : Out :=
  cvtOp true 0x8000#32 a d (fun x => fcvt f16 f32 0 false (x.toNat % 65536)) s

/-- CVT_BF16_F32 (R90, Table 3.4). -/
def execCvtBf16F32 (sat : BitVec 1) (rm : BitVec 3) (a d : BitVec 8) (s : State) : Out :=
  cvtOp true sign32 a d (fun x => fcvt f32 bf16 rm.toNat (sat == 1#1) x.toNat) s

/-- CVT_F32_BF16 (R90, Table 3.4). -/
def execCvtF32Bf16  (a d : BitVec 8) (s : State) : Out :=
  cvtOp true 0x8000#32 a d (fun x => fcvt bf16 f32 0 false (x.toNat % 65536)) s

/-- CVT_I64_F64 (R92, Table 3.4). -/
def execCvtI64F64 (sat : BitVec 1) (rm : BitVec 3) (a d : BitVec 8) (s : State) : Out :=
  cvtTo64 { use64to64 a d with modx := { selA := true, negA := true } } [] d
    (fun s l => fToInt f64 true 64 rm.toNat (sat == 1#1) (s.dsrcA litF64 a l).toNat) s

/-- CVT_N64_F64 (R92, Table 3.4). -/
def execCvtN64F64 (sat : BitVec 1) (rm : BitVec 3) (a d : BitVec 8) (s : State) : Out :=
  cvtTo64 { use64to64 a d with modx := { selA := true, negA := true } } [] d
    (fun s l => fToInt f64 false 64 rm.toNat (sat == 1#1) (s.dsrcA litF64 a l).toNat) s

/-- CVT_F64_I64 (R91, Table 3.4). -/
def execCvtF64I64 (rm : BitVec 3) (a d : BitVec 8) (s : State) : Out :=
  cvtTo64 (use64to64 a d) [] d (fun s l => intToF f64 rm.toNat (s.dsrcA litI64 a l).toInt) s

/-- CVT_F64_N64 (R91, Table 3.4). -/
def execCvtF64N64 (rm : BitVec 3) (a d : BitVec 8) (s : State) : Out :=
  cvtTo64 (use64to64 a d) [] d (fun s l => intToF f64 rm.toNat (s.dsrcA litN64 a l).toNat) s

/-- CVT_I16_I32 (R69, Table 3.4). -/
def execCvtI16I32 (sat : BitVec 1) (a d : BitVec 8) (s : State) : Out :=
  cvtOp false 0#32 a d (narrow true 16 (sat == 1#1)) s

/-- CVT_N16_N32 (R69, Table 3.4). -/
def execCvtN16N32 (sat : BitVec 1) (a d : BitVec 8) (s : State) : Out :=
  cvtOp false 0#32 a d (narrow false 16 (sat == 1#1)) s

/-- CVT_I8_I32 (R69, Table 3.4). -/
def execCvtI8I32 (sat : BitVec 1) (a d : BitVec 8) (s : State) : Out :=
  cvtOp false 0#32 a d (narrow true 8 (sat == 1#1)) s

/-- CVT_N8_N32 (R69, Table 3.4). -/
def execCvtN8N32 (sat : BitVec 1) (a d : BitVec 8) (s : State) : Out :=
  cvtOp false 0#32 a d (narrow false 8 (sat == 1#1)) s

/-- CVT_FP19_F32 (R90, Table 3.4). -/
def execCvtFp19F32 (sat : BitVec 1) (rm : BitVec 3) (a d : BitVec 8) (s : State) : Out :=
  cvtOp true sign32 a d (fun x =>
    let r := fcvt f32 fp19 rm.toNat (sat == 1#1) x.toNat
    (r.1 * 2 ^ 13, r.2)) s

/-- CVT_F32_FP19 (R69, Table 3.4). -/
def execCvtF32Fp19  (a d : BitVec 8) (s : State) : Out :=
  cvtOp true sign32 a d (fun x => fcvt fp19 f32 0 false (x.toNat / 2 ^ 13)) s

/-! ## The 16-bit float forms (R51) -/

/-- D := D op B in f32, RNE, in the 16-bit form. -/
def halfFloat (f : Nat → Nat → FRes) (b : BitVec 5) (d : BitVec 6) (s : State) : Out :=
  floatSync (use2 {} (dst6 d) (src5 b) (dst6 d)) [] (dst6 d)
    (fun s l => f (s.vsource (dst6 d) l).toNat (s.vsource (src5 b) l).toNat) s

/-- FADD_16 (R51, Table 2.8). -/
def execFadd16 (b : BitVec 5) (d : BitVec 6) (s : State) : Out := halfFloat (fadd f32 0) b d s

/-- FSUB_16 (R51, Table 2.8). -/
def execFsub16 (b : BitVec 5) (d : BitVec 6) (s : State) : Out := halfFloat (fsub f32 0) b d s

/-- FMUL_16 (R51, Table 2.8). -/
def execFmul16 (b : BitVec 5) (d : BitVec 6) (s : State) : Out := halfFloat (fmul f32 0) b d s

/-- FMIN_16 (R51, Table 2.8). -/
def execFmin16 (b : BitVec 5) (d : BitVec 6) (s : State) : Out := halfFloat (fminmax f32 false) b d s

/-- FMAX_16 (R51, Table 2.8). -/
def execFmax16 (b : BitVec 5) (d : BitVec 6) (s : State) : Out := halfFloat (fminmax f32 true) b d s

end Sys2Proof.Machine
end

