-- ==== Sys2Proof/Machine/VectorCross.lean ====
section
/-! DEFINITION. Sys2Proof/Machine/VectorCross.lean: votes, selection, lane reads, shuffles, reductions and scans, and primitive
assembly (07_vector_lanes.md, R176 to R182; R108 and R109 of 04_number_formats.md). -/

namespace Sys2Proof.Machine

/-- VOTE (R176). -/
def execVote (a : BitVec 8) (d : BitVec 7) (s : State) : Out :=
  issue { rd := [.v a 1], wr := [.s d 1], modx := mxA } s fun s => maskResult [a] d (fun l => s.srcA a l != 0#32) s

/-- SEL (R177). -/
def execSel (x : BitVec 7) (a d : BitVec 8) (s : State) : Out :=
  issue { rd := [.v a 1, .s x 1, .v d 1], wr := [.v d 1], modx := mxA } s fun s =>
    syncResult [a] d (fun l => if bitOf (s.readS x) l then s.srcA a l else s.srcC d l) s

/-- MOVS (R177). -/
def execMovs (x : BitVec 7) (d : BitVec 8) (s : State) : Out :=
  issue { rd := [.s x 1], wr := [.v d 1] } s fun s => syncResult [] d (fun _ => s.readS x) s

/-- LEA (R177). -/
def execLea (x : BitVec 7) (a d : BitVec 8) (s : State) : Out :=
  issue { rd := [.v a 1, .s x 2], wr := [.v d 2], modx := mxA } s fun s =>
    syncResult64 [a] d (fun l => s.readS64 x + (s.srcA a l).setWidth 64) s

/-- READLANE (R177): whatever exec holds. -/
def execReadlane (x : BitVec 7) (a : BitVec 8) (d : BitVec 7) (s : State) : Out :=
  issue { rd := [.v a 1, .s x 1], wr := [.s d 1] } s fun s =>
    .next ((s.popSources [a]).writeS d (s.vsource a (sh5 (s.readS x)))).retire

/-! ## Shuffles (R178) -/

/-- A shuffle: lane `l` reads the source lane `src l` of A, its own value when there is none and `own` is set, else 0. -/
def shuffle (rd : List Reg) (pops : List (BitVec 8)) (a d : BitVec 8) (src : State → Nat → Option Nat) (own : Bool)
    (s : State) : Out :=
  issue { rd := rd, wr := [.v d 1], modx := { flag := true } } s fun s =>
    let v := s.vsource a
    asyncResult 8 pops d
      (fun l => match src s l with
        | some k => v k
        | none => if own then v l else 0#32) (fun _ => 0#5) s

/-- SHFL_XOR (R178). -/
def execShflXor (k : BitVec 5) (a d : BitVec 8) (s : State) : Out :=
  shuffle [.v a 1] [a] a d (fun _ l => some (l ^^^ k.toNat)) false s

/-- SHFL_UP (R178). -/
def execShflUp (f : BitVec 1) (n : BitVec 5) (a d : BitVec 8) (s : State) : Out :=
  shuffle [.v a 1] [a] a d (fun _ l => if n.toNat ≤ l then some (l - n.toNat) else none) (f == 1#1) s

/-- SHFL_DN (R178). -/
def execShflDn (f : BitVec 1) (n : BitVec 5) (a d : BitVec 8) (s : State) : Out :=
  shuffle [.v a 1] [a] a d (fun _ l => if l + n.toNat < 32 then some (l + n.toNat) else none) (f == 1#1) s

/-- SHFL_IDX (R178): an index of 32 or more delivers 0. -/
def execShflIdx (b a d : BitVec 8) (s : State) : Out :=
  shuffle [.v a 1, .v b 1] [a, b] a d
    (fun s l => if (s.vsource b l).toNat < 32 then some (s.vsource b l).toNat else none) false s

/-! ## Reductions and scans (R108, R109, R179) -/

/-- A value in the combining tree, absent in an inactive lane, with the flags of the combines below it. -/
abbrev Node := Option FRes

/-- The combination of two nodes (R108). -/
def combine (op : Nat → Nat → FRes) (x y : Node) : Node :=
  match x, y with
  | none, y => y
  | x, none => x
  | some (a, fa), some (b, fb) => let r := op a b; some (r.1, fa ||| fb ||| r.2)

/-- node(n, 2^k) of R108. -/
def treeNode (op : Nat → Nat → FRes) (t : Nat → Node) (n : Nat) : Nat → Node
  | 0 => t n
  | k + 1 => combine op (treeNode op t n k) (treeNode op t (n + 2 ^ k) k)

/-- The inclusive prefix of a lane from the tree nodes (R109): `m` is L + 1, `k` counts the widths down from 2^k. -/
def scanFrom (op : Nat → Nat → FRes) (t : Nat → Node) (m : Nat) : Nat → Nat → Node → Node
  | 0, base, pre => if m % 2 = 1 then combine op pre (treeNode op t base 0) else pre
  | k + 1, base, pre =>
    if (m / 2 ^ (k + 1)) % 2 = 1 then scanFrom op t m k (base + 2 ^ (k + 1)) (combine op pre (treeNode op t base (k + 1)))
    else scanFrom op t m k base pre

/-- The combining operations of REDX and SCANX (R68). -/
def redOp (o : Nat) (rm : Nat) (a b : Nat) : FRes :=
  let x : Word := BitVec.ofNat 32 a
  let y : Word := BitVec.ofNat 32 b
  match o with
  | 0 => ((x + y).toNat, 0#5)
  | 1 => ((if x.slt y then x else y).toNat, 0#5)
  | 2 => ((if x.slt y then y else x).toNat, 0#5)
  | 3 => (min a b, 0#5)
  | 4 => (max a b, 0#5)
  | 5 => ((x &&& y).toNat, 0#5)
  | 6 => ((x ||| y).toNat, 0#5)
  | 7 => ((x ^^^ y).toNat, 0#5)
  | 8 => fadd f32 rm a b
  | 9 => fminmax f32 false a b
  | _ => fminmax f32 true a b

/-- The MODX kinds of a reduction (Table 7.1): kind 1 and 5 on the float operations, kind 3 on FADD. -/
def redModx (o : BitVec 4) : ModxUse :=
  { negA := decide (8 ≤ o.toNat), round := o == 8#4, satFloat := decide (8 ≤ o.toNat), flag := true }

/-- REDX and SCANX: `pick` chooses a lane's node. -/
def reduction (clk : Nat) (o : BitVec 4) (a d : BitVec 8)
    (pick : (Nat → Nat → FRes) → (Nat → Node) → Nat → Node) (s : State) : Out :=
  issue { rd := [.v a 1], wr := [.v d 1], modx := redModx o } s fun s =>
    let op := redOp o.toNat s.rmode
    let t : Nat → Node := fun l => if bitOf s.p.exec l then some ((s.fsrcA sign32 a l).toNat, 0#5) else none
    let all := ((treeNode op t 0 5).map Prod.snd).getD 0#5
    let r : Nat → FRes := fun l => (pick op t l).getD (0, 0#5)
    asyncResult clk [a] d (fun l => BitVec.ofNat 32 (s.satF f32 (r l).1)) (fun l => all ||| (r l).2) s

/-- REDX (R179). -/
def execRedx (o : BitVec 4) (a d : BitVec 8) (s : State) : Out :=
  reduction 14 o a d (fun op t _ => treeNode op t 0 5) s

/-- SCANX (R179). -/
def execScanx (o : BitVec 4) (a d : BitVec 8) (s : State) : Out :=
  reduction 18 o a d (fun op t l => scanFrom op t (l + 1) 5 0 none) s

/-! ## Primitive assembly (R181, R182) -/

/-- The coordinates of a lane's triangle: x0, y0, x1, y1, x2, y2 are registers `a` to `a + 5`. -/
def State.coord (s : State) (a : BitVec 8) (k l : Nat) : Nat := (s.g.vreg (a.toNat + k) l).toNat

/-- One f32 RNE operation after another, the flags gathered. -/
def fsubR (x y : FRes) : FRes := let r := fsub f32 0 x.1 y.1; (r.1, x.2 ||| y.2 ||| r.2)
def fmulR (x y : FRes) : FRes := let r := fmul f32 0 x.1 y.1; (r.1, x.2 ||| y.2 ||| r.2)
def fdivR (x y : FRes) : FRes := let r := fdiv f32 0 x.1 y.1; (r.1, x.2 ||| y.2 ||| r.2)

/-- (x1 - x0) × (y2 - y0) - (x2 - x0) × (y1 - y0), each operation one f32 RNE operation (R181). -/
def triArea (x0 y0 x1 y1 x2 y2 : Nat) : FRes :=
  let v := fun x : Nat => ((x, 0#5) : FRes)
  fsubR (fmulR (fsubR (v x1) (v x0)) (fsubR (v y2) (v y0))) (fmulR (fsubR (v x2) (v x0)) (fsubR (v y1) (v y0)))

/-- Whether any of a lane's six coordinates is a NaN. -/
def State.coordNaN (s : State) (a : BitVec 8) (l : Nat) : Bool :=
  (List.range 6).any fun k => (unpack f32 (s.coord a k l)).isNaN

/-- The area of a lane's triangle. -/
def State.area (s : State) (a : BitVec 8) (l : Nat) : FRes :=
  triArea (s.coord a 0 l) (s.coord a 1 l) (s.coord a 2 l) (s.coord a 3 l) (s.coord a 4 l) (s.coord a 5 l)

/-- Whether CULLBF culls a triangle of an area, under the bits of b (Table 7.8). -/
def culledBack (area : Nat) (b : Word) : Bool :=
  if funo f32 area area then true
  else if feq f32 area 0 then !b.getLsbD 2
  else !b.getLsbD 1 && (if b.getLsbD 0 then flt f32 0 area else flt f32 area 0)

/-- CULLBF (R181). -/
def execCullbf (b a : BitVec 8) (d : BitVec 7) (s : State) : Out :=
  issue { rd := [.v a 6, .v b 1], wr := [.s d 1] } s fun s =>
    maskResult [b] d (fun l => s.coordNaN a l || culledBack (s.area a l).1 (s.vsource b l)) s

/-- Whether a lane's three values, from coordinate `k` on in steps of 2, all satisfy a test. -/
def State.all3 (s : State) (a : BitVec 8) (k l : Nat) (f : Nat → Bool) : Bool :=
  f (s.coord a k l) && f (s.coord a (k + 2) l) && f (s.coord a (k + 4) l)

/-- CULLFR (R181): the bounds are registers b to b + 3. -/
def execCullfr (b a : BitVec 8) (d : BitVec 7) (s : State) : Out :=
  issue { rd := [.v a 6, .v b 4], wr := [.s d 1] } s fun s =>
    maskResult [] d (fun l =>
      let bound := fun k => (s.g.vreg (b.toNat + k) l).toNat
      s.coordNaN a l || ((List.range 4).any fun k => (unpack f32 (bound k)).isNaN) ||
        s.all3 a 0 l (fun x => flt f32 x (bound 0)) || s.all3 a 0 l (fun x => flt f32 (bound 2) x) ||
        s.all3 a 1 l (fun y => flt f32 y (bound 1)) || s.all3 a 1 l (fun y => flt f32 (bound 3) y)) s

/-- x - 0.5 of a finite value as a fraction; its ceiling and its floor, exactly. -/
def halfScaled (neg : Bool) (m : Nat) (e : Int) : Int × Nat :=
  let k := if e < 0 then (-e).toNat + 1 else 1
  let v : Int := ((m * 2 ^ (e + (k : Int)).toNat : Nat) : Int)
  ((if neg then -v else v) - ((2 ^ (k - 1) : Nat) : Int), 2 ^ k)

def halfCeil (neg : Bool) (m : Nat) (e : Int) : Int :=
  let x := halfScaled neg m e
  Int.neg ((-x.1) / (x.2 : Int))

def halfFloor (neg : Bool) (m : Nat) (e : Int) : Int :=
  let x := halfScaled neg m e
  x.1 / (x.2 : Int)

/-- Whether three finite values enclose no pixel centre: ceil(min - 0.5) > floor(max - 0.5) (Table 7.8). -/
def noCentre (x y z : Nat) : Bool :=
  let lo := (fminmax f32 false (fminmax f32 false x y).1 z).1
  let hi := (fminmax f32 true (fminmax f32 true x y).1 z).1
  match unpack f32 lo, unpack f32 hi with
  | .fin a m e, .fin b n k => decide (halfFloor b n k < halfCeil a m e)
  | _, _ => true

/-- Whether an f32 is finite. -/
def isFinite32 (x : Nat) : Bool :=
  match unpack f32 x with
  | .fin _ _ _ => true
  | _ => false

/-- CULLSZ (R181). -/
def execCullsz (a : BitVec 8) (d : BitVec 7) (s : State) : Out :=
  issue { rd := [.v a 6], wr := [.s d 1] } s fun s =>
    maskResult [] d (fun l =>
      ((List.range 6).any fun k => !isFinite32 (s.coord a k l)) ||
        noCentre (s.coord a 0 l) (s.coord a 2 l) (s.coord a 4 l) ||
        noCentre (s.coord a 1 l) (s.coord a 3 l) (s.coord a 5 l)) s

/-- The weights u and v of a lane (R182). -/
def State.bary (s : State) (a b : BitVec 8) (l : Nat) : FRes × FRes :=
  let v := fun k => ((s.coord a k l, 0#5) : FRes)
  let px : FRes := ((s.g.vreg b.toNat l).toNat, 0#5)
  let py : FRes := ((s.g.vreg (b.toNat + 1) l).toNat, 0#5)
  let area := s.area a l
  let e1 := fsubR (fmulR (fsubR px (v 0)) (fsubR (v 5) (v 1))) (fmulR (fsubR (v 4) (v 0)) (fsubR py (v 1)))
  let e2 := fsubR (fmulR (fsubR (v 2) (v 0)) (fsubR py (v 1))) (fmulR (fsubR px (v 0)) (fsubR (v 3) (v 1)))
  (fdivR e1 area, fdivR e2 area)

/-- BARY (R182): result-forming with y0 := u and y1 := v. -/
def execBary (b a d : BitVec 8) (s : State) : Out :=
  issue { rd := [.v a 6, .v b 2], wr := [.v d 2] } s fun s =>
    let u : Lanes := fun l => BitVec.ofNat 32 (s.bary a b l).1.1
    let v : Lanes := fun l => BitVec.ofNat 32 (s.bary a b l).2.1
    withFlags s (fun l => (s.bary a b l).1.2 ||| (s.bary a b l).2.2) fun s' =>
      .next (((s'.putV d.toNat s'.p.exec u).putV (d.toNat + 1) s'.p.exec v).formY64 u v).retire

end Sys2Proof.Machine
end

