-- ==== Sys2Proof/Machine/Dispatch.lean ====
section
/-! DEFINITION. Sys2Proof/Machine/Dispatch.lean: one arm for each constructor of Instr, a direct call of its meaning. -/

namespace Sys2Proof.Machine

/-- The meaning of a step of the module. -/
def exec (i : Instr) (s : State) : Host.Outcome State Fault Refusal :=
  match i with
  | .clauseHeader y x b a w => Sys2Proof.Machine.execClauseHeader y x b a w s
  | .modxLaneSelect p => Sys2Proof.Machine.execModxLaneSelect p s
  | .modxNegateAbs p => Sys2Proof.Machine.execModxNegateAbs p s
  | .modxAddress p => Sys2Proof.Machine.execModxAddress p s
  | .modxRounding p => Sys2Proof.Machine.execModxRounding p s
  | .modxSetb => Sys2Proof.Machine.execModxSetb s
  | .modxSaturate n => Sys2Proof.Machine.execModxSaturate n s
  | .nop => Sys2Proof.Machine.execNop s
  | .mov16 b d => Sys2Proof.Machine.execMov16 b d s
  | .iadd16 b d => Sys2Proof.Machine.execIadd16 b d s
  | .isub16 b d => Sys2Proof.Machine.execIsub16 b d s
  | .and16 b d => Sys2Proof.Machine.execAnd16 b d s
  | .or16 b d => Sys2Proof.Machine.execOr16 b d s
  | .xor16 b d => Sys2Proof.Machine.execXor16 b d s
  | .shl16 b d => Sys2Proof.Machine.execShl16 b d s
  | .shr16 b d => Sys2Proof.Machine.execShr16 b d s
  | .sar16 b d => Sys2Proof.Machine.execSar16 b d s
  | .iminI16 b d => Sys2Proof.Machine.execIminI16 b d s
  | .imaxI16 b d => Sys2Proof.Machine.execImaxI16 b d s
  | .fadd16 b d => Sys2Proof.Machine.execFadd16 b d s
  | .fsub16 b d => Sys2Proof.Machine.execFsub16 b d s
  | .fmul16 b d => Sys2Proof.Machine.execFmul16 b d s
  | .fmin16 b d => Sys2Proof.Machine.execFmin16 b d s
  | .fmax16 b d => Sys2Proof.Machine.execFmax16 b d s
  | .bra o => Sys2Proof.Machine.execBra o s
  | .brez o => Sys2Proof.Machine.execBrez o s
  | .brnez o => Sys2Proof.Machine.execBrnez o s
  | .brzS o x => Sys2Proof.Machine.execBrzS o x s
  | .brnzS o x => Sys2Proof.Machine.execBrnzS o x s
  | .brnegS o x => Sys2Proof.Machine.execBrnegS o x s
  | .call o x => Sys2Proof.Machine.execCall o x s
  | .nopW => Sys2Proof.Machine.execNopW s
  | .ret x => Sys2Proof.Machine.execRet x s
  | .jmpi x => Sys2Proof.Machine.execJmpi x s
  | .exit => Sys2Proof.Machine.execExit s
  | .split j b a => Sys2Proof.Machine.execSplit j b a s
  | .join j => Sys2Proof.Machine.execJoin j s
  | .yield => Sys2Proof.Machine.execYield s
  | .sleep n x => Sys2Proof.Machine.execSleep n x s
  | .waitp p x => Sys2Proof.Machine.execWaitp p x s
  | .barTeam b x => Sys2Proof.Machine.execBarTeam b x s
  | .barClu b x => Sys2Proof.Machine.execBarClu b x s
  | .barScope c k x => Sys2Proof.Machine.execBarScope c k x s
  | .waitx m x => Sys2Proof.Machine.execWaitx m x s
  | .gangset x => Sys2Proof.Machine.execGangset x s
  | .trap n => Sys2Proof.Machine.execTrap n s
  | .eret => Sys2Proof.Machine.execEret s
  | .halt => Sys2Proof.Machine.execHalt s
  | .bkpt n => Sys2Proof.Machine.execBkpt n s
  | .rcommit => Sys2Proof.Machine.execRcommit s
  | .txbegin => Sys2Proof.Machine.execTxbegin s
  | .txend d => Sys2Proof.Machine.execTxend d s
  | .txabort n => Sys2Proof.Machine.execTxabort n s
  | .fence c => Sys2Proof.Machine.execFence c s
  | .sadd b a d => Sys2Proof.Machine.execSadd b a d s
  | .ssub b a d => Sys2Proof.Machine.execSsub b a d s
  | .smul b a d => Sys2Proof.Machine.execSmul b a d s
  | .smulhI b a d => Sys2Proof.Machine.execSmulhI b a d s
  | .smulhN b a d => Sys2Proof.Machine.execSmulhN b a d s
  | .sminI b a d => Sys2Proof.Machine.execSminI b a d s
  | .smaxI b a d => Sys2Proof.Machine.execSmaxI b a d s
  | .sminN b a d => Sys2Proof.Machine.execSminN b a d s
  | .smaxN b a d => Sys2Proof.Machine.execSmaxN b a d s
  | .sand b a d => Sys2Proof.Machine.execSand b a d s
  | .sor b a d => Sys2Proof.Machine.execSor b a d s
  | .sxor b a d => Sys2Proof.Machine.execSxor b a d s
  | .sandn b a d => Sys2Proof.Machine.execSandn b a d s
  | .sshl b a d => Sys2Proof.Machine.execSshl b a d s
  | .sshr b a d => Sys2Proof.Machine.execSshr b a d s
  | .ssar b a d => Sys2Proof.Machine.execSsar b a d s
  | .scmpEq b a d => Sys2Proof.Machine.execScmpEq b a d s
  | .scmpNe b a d => Sys2Proof.Machine.execScmpNe b a d s
  | .scmpLtI b a d => Sys2Proof.Machine.execScmpLtI b a d s
  | .scmpLeI b a d => Sys2Proof.Machine.execScmpLeI b a d s
  | .scmpLtN b a d => Sys2Proof.Machine.execScmpLtN b a d s
  | .scmpLeN b a d => Sys2Proof.Machine.execScmpLeN b a d s
  | .ssel b a d => Sys2Proof.Machine.execSsel b a d s
  | .sclz a d => Sys2Proof.Machine.execSclz a d s
  | .spopc a d => Sys2Proof.Machine.execSpopc a d s
  | .sbrev a d => Sys2Proof.Machine.execSbrev a d s
  | .sctz a d => Sys2Proof.Machine.execSctz a d s
  | .sadd64 b a d => Sys2Proof.Machine.execSadd64 b a d s
  | .ssub64 b a d => Sys2Proof.Machine.execSsub64 b a d s
  | .sshl64 b a d => Sys2Proof.Machine.execSshl64 b a d s
  | .sshr64 b a d => Sys2Proof.Machine.execSshr64 b a d s
  | .smul64 b a d => Sys2Proof.Machine.execSmul64 b a d s
  | .saddi imm a d => Sys2Proof.Machine.execSaddi imm a d s
  | .sandi imm a d => Sys2Proof.Machine.execSandi imm a d s
  | .sshli imm a d => Sys2Proof.Machine.execSshli imm a d s
  | .sshri imm a d => Sys2Proof.Machine.execSshri imm a d s
  | .slti imm a d => Sys2Proof.Machine.execSlti imm a d s
  | .srd n d => Sys2Proof.Machine.execSrd n d s
  | .swr n a => Sys2Proof.Machine.execSwr n a s
  | .sysClockRead d => Sys2Proof.Machine.execSysClockRead d s
  | .sysGangWrite a => Sys2Proof.Machine.execSysGangWrite a s
  | .sysFpflagsWrite a => Sys2Proof.Machine.execSysFpflagsWrite a s
  | .sysFaultmaskClear a => Sys2Proof.Machine.execSysFaultmaskClear a s
  | .contextRegisterWrite n a => Sys2Proof.Machine.execContextRegisterWrite n a s
  | .preemptRequest core mask => Sys2Proof.Machine.execPreemptRequest core mask s
  | .contextSuspend ctx => Sys2Proof.Machine.execContextSuspend ctx s
  | .contextResume ctx => Sys2Proof.Machine.execContextResume ctx s
  | .contextMarkFailed ctx => Sys2Proof.Machine.execContextMarkFailed ctx s
  | .tlbinvRange b a d => Sys2Proof.Machine.execTlbinvRange b a d s
  | .tlbinvCtx a d => Sys2Proof.Machine.execTlbinvCtx a d s
  | .dharv b a d => Sys2Proof.Machine.execDharv b a d s
  | .tagpurge a => Sys2Proof.Machine.execTagpurge a s
  | .iadd b a d => Sys2Proof.Machine.execIadd b a d s
  | .isub b a d => Sys2Proof.Machine.execIsub b a d s
  | .imul b a d => Sys2Proof.Machine.execImul b a d s
  | .imulhI b a d => Sys2Proof.Machine.execImulhI b a d s
  | .imulhN b a d => Sys2Proof.Machine.execImulhN b a d s
  | .imad b a d => Sys2Proof.Machine.execImad b a d s
  | .iminI b a d => Sys2Proof.Machine.execIminI b a d s
  | .imaxI b a d => Sys2Proof.Machine.execImaxI b a d s
  | .iminN b a d => Sys2Proof.Machine.execIminN b a d s
  | .imaxN b a d => Sys2Proof.Machine.execImaxN b a d s
  | .and b a d => Sys2Proof.Machine.execAnd b a d s
  | .or b a d => Sys2Proof.Machine.execOr b a d s
  | .xor b a d => Sys2Proof.Machine.execXor b a d s
  | .andn b a d => Sys2Proof.Machine.execAndn b a d s
  | .shl b a d => Sys2Proof.Machine.execShl b a d s
  | .shr b a d => Sys2Proof.Machine.execShr b a d s
  | .sar b a d => Sys2Proof.Machine.execSar b a d s
  | .rol b a d => Sys2Proof.Machine.execRol b a d s
  | .clz a d => Sys2Proof.Machine.execClz a d s
  | .popc a d => Sys2Proof.Machine.execPopc a d s
  | .brev a d => Sys2Proof.Machine.execBrev a d s
  | .ctz a d => Sys2Proof.Machine.execCtz a d s
  | .iabs a d => Sys2Proof.Machine.execIabs a d s
  | .ineg a d => Sys2Proof.Machine.execIneg a d s
  | .frcp a d => Sys2Proof.Machine.execFrcp a d s
  | .frsq a d => Sys2Proof.Machine.execFrsq a d s
  | .fsqrt a d => Sys2Proof.Machine.execFsqrt a d s
  | .fexp2 a d => Sys2Proof.Machine.execFexp2 a d s
  | .flog2 a d => Sys2Proof.Machine.execFlog2 a d s
  | .fsin a d => Sys2Proof.Machine.execFsin a d s
  | .fcos a d => Sys2Proof.Machine.execFcos a d s
  | .ffract a d => Sys2Proof.Machine.execFfract a d s
  | .frintRne a d => Sys2Proof.Machine.execFrintRne a d s
  | .frintRtz a d => Sys2Proof.Machine.execFrintRtz a d s
  | .frintRdn a d => Sys2Proof.Machine.execFrintRdn a d s
  | .frintRup a d => Sys2Proof.Machine.execFrintRup a d s
  | .bfe b a d => Sys2Proof.Machine.execBfe b a d s
  | .bfi b a d => Sys2Proof.Machine.execBfi b a d s
  | .ilv2 b a d => Sys2Proof.Machine.execIlv2 b a d s
  | .ilv3 b a d => Sys2Proof.Machine.execIlv3 b a d s
  | .dilv2 b a d => Sys2Proof.Machine.execDilv2 b a d s
  | .dilv3 b a d => Sys2Proof.Machine.execDilv3 b a d s
  | .fadd b a d => Sys2Proof.Machine.execFadd b a d s
  | .fsub b a d => Sys2Proof.Machine.execFsub b a d s
  | .fmul b a d => Sys2Proof.Machine.execFmul b a d s
  | .ffma b a d => Sys2Proof.Machine.execFfma b a d s
  | .fmin b a d => Sys2Proof.Machine.execFmin b a d s
  | .fmax b a d => Sys2Proof.Machine.execFmax b a d s
  | .fdiv b a d => Sys2Proof.Machine.execFdiv b a d s
  | .fcpys b a d => Sys2Proof.Machine.execFcpys b a d s
  | .hadd2 b a d => Sys2Proof.Machine.execHadd2 b a d s
  | .hmul2 b a d => Sys2Proof.Machine.execHmul2 b a d s
  | .hfma2 b a d => Sys2Proof.Machine.execHfma2 b a d s
  | .bfma2 b a d => Sys2Proof.Machine.execBfma2 b a d s
  | .dadd b a d => Sys2Proof.Machine.execDadd b a d s
  | .dmul b a d => Sys2Proof.Machine.execDmul b a d s
  | .dfma b a d => Sys2Proof.Machine.execDfma b a d s
  | .ddiv b a d => Sys2Proof.Machine.execDdiv b a d s
  | .icmpEq b a d => Sys2Proof.Machine.execIcmpEq b a d s
  | .icmpNe b a d => Sys2Proof.Machine.execIcmpNe b a d s
  | .icmpLtI b a d => Sys2Proof.Machine.execIcmpLtI b a d s
  | .icmpLeI b a d => Sys2Proof.Machine.execIcmpLeI b a d s
  | .icmpLtN b a d => Sys2Proof.Machine.execIcmpLtN b a d s
  | .icmpLeN b a d => Sys2Proof.Machine.execIcmpLeN b a d s
  | .fcmpEq b a d => Sys2Proof.Machine.execFcmpEq b a d s
  | .fcmpNe b a d => Sys2Proof.Machine.execFcmpNe b a d s
  | .fcmpLt b a d => Sys2Proof.Machine.execFcmpLt b a d s
  | .fcmpLe b a d => Sys2Proof.Machine.execFcmpLe b a d s
  | .fcmpUn b a d => Sys2Proof.Machine.execFcmpUn b a d s
  | .vote a d => Sys2Proof.Machine.execVote a d s
  | .sel x a d => Sys2Proof.Machine.execSel x a d s
  | .movs x d => Sys2Proof.Machine.execMovs x d s
  | .lea x a d => Sys2Proof.Machine.execLea x a d s
  | .readlane x a d => Sys2Proof.Machine.execReadlane x a d s
  | .iaddi imm a d => Sys2Proof.Machine.execIaddi imm a d s
  | .shli n a d => Sys2Proof.Machine.execShli n a d s
  | .shri n a d => Sys2Proof.Machine.execShri n a d s
  | .sari n a d => Sys2Proof.Machine.execSari n a d s
  | .shflXor k a d => Sys2Proof.Machine.execShflXor k a d s
  | .shflUp f n a d => Sys2Proof.Machine.execShflUp f n a d s
  | .shflDn f n a d => Sys2Proof.Machine.execShflDn f n a d s
  | .sext w a d => Sys2Proof.Machine.execSext w a d s
  | .shflIdx b a d => Sys2Proof.Machine.execShflIdx b a d s
  | .fclass a d => Sys2Proof.Machine.execFclass a d s
  | .redx o a d => Sys2Proof.Machine.execRedx o a d s
  | .scanx o a d => Sys2Proof.Machine.execScanx o a d s
  | .cvtF32I32 r a d => Sys2Proof.Machine.execCvtF32I32 r a d s
  | .cvtF32N32 r a d => Sys2Proof.Machine.execCvtF32N32 r a d s
  | .cvtI32F32 x r a d => Sys2Proof.Machine.execCvtI32F32 x r a d s
  | .cvtN32F32 x r a d => Sys2Proof.Machine.execCvtN32F32 x r a d s
  | .cvtF64F32 a d => Sys2Proof.Machine.execCvtF64F32 a d s
  | .cvtF32F64 x r a d => Sys2Proof.Machine.execCvtF32F64 x r a d s
  | .cvtF64I32 a d => Sys2Proof.Machine.execCvtF64I32 a d s
  | .cvtF64N32 a d => Sys2Proof.Machine.execCvtF64N32 a d s
  | .cvtI32F64 x r a d => Sys2Proof.Machine.execCvtI32F64 x r a d s
  | .cvtN32F64 x r a d => Sys2Proof.Machine.execCvtN32F64 x r a d s
  | .cvtF16F32 x r a d => Sys2Proof.Machine.execCvtF16F32 x r a d s
  | .cvtF32F16 a d => Sys2Proof.Machine.execCvtF32F16 a d s
  | .cvtBf16F32 x r a d => Sys2Proof.Machine.execCvtBf16F32 x r a d s
  | .cvtF32Bf16 a d => Sys2Proof.Machine.execCvtF32Bf16 a d s
  | .cvtI64F64 x r a d => Sys2Proof.Machine.execCvtI64F64 x r a d s
  | .cvtN64F64 x r a d => Sys2Proof.Machine.execCvtN64F64 x r a d s
  | .cvtF64I64 r a d => Sys2Proof.Machine.execCvtF64I64 r a d s
  | .cvtF64N64 r a d => Sys2Proof.Machine.execCvtF64N64 r a d s
  | .cvtI16I32 x a d => Sys2Proof.Machine.execCvtI16I32 x a d s
  | .cvtN16N32 x a d => Sys2Proof.Machine.execCvtN16N32 x a d s
  | .cvtI8I32 x a d => Sys2Proof.Machine.execCvtI8I32 x a d s
  | .cvtN8N32 x a d => Sys2Proof.Machine.execCvtN8N32 x a d s
  | .cvtFp19F32 x r a d => Sys2Proof.Machine.execCvtFp19F32 x r a d s
  | .cvtF32Fp19 a d => Sys2Proof.Machine.execCvtF32Fp19 a d s
  | .cullbf b a d => Sys2Proof.Machine.execCullbf b a d s
  | .cullfr b a d => Sys2Proof.Machine.execCullfr b a d s
  | .cullsz a d => Sys2Proof.Machine.execCullsz a d s
  | .bary b a d => Sys2Proof.Machine.execBary b a d s
  | .spld x a d z => Sys2Proof.Machine.execSpld x a d z s
  | .spst x a d z => Sys2Proof.Machine.execSpst x a d z s
  | .spatXchg x a d => Sys2Proof.Machine.execSpatXchg x a d s
  | .spatCas x a d => Sys2Proof.Machine.execSpatCas x a d s
  | .spatIadd x a d => Sys2Proof.Machine.execSpatIadd x a d s
  | .spatIminI x a d => Sys2Proof.Machine.execSpatIminI x a d s
  | .spatImaxI x a d => Sys2Proof.Machine.execSpatImaxI x a d s
  | .spatIminN x a d => Sys2Proof.Machine.execSpatIminN x a d s
  | .spatImaxN x a d => Sys2Proof.Machine.execSpatImaxN x a d s
  | .spatAnd x a d => Sys2Proof.Machine.execSpatAnd x a d s
  | .spatOr x a d => Sys2Proof.Machine.execSpatOr x a d s
  | .spatXor x a d => Sys2Proof.Machine.execSpatXor x a d s
  | .spatFadd x a d => Sys2Proof.Machine.execSpatFadd x a d s
  | .spatFmin x a d => Sys2Proof.Machine.execSpatFmin x a d s
  | .spatFmax x a d => Sys2Proof.Machine.execSpatFmax x a d s
  | .ctins f t a d => Sys2Proof.Machine.execCtins f t a d s
  | .ctprb f t a d => Sys2Proof.Machine.execCtprb f t a d s
  | .ctdel f t a d => Sys2Proof.Machine.execCtdel f t a d s
  | .ctacc f t a d => Sys2Proof.Machine.execCtacc f t a d s
  | .ctinit d a => Sys2Proof.Machine.execCtinit d a s
  | .ctfree a => Sys2Proof.Machine.execCtfree a s
  | .ctstat d a => Sys2Proof.Machine.execCtstat d a s
  | .ctdrain cur out ctl => Sys2Proof.Machine.execCtdrain cur out ctl s
  | .spmap size va ctl => Sys2Proof.Machine.execSpmap size va ctl s
  | .spunmap m => Sys2Proof.Machine.execSpunmap m s
  | .spwb m => Sys2Proof.Machine.execSpwb m s
  | .ldG x a d z => Sys2Proof.Machine.execLdG x a d z s
  | .ldfwd x a d => Sys2Proof.Machine.execLdfwd x a d s
  | .stG x a d z => Sys2Proof.Machine.execStG x a d z s
  | .stfwd x a d => Sys2Proof.Machine.execStfwd x a d s
  | .atomGXchg x a d => Sys2Proof.Machine.execAtomGXchg x a d s
  | .atomGCas x a d => Sys2Proof.Machine.execAtomGCas x a d s
  | .atomGIadd x a d => Sys2Proof.Machine.execAtomGIadd x a d s
  | .atomGIminI x a d => Sys2Proof.Machine.execAtomGIminI x a d s
  | .atomGImaxI x a d => Sys2Proof.Machine.execAtomGImaxI x a d s
  | .atomGIminN x a d => Sys2Proof.Machine.execAtomGIminN x a d s
  | .atomGImaxN x a d => Sys2Proof.Machine.execAtomGImaxN x a d s
  | .atomGAnd x a d => Sys2Proof.Machine.execAtomGAnd x a d s
  | .atomGOr x a d => Sys2Proof.Machine.execAtomGOr x a d s
  | .atomGXor x a d => Sys2Proof.Machine.execAtomGXor x a d s
  | .atomGFadd x a d => Sys2Proof.Machine.execAtomGFadd x a d s
  | .atomGFmin x a d => Sys2Proof.Machine.execAtomGFmin x a d s
  | .atomGFmax x a d => Sys2Proof.Machine.execAtomGFmax x a d s
  | .redGIadd x a => Sys2Proof.Machine.execRedGIadd x a s
  | .redGIminI x a => Sys2Proof.Machine.execRedGIminI x a s
  | .redGImaxI x a => Sys2Proof.Machine.execRedGImaxI x a s
  | .redGIminN x a => Sys2Proof.Machine.execRedGIminN x a s
  | .redGImaxN x a => Sys2Proof.Machine.execRedGImaxN x a s
  | .redGAnd x a => Sys2Proof.Machine.execRedGAnd x a s
  | .redGOr x a => Sys2Proof.Machine.execRedGOr x a s
  | .redGXor x a => Sys2Proof.Machine.execRedGXor x a s
  | .redGFadd x a => Sys2Proof.Machine.execRedGFadd x a s
  | .redGFmin x a => Sys2Proof.Machine.execRedGFmin x a s
  | .redGFmax x a => Sys2Proof.Machine.execRedGFmax x a s
  | .lds o b d => Sys2Proof.Machine.execLds o b d s
  | .lds64 o b d => Sys2Proof.Machine.execLds64 o b d s
  | .sts o b a => Sys2Proof.Machine.execSts o b a s
  | .sts64 o b a => Sys2Proof.Machine.execSts64 o b a s
  | .pref o b h => Sys2Proof.Machine.execPref o b h s
  | .post arg card target => Sys2Proof.Machine.execPost arg card target s
  | .depdec b => Sys2Proof.Machine.execDepdec b s
  | .ringarr r => Sys2Proof.Machine.execRingarr r s
  | .ringwait p r => Sys2Proof.Machine.execRingwait p r s
  | .mboxsend m v => Sys2Proof.Machine.execMboxsend m v s
  | .cpTensor d => Sys2Proof.Machine.execCpTensor d s
  | .cpGather d => Sys2Proof.Machine.execCpGather d s
  | .cpScatter d => Sys2Proof.Machine.execCpScatter d s
  | .cpMcast d => Sys2Proof.Machine.execCpMcast d s
  | .cpPack d => Sys2Proof.Machine.execCpPack d s
  | .cpUnpack d => Sys2Proof.Machine.execCpUnpack d s
  | .cpFill d => Sys2Proof.Machine.execCpFill d s
  | .cpCancel b => Sys2Proof.Machine.execCpCancel b s
  | .barinit e o => Sys2Proof.Machine.execBarinit e o s
  | .barexp n o => Sys2Proof.Machine.execBarexp n o s
  | .barwait p o d => Sys2Proof.Machine.execBarwait p o d s
  | .bartest o d => Sys2Proof.Machine.execBartest o d s
  | .tagalloc c d => Sys2Proof.Machine.execTagalloc c d s
  | .tagallocTree n c d => Sys2Proof.Machine.execTagallocTree n c d s
  | .tagfree t => Sys2Proof.Machine.execTagfree t s
  | .fsend m o => Sys2Proof.Machine.execFsend m o s
  | .tagqry t d => Sys2Proof.Machine.execTagqry t d s
  | .mma p t o c b a k => Sys2Proof.Machine.execMma p t o c b a k s
  | .oclaim x imm => Sys2Proof.Machine.execOclaim x imm s
  | .orelease imm => Sys2Proof.Machine.execOrelease imm s
  | .osetfmt x imm => Sys2Proof.Machine.execOsetfmt x imm s
  | .aclaim x imm => Sys2Proof.Machine.execAclaim x imm s
  | .arelease imm => Sys2Proof.Machine.execArelease imm s
  | .ainit imm => Sys2Proof.Machine.execAinit imm s
  | .ainitSet x imm => Sys2Proof.Machine.execAinitSet x imm s
  | .ainitSlot x imm => Sys2Proof.Machine.execAinitSlot x imm s
  | .ald x imm d => Sys2Proof.Machine.execAld x imm d s
  | .aldCol x imm d => Sys2Proof.Machine.execAldCol x imm d s
  | .aldStat imm d => Sys2Proof.Machine.execAldStat imm d s
  | .ast x imm d => Sys2Proof.Machine.execAst x imm d s
  | .astCol x imm d => Sys2Proof.Machine.execAstCol x imm d s
  | .qbfp x imm d => Sys2Proof.Machine.execQbfp x imm d s
  | .ofill x imm d => Sys2Proof.Machine.execOfill x imm d s
  | .oread x imm d => Sys2Proof.Machine.execOread x imm d s
  | .oreadRec imm d => Sys2Proof.Machine.execOreadRec imm d s
  | .rtrace x a d => Sys2Proof.Machine.execRtrace x a d s
  | .rtany x a d => Sys2Proof.Machine.execRtany x a d s
  | .rtqry x a d => Sys2Proof.Machine.execRtqry x a d s
  | .ltwalk x a d => Sys2Proof.Machine.execLtwalk x a d s
  | .ltpdf x a d => Sys2Proof.Machine.execLtpdf x a d s
  | .texld x a d => Sys2Proof.Machine.execTexld x a d s
  | .texg x a d => Sys2Proof.Machine.execTexg x a d s
  | .rngctr a d => Sys2Proof.Machine.execRngctr a d s
  | .rngf a d => Sys2Proof.Machine.execRngf a d s
  | .rsvinit d => Sys2Proof.Machine.execRsvinit d s
  | .rsvupd a d => Sys2Proof.Machine.execRsvupd a d s
  | .rsvmrg a d => Sys2Proof.Machine.execRsvmrg a d s
  | .rsvnorm d => Sys2Proof.Machine.execRsvnorm d s
  | .rsvld x a d => Sys2Proof.Machine.execRsvld x a d s
  | .rsvst x a d => Sys2Proof.Machine.execRsvst x a d s
  | .reuse x => Sys2Proof.Machine.execReuse x s
  | .tgtret a d => Sys2Proof.Machine.execTgtret a d s
  | .brimx x => Sys2Proof.Machine.execBrimx x s
  | .splitPromotion core slot split => Sys2Proof.Machine.execSplitPromotion core slot split s
  | .sleepExpiry core slot split => Sys2Proof.Machine.execSleepExpiry core slot split s
  | .flagOperationComplete core slot op => Sys2Proof.Machine.execFlagOperationComplete core slot op s
  | .globalLoadReturn core slot op => Sys2Proof.Machine.execGlobalLoadReturn core slot op s
  | .regionCommit core slot => Sys2Proof.Machine.execRegionCommit core slot s
  | .reservationLapse line => Sys2Proof.Machine.execReservationLapse line s
  | .capacityCommit core slot => Sys2Proof.Machine.execCapacityCommit core slot s
  | .atomicCommit core slot op => Sys2Proof.Machine.execAtomicCommit core slot op s
  | .lineFill team map line => Sys2Proof.Machine.execLineFill team map line s
  | .peerScratchpadAccess msg => Sys2Proof.Machine.execPeerScratchpadAccess msg s
  | .copyCommandStart core cmd => Sys2Proof.Machine.execCopyCommandStart core cmd s
  | .copyRowComplete core cmd => Sys2Proof.Machine.execCopyRowComplete core cmd s
  | .copyFault core cmd => Sys2Proof.Machine.execCopyFault core cmd s
  | .copyRestart core cmd => Sys2Proof.Machine.execCopyRestart core cmd s
  | .copyResume core cmd terminate => Sys2Proof.Machine.execCopyResume core cmd terminate s
  | .mmaStart core mma => Sys2Proof.Machine.execMmaStart core mma s
  | .mmaComplete core mma => Sys2Proof.Machine.execMmaComplete core mma s
  | .signalStore sender die box value => Sys2Proof.Machine.execSignalStore sender die box value s
  | .fullingOperandArrival msg => Sys2Proof.Machine.execFullingOperandArrival msg s
  | .fullingSpillRefill ctx capacity => Sys2Proof.Machine.execFullingSpillRefill ctx capacity s
  | .fullingReload node => Sys2Proof.Machine.execFullingReload node s
  | .fsendRetry msg => Sys2Proof.Machine.execFsendRetry msg s
  | .fsendOverflow msg => Sys2Proof.Machine.execFsendOverflow msg s
  | .orphanExpiry msg => Sys2Proof.Machine.execOrphanExpiry msg s
  | .spillSweep node => Sys2Proof.Machine.execSpillSweep node s
  | .fullingDelivery msg => Sys2Proof.Machine.execFullingDelivery msg s
  | .heldDeliveryExpiry msg => Sys2Proof.Machine.execHeldDeliveryExpiry msg s
  | .teamPlacement die => Sys2Proof.Machine.execTeamPlacement die s
  | .launchMessage block => Sys2Proof.Machine.execLaunchMessage block s
  | .teamEnd team => Sys2Proof.Machine.execTeamEnd team s
  | .gridEnd grid => Sys2Proof.Machine.execGridEnd grid s
  | .pageWalk core ctx va kind => Sys2Proof.Machine.execPageWalk core ctx va kind s
  | .migratingRetry core ctx va kind => Sys2Proof.Machine.execMigratingRetry core ctx va kind s
  | .invalidationAck req => Sys2Proof.Machine.execInvalidationAck req s
  | .supervisorEntry core => Sys2Proof.Machine.execSupervisorEntry core s
  | .hostTrapAction core slot action hwm => Sys2Proof.Machine.execHostTrapAction core slot action hwm s
  | .preemptSave core tslot => Sys2Proof.Machine.execPreemptSave core tslot s
  | .preemptLimitExpiry core tslot => Sys2Proof.Machine.execPreemptLimitExpiry core tslot s
  | .watchdog team => Sys2Proof.Machine.execWatchdog team s
  | .debugHalt core => Sys2Proof.Machine.execDebugHalt core s
  | .debugResume core => Sys2Proof.Machine.execDebugResume core s
  | .peerLinkDown port => Sys2Proof.Machine.execPeerLinkDown port s
  | .peerLinkUp port => Sys2Proof.Machine.execPeerLinkUp port s
  | .flitReplay link => Sys2Proof.Machine.execFlitReplay link s
  | .uncorrectableFlit link line core slot control => Sys2Proof.Machine.execUncorrectableFlit link line core slot control s
  | .moduleLaneFailure link => Sys2Proof.Machine.execModuleLaneFailure link s
  | .powerThrottle die => Sys2Proof.Machine.execPowerThrottle die s
  | .thermalThrottle die => Sys2Proof.Machine.execThermalThrottle die s
  | .thermtrip => Sys2Proof.Machine.execThermtrip s
  | .reset => Sys2Proof.Machine.execReset s
  | .attestationRequest nonce => Sys2Proof.Machine.execAttestationRequest nonce s
  | .slPin line => Sys2Proof.Machine.execSlPin line s
  | .slUnpin line => Sys2Proof.Machine.execSlUnpin line s
  | .slBypassClear slice mask => Sys2Proof.Machine.execSlBypassClear slice mask s
  | .contextBindingWrite index ctx port remote => Sys2Proof.Machine.execContextBindingWrite index ctx port remote s
  | .controlNodeMemoryAccess pa msg write => Sys2Proof.Machine.execControlNodeMemoryAccess pa msg write s
  | .shootdownRequest ctx va pages => Sys2Proof.Machine.execShootdownRequest ctx va pages s
  | .harvestRequest ctx va pages => Sys2Proof.Machine.execHarvestRequest ctx va pages s
  | .cardingSpillAllocation team table base refuse => Sys2Proof.Machine.execCardingSpillAllocation team table base refuse s
  | .dramScrub line => Sys2Proof.Machine.execDramScrub line s
  | .sramScrub line => Sys2Proof.Machine.execSramScrub line s
  | .scrublate => Sys2Proof.Machine.execScrublate s
  | .ucieRetraining link => Sys2Proof.Machine.execUcieRetraining link s
  | .gddr7Retraining device => Sys2Proof.Machine.execGddr7Retraining device s
  | .agingMonitor => Sys2Proof.Machine.execAgingMonitor s
  | .flashWearLevelling => Sys2Proof.Machine.execFlashWearLevelling s
  | .telemetry => Sys2Proof.Machine.execTelemetry s
  | .rayUnitComplete core op => Sys2Proof.Machine.execRayUnitComplete core op s
  | .rayLaneRestart core op lane => Sys2Proof.Machine.execRayLaneRestart core op lane s
  | .reuseJobStart core job => Sys2Proof.Machine.execReuseJobStart core job s
  | .reuseBatch core job => Sys2Proof.Machine.execReuseBatch core job s
  | .reuseMerge core job => Sys2Proof.Machine.execReuseMerge core job s
  | .reuseJobComplete core job => Sys2Proof.Machine.execReuseJobComplete core job s
  | .brimArrival core op => Sys2Proof.Machine.execBrimArrival core op s
  | .illegalEncoding word => Sys2Proof.Machine.execIllegalEncoding word s
  | .tagNodeAcknowledgement req => Sys2Proof.Machine.execTagNodeAcknowledgement req s
  | .dirtyHarvestComplete req => Sys2Proof.Machine.execDirtyHarvestComplete req s
  | .zeroingComplete core slot => Sys2Proof.Machine.execZeroingComplete core slot s
  | .taskQueueAcceptance msg => Sys2Proof.Machine.execTaskQueueAcceptance msg s
  | .thermalThrottleEnd die => Sys2Proof.Machine.execThermalThrottleEnd die s
  | .peerPortRequest port pa msg write => Sys2Proof.Machine.execPeerPortRequest port pa msg write s

end Sys2Proof.Machine
end

