-- ==== Sys2Proof/Decode.lean ====
section
/-! DEFINITION. Sys2Proof/Decode.lean: from code bytes to an instruction (R30, R62, R65-R70) and back. The decoder reads the fields
each row of Tables 3.1, 3.2 and 3.5 gives, checks the fixed bits, then the static checks of WellFormed; what is left is refused by
name and raises ILLEGAL when it is run. (Lean's compiler cannot build a value of an inductive with more than 244 constructors, so
what builds an Instr is marked noncomputable; the kernel evaluates it all the same.) The encoder writes the same words field by field from the high bits down. -/

namespace Sys2Proof

/-- Why bytes are no instruction. -/
inductive DecodeError where
  /-- fewer bytes than the instruction's units -/
  | tooShort
  /-- a major, sub-op or fixed field that no row assigns (R65-R70, R76) -/
  | unassigned
  /-- an assigned row whose operand fields break a static rule (Table 3.11) -/
  | illFormed
deriving DecidableEq, Repr

/-- The code units of an instruction: one halfword (R51) or one word (R50). -/
inductive Units where
  | half (h : BitVec 16)
  | word (w : BitVec 32)
deriving DecidableEq, Repr

/-- `len` bits of a word from bit `lo` (R1). -/
abbrev bitsOf (w : BitVec 32) (lo len : Nat) : BitVec len := w.extractLsb' lo len

/-- A 16-bit instruction (R51, Table 2.8); 0x5000 is the canonical NOP. Every even halfword is one (R63). -/
def decode16 (h : BitVec 16) : Option Instr :=
  let b := h.extractLsb' 11 5
  let d := h.extractLsb' 5 6
  if h = 0x5000#16 then some .nop
  else if h.extractLsb' 0 1 = 1#1 then none
  else
    match (h.extractLsb' 1 4).toNat with
    | 0 => some (.mov16 b d)
    | 1 => some (.iadd16 b d)
    | 2 => some (.isub16 b d)
    | 3 => some (.and16 b d)
    | 4 => some (.or16 b d)
    | 5 => some (.xor16 b d)
    | 6 => some (.shl16 b d)
    | 7 => some (.shr16 b d)
    | 8 => some (.sar16 b d)
    | 9 => some (.iminI16 b d)
    | 10 => some (.imaxI16 b d)
    | 11 => some (.fadd16 b d)
    | 12 => some (.fsub16 b d)
    | 13 => some (.fmul16 b d)
    | 14 => some (.fmin16 b d)
    | 15 => some (.fmax16 b d)
    | _ => none

/-- Major 0x00: CLAUSE_HEADER. -/
def decodeMajor0 (w : BitVec 32) : Option Instr :=
  if bitsOf w 29 3 = 0#3 then some (.clauseHeader (bitsOf w 28 1) (bitsOf w 27 1) (bitsOf w 23 4) (bitsOf w 19 4) (bitsOf w 7 12))
  else none

/-- Major 0x01: MODX_LANE_SELECT, MODX_NEGATE_ABS, MODX_ADDRESS, MODX_ROUNDING, MODX_SETB, MODX_SATURATE. -/
def decodeMajor1 (w : BitVec 32) : Option Instr :=
  if bitsOf w 29 3 = 0#3 ∧ bitsOf w 7 4 = 0#4 then some (.modxLaneSelect (bitsOf w 11 18))
  else if bitsOf w 17 15 = 0#15 ∧ bitsOf w 7 4 = 1#4 then some (.modxNegateAbs (bitsOf w 11 6))
  else if bitsOf w 21 11 = 0#11 ∧ bitsOf w 7 4 = 2#4 then some (.modxAddress (bitsOf w 11 10))
  else if bitsOf w 14 18 = 0#18 ∧ bitsOf w 7 4 = 3#4 then some (.modxRounding (bitsOf w 11 3))
  else if bitsOf w 7 25 = 4#25 then some (.modxSetb)
  else if bitsOf w 12 20 = 0#20 ∧ bitsOf w 7 4 = 5#4 then some (.modxSaturate (bitsOf w 11 1))
  else none

/-- Major 0x02: BRA, BREZ, BRNEZ, BRZ_S, BRNZ_S, BRNEG_S, CALL. -/
def decodeMajor2 (w : BitVec 32) : Option Instr :=
  if bitsOf w 7 10 = 0#10 then some (.bra (bitsOf w 17 15))
  else if bitsOf w 7 10 = 128#10 then some (.brez (bitsOf w 17 15))
  else if bitsOf w 7 10 = 256#10 then some (.brnez (bitsOf w 17 15))
  else if bitsOf w 14 3 = 3#3 then some (.brzS (bitsOf w 17 15) (bitsOf w 7 7))
  else if bitsOf w 14 3 = 4#3 then some (.brnzS (bitsOf w 17 15) (bitsOf w 7 7))
  else if bitsOf w 14 3 = 5#3 then some (.brnegS (bitsOf w 17 15) (bitsOf w 7 7))
  else if bitsOf w 14 3 = 6#3 then some (.call (bitsOf w 17 15) (bitsOf w 7 7))
  else none

/-- Major 0x03: NOP_W, RET, JMPI, EXIT, SPLIT, JOIN, YIELD, SLEEP, WAITP, BAR_TEAM, BAR_CLU, BAR_SCOPE, WAITX, GANGSET, TRAP, ERET, HALT, BKPT, RCOMMIT, TXBEGIN, TXEND, TXABORT, FENCE. -/
def decodeMajor3 (w : BitVec 32) : Option Instr :=
  if bitsOf w 7 25 = 0#25 then some (.nopW)
  else if bitsOf w 19 13 = 0#13 ∧ bitsOf w 7 5 = 1#5 then some (.ret (bitsOf w 12 7))
  else if bitsOf w 19 13 = 0#13 ∧ bitsOf w 7 5 = 2#5 then some (.jmpi (bitsOf w 12 7))
  else if bitsOf w 7 25 = 3#25 then some (.exit)
  else if bitsOf w 28 4 = 0#4 ∧ bitsOf w 7 5 = 4#5 then some (.split (bitsOf w 26 2) (bitsOf w 19 7) (bitsOf w 12 7))
  else if bitsOf w 28 4 = 0#4 ∧ bitsOf w 7 19 = 5#19 then some (.join (bitsOf w 26 2))
  else if bitsOf w 7 25 = 6#25 then some (.yield)
  else if bitsOf w 19 7 = 0#7 ∧ bitsOf w 7 5 = 7#5 then some (.sleep (bitsOf w 26 6) (bitsOf w 12 7))
  else if bitsOf w 29 3 = 0#3 ∧ bitsOf w 19 7 = 0#7 ∧ bitsOf w 7 5 = 8#5 then some (.waitp (bitsOf w 26 3) (bitsOf w 12 7))
  else if bitsOf w 30 2 = 0#2 ∧ bitsOf w 19 7 = 0#7 ∧ bitsOf w 7 5 = 9#5 then some (.barTeam (bitsOf w 26 4) (bitsOf w 12 7))
  else if bitsOf w 28 4 = 0#4 ∧ bitsOf w 19 7 = 0#7 ∧ bitsOf w 7 5 = 10#5 then some (.barClu (bitsOf w 26 2) (bitsOf w 12 7))
  else if bitsOf w 31 1 = 0#1 ∧ bitsOf w 7 5 = 11#5 then some (.barScope (bitsOf w 26 5) (bitsOf w 19 7) (bitsOf w 12 7))
  else if bitsOf w 30 2 = 0#2 ∧ bitsOf w 19 7 = 0#7 ∧ bitsOf w 7 5 = 12#5 then some (.waitx (bitsOf w 26 4) (bitsOf w 12 7))
  else if bitsOf w 19 13 = 0#13 ∧ bitsOf w 7 5 = 13#5 then some (.gangset (bitsOf w 12 7))
  else if bitsOf w 7 19 = 14#19 then some (.trap (bitsOf w 26 6))
  else if bitsOf w 7 25 = 15#25 then some (.eret)
  else if bitsOf w 7 25 = 16#25 then some (.halt)
  else if bitsOf w 7 19 = 17#19 then some (.bkpt (bitsOf w 26 6))
  else if bitsOf w 7 25 = 18#25 then some (.rcommit)
  else if bitsOf w 7 25 = 19#25 then some (.txbegin)
  else if bitsOf w 19 13 = 0#13 ∧ bitsOf w 7 5 = 20#5 then some (.txend (bitsOf w 12 7))
  else if bitsOf w 7 19 = 21#19 then some (.txabort (bitsOf w 26 6))
  else if bitsOf w 31 1 = 0#1 ∧ bitsOf w 7 19 = 22#19 then some (.fence (bitsOf w 26 5))
  else none

/-- Major 0x04: SADD, SSUB, SMUL, SMULH_I, SMULH_N, SMIN_I, SMAX_I, SMIN_N, SMAX_N, SAND, SOR, SXOR, SANDN, SSHL, SSHR, SSAR. -/
def decodeMajor4 (w : BitVec 32) : Option Instr :=
  if bitsOf w 29 3 = 0#3 ∧ bitsOf w 7 1 = 0#1 then some (.sadd (bitsOf w 22 7) (bitsOf w 15 7) (bitsOf w 8 7))
  else if bitsOf w 29 3 = 1#3 ∧ bitsOf w 7 1 = 0#1 then some (.ssub (bitsOf w 22 7) (bitsOf w 15 7) (bitsOf w 8 7))
  else if bitsOf w 29 3 = 2#3 ∧ bitsOf w 7 1 = 0#1 then some (.smul (bitsOf w 22 7) (bitsOf w 15 7) (bitsOf w 8 7))
  else if bitsOf w 29 3 = 3#3 ∧ bitsOf w 7 1 = 0#1 then some (.smulhI (bitsOf w 22 7) (bitsOf w 15 7) (bitsOf w 8 7))
  else if bitsOf w 29 3 = 4#3 ∧ bitsOf w 7 1 = 0#1 then some (.smulhN (bitsOf w 22 7) (bitsOf w 15 7) (bitsOf w 8 7))
  else if bitsOf w 29 3 = 5#3 ∧ bitsOf w 7 1 = 0#1 then some (.sminI (bitsOf w 22 7) (bitsOf w 15 7) (bitsOf w 8 7))
  else if bitsOf w 29 3 = 6#3 ∧ bitsOf w 7 1 = 0#1 then some (.smaxI (bitsOf w 22 7) (bitsOf w 15 7) (bitsOf w 8 7))
  else if bitsOf w 29 3 = 7#3 ∧ bitsOf w 7 1 = 0#1 then some (.sminN (bitsOf w 22 7) (bitsOf w 15 7) (bitsOf w 8 7))
  else if bitsOf w 29 3 = 0#3 ∧ bitsOf w 7 1 = 1#1 then some (.smaxN (bitsOf w 22 7) (bitsOf w 15 7) (bitsOf w 8 7))
  else if bitsOf w 29 3 = 1#3 ∧ bitsOf w 7 1 = 1#1 then some (.sand (bitsOf w 22 7) (bitsOf w 15 7) (bitsOf w 8 7))
  else if bitsOf w 29 3 = 2#3 ∧ bitsOf w 7 1 = 1#1 then some (.sor (bitsOf w 22 7) (bitsOf w 15 7) (bitsOf w 8 7))
  else if bitsOf w 29 3 = 3#3 ∧ bitsOf w 7 1 = 1#1 then some (.sxor (bitsOf w 22 7) (bitsOf w 15 7) (bitsOf w 8 7))
  else if bitsOf w 29 3 = 4#3 ∧ bitsOf w 7 1 = 1#1 then some (.sandn (bitsOf w 22 7) (bitsOf w 15 7) (bitsOf w 8 7))
  else if bitsOf w 29 3 = 5#3 ∧ bitsOf w 7 1 = 1#1 then some (.sshl (bitsOf w 22 7) (bitsOf w 15 7) (bitsOf w 8 7))
  else if bitsOf w 29 3 = 6#3 ∧ bitsOf w 7 1 = 1#1 then some (.sshr (bitsOf w 22 7) (bitsOf w 15 7) (bitsOf w 8 7))
  else if bitsOf w 29 3 = 7#3 ∧ bitsOf w 7 1 = 1#1 then some (.ssar (bitsOf w 22 7) (bitsOf w 15 7) (bitsOf w 8 7))
  else none

/-- Major 0x05: SCMP_EQ, SCMP_NE, SCMP_LT_I, SCMP_LE_I, SCMP_LT_N, SCMP_LE_N, SSEL, SCLZ, SPOPC, SBREV, SCTZ, SADD64, SSUB64, SSHL64, SSHR64, SMUL64. -/
def decodeMajor5 (w : BitVec 32) : Option Instr :=
  if bitsOf w 29 3 = 0#3 ∧ bitsOf w 7 1 = 0#1 then some (.scmpEq (bitsOf w 22 7) (bitsOf w 15 7) (bitsOf w 8 7))
  else if bitsOf w 29 3 = 1#3 ∧ bitsOf w 7 1 = 0#1 then some (.scmpNe (bitsOf w 22 7) (bitsOf w 15 7) (bitsOf w 8 7))
  else if bitsOf w 29 3 = 2#3 ∧ bitsOf w 7 1 = 0#1 then some (.scmpLtI (bitsOf w 22 7) (bitsOf w 15 7) (bitsOf w 8 7))
  else if bitsOf w 29 3 = 3#3 ∧ bitsOf w 7 1 = 0#1 then some (.scmpLeI (bitsOf w 22 7) (bitsOf w 15 7) (bitsOf w 8 7))
  else if bitsOf w 29 3 = 4#3 ∧ bitsOf w 7 1 = 0#1 then some (.scmpLtN (bitsOf w 22 7) (bitsOf w 15 7) (bitsOf w 8 7))
  else if bitsOf w 29 3 = 5#3 ∧ bitsOf w 7 1 = 0#1 then some (.scmpLeN (bitsOf w 22 7) (bitsOf w 15 7) (bitsOf w 8 7))
  else if bitsOf w 29 3 = 6#3 ∧ bitsOf w 7 1 = 0#1 then some (.ssel (bitsOf w 22 7) (bitsOf w 15 7) (bitsOf w 8 7))
  else if bitsOf w 22 10 = 896#10 ∧ bitsOf w 7 1 = 0#1 then some (.sclz (bitsOf w 15 7) (bitsOf w 8 7))
  else if bitsOf w 22 10 = 0#10 ∧ bitsOf w 7 1 = 1#1 then some (.spopc (bitsOf w 15 7) (bitsOf w 8 7))
  else if bitsOf w 22 10 = 128#10 ∧ bitsOf w 7 1 = 1#1 then some (.sbrev (bitsOf w 15 7) (bitsOf w 8 7))
  else if bitsOf w 22 10 = 256#10 ∧ bitsOf w 7 1 = 1#1 then some (.sctz (bitsOf w 15 7) (bitsOf w 8 7))
  else if bitsOf w 29 3 = 3#3 ∧ bitsOf w 7 1 = 1#1 then some (.sadd64 (bitsOf w 22 7) (bitsOf w 15 7) (bitsOf w 8 7))
  else if bitsOf w 29 3 = 4#3 ∧ bitsOf w 7 1 = 1#1 then some (.ssub64 (bitsOf w 22 7) (bitsOf w 15 7) (bitsOf w 8 7))
  else if bitsOf w 29 3 = 5#3 ∧ bitsOf w 7 1 = 1#1 then some (.sshl64 (bitsOf w 22 7) (bitsOf w 15 7) (bitsOf w 8 7))
  else if bitsOf w 29 3 = 6#3 ∧ bitsOf w 7 1 = 1#1 then some (.sshr64 (bitsOf w 22 7) (bitsOf w 15 7) (bitsOf w 8 7))
  else if bitsOf w 29 3 = 7#3 ∧ bitsOf w 7 1 = 1#1 then some (.smul64 (bitsOf w 22 7) (bitsOf w 15 7) (bitsOf w 8 7))
  else none

/-- Major 0x06: SADDI. -/
def decodeMajor6 (w : BitVec 32) : Option Instr :=
  some (.saddi (bitsOf w 21 11) (bitsOf w 14 7) (bitsOf w 7 7))

/-- Major 0x07: SANDI. -/
def decodeMajor7 (w : BitVec 32) : Option Instr :=
  some (.sandi (bitsOf w 21 11) (bitsOf w 14 7) (bitsOf w 7 7))

/-- Major 0x08: SSHLI. -/
def decodeMajor8 (w : BitVec 32) : Option Instr :=
  if bitsOf w 26 6 = 0#6 then some (.sshli (bitsOf w 21 5) (bitsOf w 14 7) (bitsOf w 7 7))
  else none

/-- Major 0x09: SSHRI. -/
def decodeMajor9 (w : BitVec 32) : Option Instr :=
  if bitsOf w 26 6 = 0#6 then some (.sshri (bitsOf w 21 5) (bitsOf w 14 7) (bitsOf w 7 7))
  else none

/-- Major 0x0A: SLTI. -/
def decodeMajor10 (w : BitVec 32) : Option Instr :=
  some (.slti (bitsOf w 21 11) (bitsOf w 14 7) (bitsOf w 7 7))

/-- Major 0x0B: SRD, SWR, TLBINV_RANGE, TLBINV_CTX, DHARV, TAGPURGE. -/
def decodeMajor11 (w : BitVec 32) : Option Instr :=
  if bitsOf w 29 3 = 0#3 ∧ bitsOf w 15 7 = 0#7 ∧ bitsOf w 7 1 = 0#1 then some (.srd (bitsOf w 22 7) (bitsOf w 8 7))
  else if bitsOf w 29 3 = 1#3 ∧ bitsOf w 7 8 = 0#8 then some (.swr (bitsOf w 22 7) (bitsOf w 15 7))
  else if bitsOf w 29 3 = 2#3 ∧ bitsOf w 7 1 = 0#1 then some (.tlbinvRange (bitsOf w 22 7) (bitsOf w 15 7) (bitsOf w 8 7))
  else if bitsOf w 22 10 = 384#10 ∧ bitsOf w 7 1 = 0#1 then some (.tlbinvCtx (bitsOf w 15 7) (bitsOf w 8 7))
  else if bitsOf w 29 3 = 4#3 ∧ bitsOf w 7 1 = 0#1 then some (.dharv (bitsOf w 22 7) (bitsOf w 15 7) (bitsOf w 8 7))
  else if bitsOf w 22 10 = 640#10 ∧ bitsOf w 7 8 = 0#8 then some (.tagpurge (bitsOf w 15 7))
  else none

/-- Major 0x0C: IADD, ISUB. -/
def decodeMajor12 (w : BitVec 32) : Option Instr :=
  if bitsOf w 7 1 = 0#1 then some (.iadd (bitsOf w 24 8) (bitsOf w 16 8) (bitsOf w 8 8))
  else if bitsOf w 7 1 = 1#1 then some (.isub (bitsOf w 24 8) (bitsOf w 16 8) (bitsOf w 8 8))
  else none

/-- Major 0x0D: IMUL, IMULH_I. -/
def decodeMajor13 (w : BitVec 32) : Option Instr :=
  if bitsOf w 7 1 = 0#1 then some (.imul (bitsOf w 24 8) (bitsOf w 16 8) (bitsOf w 8 8))
  else if bitsOf w 7 1 = 1#1 then some (.imulhI (bitsOf w 24 8) (bitsOf w 16 8) (bitsOf w 8 8))
  else none

/-- Major 0x0E: IMULH_N, IMAD. -/
def decodeMajor14 (w : BitVec 32) : Option Instr :=
  if bitsOf w 7 1 = 0#1 then some (.imulhN (bitsOf w 24 8) (bitsOf w 16 8) (bitsOf w 8 8))
  else if bitsOf w 7 1 = 1#1 then some (.imad (bitsOf w 24 8) (bitsOf w 16 8) (bitsOf w 8 8))
  else none

/-- Major 0x0F: IMIN_I, IMAX_I. -/
def decodeMajor15 (w : BitVec 32) : Option Instr :=
  if bitsOf w 7 1 = 0#1 then some (.iminI (bitsOf w 24 8) (bitsOf w 16 8) (bitsOf w 8 8))
  else if bitsOf w 7 1 = 1#1 then some (.imaxI (bitsOf w 24 8) (bitsOf w 16 8) (bitsOf w 8 8))
  else none

/-- Major 0x10: IMIN_N, IMAX_N. -/
def decodeMajor16 (w : BitVec 32) : Option Instr :=
  if bitsOf w 7 1 = 0#1 then some (.iminN (bitsOf w 24 8) (bitsOf w 16 8) (bitsOf w 8 8))
  else if bitsOf w 7 1 = 1#1 then some (.imaxN (bitsOf w 24 8) (bitsOf w 16 8) (bitsOf w 8 8))
  else none

/-- Major 0x11: AND, OR. -/
def decodeMajor17 (w : BitVec 32) : Option Instr :=
  if bitsOf w 7 1 = 0#1 then some (.and (bitsOf w 24 8) (bitsOf w 16 8) (bitsOf w 8 8))
  else if bitsOf w 7 1 = 1#1 then some (.or (bitsOf w 24 8) (bitsOf w 16 8) (bitsOf w 8 8))
  else none

/-- Major 0x12: XOR, ANDN. -/
def decodeMajor18 (w : BitVec 32) : Option Instr :=
  if bitsOf w 7 1 = 0#1 then some (.xor (bitsOf w 24 8) (bitsOf w 16 8) (bitsOf w 8 8))
  else if bitsOf w 7 1 = 1#1 then some (.andn (bitsOf w 24 8) (bitsOf w 16 8) (bitsOf w 8 8))
  else none

/-- Major 0x13: SHL, SHR. -/
def decodeMajor19 (w : BitVec 32) : Option Instr :=
  if bitsOf w 7 1 = 0#1 then some (.shl (bitsOf w 24 8) (bitsOf w 16 8) (bitsOf w 8 8))
  else if bitsOf w 7 1 = 1#1 then some (.shr (bitsOf w 24 8) (bitsOf w 16 8) (bitsOf w 8 8))
  else none

/-- Major 0x14: SAR, ROL. -/
def decodeMajor20 (w : BitVec 32) : Option Instr :=
  if bitsOf w 7 1 = 0#1 then some (.sar (bitsOf w 24 8) (bitsOf w 16 8) (bitsOf w 8 8))
  else if bitsOf w 7 1 = 1#1 then some (.rol (bitsOf w 24 8) (bitsOf w 16 8) (bitsOf w 8 8))
  else none

/-- Major 0x16: CLZ, POPC, BREV, CTZ, IABS, INEG, FRCP, FRSQ, FSQRT, FEXP2, FLOG2, FSIN, FCOS, FFRACT, FRINT_RNE, FRINT_RTZ, FRINT_RDN, FRINT_RUP. -/
def decodeMajor22 (w : BitVec 32) : Option Instr :=
  if bitsOf w 24 8 = 0#8 ∧ bitsOf w 7 1 = 0#1 then some (.clz (bitsOf w 16 8) (bitsOf w 8 8))
  else if bitsOf w 24 8 = 1#8 ∧ bitsOf w 7 1 = 0#1 then some (.popc (bitsOf w 16 8) (bitsOf w 8 8))
  else if bitsOf w 24 8 = 2#8 ∧ bitsOf w 7 1 = 0#1 then some (.brev (bitsOf w 16 8) (bitsOf w 8 8))
  else if bitsOf w 24 8 = 3#8 ∧ bitsOf w 7 1 = 0#1 then some (.ctz (bitsOf w 16 8) (bitsOf w 8 8))
  else if bitsOf w 24 8 = 4#8 ∧ bitsOf w 7 1 = 0#1 then some (.iabs (bitsOf w 16 8) (bitsOf w 8 8))
  else if bitsOf w 24 8 = 5#8 ∧ bitsOf w 7 1 = 0#1 then some (.ineg (bitsOf w 16 8) (bitsOf w 8 8))
  else if bitsOf w 24 8 = 0#8 ∧ bitsOf w 7 1 = 1#1 then some (.frcp (bitsOf w 16 8) (bitsOf w 8 8))
  else if bitsOf w 24 8 = 1#8 ∧ bitsOf w 7 1 = 1#1 then some (.frsq (bitsOf w 16 8) (bitsOf w 8 8))
  else if bitsOf w 24 8 = 2#8 ∧ bitsOf w 7 1 = 1#1 then some (.fsqrt (bitsOf w 16 8) (bitsOf w 8 8))
  else if bitsOf w 24 8 = 3#8 ∧ bitsOf w 7 1 = 1#1 then some (.fexp2 (bitsOf w 16 8) (bitsOf w 8 8))
  else if bitsOf w 24 8 = 4#8 ∧ bitsOf w 7 1 = 1#1 then some (.flog2 (bitsOf w 16 8) (bitsOf w 8 8))
  else if bitsOf w 24 8 = 5#8 ∧ bitsOf w 7 1 = 1#1 then some (.fsin (bitsOf w 16 8) (bitsOf w 8 8))
  else if bitsOf w 24 8 = 6#8 ∧ bitsOf w 7 1 = 1#1 then some (.fcos (bitsOf w 16 8) (bitsOf w 8 8))
  else if bitsOf w 24 8 = 7#8 ∧ bitsOf w 7 1 = 1#1 then some (.ffract (bitsOf w 16 8) (bitsOf w 8 8))
  else if bitsOf w 24 8 = 8#8 ∧ bitsOf w 7 1 = 1#1 then some (.frintRne (bitsOf w 16 8) (bitsOf w 8 8))
  else if bitsOf w 24 8 = 9#8 ∧ bitsOf w 7 1 = 1#1 then some (.frintRtz (bitsOf w 16 8) (bitsOf w 8 8))
  else if bitsOf w 24 8 = 10#8 ∧ bitsOf w 7 1 = 1#1 then some (.frintRdn (bitsOf w 16 8) (bitsOf w 8 8))
  else if bitsOf w 24 8 = 11#8 ∧ bitsOf w 7 1 = 1#1 then some (.frintRup (bitsOf w 16 8) (bitsOf w 8 8))
  else none

/-- Major 0x17: BFE, BFI. -/
def decodeMajor23 (w : BitVec 32) : Option Instr :=
  if bitsOf w 7 1 = 0#1 then some (.bfe (bitsOf w 24 8) (bitsOf w 16 8) (bitsOf w 8 8))
  else if bitsOf w 7 1 = 1#1 then some (.bfi (bitsOf w 24 8) (bitsOf w 16 8) (bitsOf w 8 8))
  else none

/-- Major 0x18: ILV2, ILV3. -/
def decodeMajor24 (w : BitVec 32) : Option Instr :=
  if bitsOf w 7 1 = 0#1 then some (.ilv2 (bitsOf w 24 8) (bitsOf w 16 8) (bitsOf w 8 8))
  else if bitsOf w 7 1 = 1#1 then some (.ilv3 (bitsOf w 24 8) (bitsOf w 16 8) (bitsOf w 8 8))
  else none

/-- Major 0x19: DILV2, DILV3. -/
def decodeMajor25 (w : BitVec 32) : Option Instr :=
  if bitsOf w 7 1 = 0#1 then some (.dilv2 (bitsOf w 24 8) (bitsOf w 16 8) (bitsOf w 8 8))
  else if bitsOf w 7 1 = 1#1 then some (.dilv3 (bitsOf w 24 8) (bitsOf w 16 8) (bitsOf w 8 8))
  else none

/-- Major 0x1A: FADD, FSUB. -/
def decodeMajor26 (w : BitVec 32) : Option Instr :=
  if bitsOf w 7 1 = 0#1 then some (.fadd (bitsOf w 24 8) (bitsOf w 16 8) (bitsOf w 8 8))
  else if bitsOf w 7 1 = 1#1 then some (.fsub (bitsOf w 24 8) (bitsOf w 16 8) (bitsOf w 8 8))
  else none

/-- Major 0x1B: FMUL, FFMA. -/
def decodeMajor27 (w : BitVec 32) : Option Instr :=
  if bitsOf w 7 1 = 0#1 then some (.fmul (bitsOf w 24 8) (bitsOf w 16 8) (bitsOf w 8 8))
  else if bitsOf w 7 1 = 1#1 then some (.ffma (bitsOf w 24 8) (bitsOf w 16 8) (bitsOf w 8 8))
  else none

/-- Major 0x1C: FMIN, FMAX. -/
def decodeMajor28 (w : BitVec 32) : Option Instr :=
  if bitsOf w 7 1 = 0#1 then some (.fmin (bitsOf w 24 8) (bitsOf w 16 8) (bitsOf w 8 8))
  else if bitsOf w 7 1 = 1#1 then some (.fmax (bitsOf w 24 8) (bitsOf w 16 8) (bitsOf w 8 8))
  else none

/-- Major 0x1D: FDIV, FCPYS. -/
def decodeMajor29 (w : BitVec 32) : Option Instr :=
  if bitsOf w 7 1 = 0#1 then some (.fdiv (bitsOf w 24 8) (bitsOf w 16 8) (bitsOf w 8 8))
  else if bitsOf w 7 1 = 1#1 then some (.fcpys (bitsOf w 24 8) (bitsOf w 16 8) (bitsOf w 8 8))
  else none

/-- Major 0x1E: HADD2, HMUL2. -/
def decodeMajor30 (w : BitVec 32) : Option Instr :=
  if bitsOf w 7 1 = 0#1 then some (.hadd2 (bitsOf w 24 8) (bitsOf w 16 8) (bitsOf w 8 8))
  else if bitsOf w 7 1 = 1#1 then some (.hmul2 (bitsOf w 24 8) (bitsOf w 16 8) (bitsOf w 8 8))
  else none

/-- Major 0x1F: HFMA2, BFMA2. -/
def decodeMajor31 (w : BitVec 32) : Option Instr :=
  if bitsOf w 7 1 = 0#1 then some (.hfma2 (bitsOf w 24 8) (bitsOf w 16 8) (bitsOf w 8 8))
  else if bitsOf w 7 1 = 1#1 then some (.bfma2 (bitsOf w 24 8) (bitsOf w 16 8) (bitsOf w 8 8))
  else none

/-- Major 0x20: DADD, DMUL. -/
def decodeMajor32 (w : BitVec 32) : Option Instr :=
  if bitsOf w 7 1 = 0#1 then some (.dadd (bitsOf w 24 8) (bitsOf w 16 8) (bitsOf w 8 8))
  else if bitsOf w 7 1 = 1#1 then some (.dmul (bitsOf w 24 8) (bitsOf w 16 8) (bitsOf w 8 8))
  else none

/-- Major 0x21: DFMA, DDIV. -/
def decodeMajor33 (w : BitVec 32) : Option Instr :=
  if bitsOf w 7 1 = 0#1 then some (.dfma (bitsOf w 24 8) (bitsOf w 16 8) (bitsOf w 8 8))
  else if bitsOf w 7 1 = 1#1 then some (.ddiv (bitsOf w 24 8) (bitsOf w 16 8) (bitsOf w 8 8))
  else none

/-- Major 0x22: ICMP_EQ, ICMP_NE. -/
def decodeMajor34 (w : BitVec 32) : Option Instr :=
  if bitsOf w 15 1 = 0#1 ∧ bitsOf w 7 1 = 0#1 then some (.icmpEq (bitsOf w 24 8) (bitsOf w 16 8) (bitsOf w 8 7))
  else if bitsOf w 15 1 = 0#1 ∧ bitsOf w 7 1 = 1#1 then some (.icmpNe (bitsOf w 24 8) (bitsOf w 16 8) (bitsOf w 8 7))
  else none

/-- Major 0x23: ICMP_LT_I, ICMP_LE_I. -/
def decodeMajor35 (w : BitVec 32) : Option Instr :=
  if bitsOf w 15 1 = 0#1 ∧ bitsOf w 7 1 = 0#1 then some (.icmpLtI (bitsOf w 24 8) (bitsOf w 16 8) (bitsOf w 8 7))
  else if bitsOf w 15 1 = 0#1 ∧ bitsOf w 7 1 = 1#1 then some (.icmpLeI (bitsOf w 24 8) (bitsOf w 16 8) (bitsOf w 8 7))
  else none

/-- Major 0x24: ICMP_LT_N, ICMP_LE_N. -/
def decodeMajor36 (w : BitVec 32) : Option Instr :=
  if bitsOf w 15 1 = 0#1 ∧ bitsOf w 7 1 = 0#1 then some (.icmpLtN (bitsOf w 24 8) (bitsOf w 16 8) (bitsOf w 8 7))
  else if bitsOf w 15 1 = 0#1 ∧ bitsOf w 7 1 = 1#1 then some (.icmpLeN (bitsOf w 24 8) (bitsOf w 16 8) (bitsOf w 8 7))
  else none

/-- Major 0x25: FCMP_EQ, FCMP_NE. -/
def decodeMajor37 (w : BitVec 32) : Option Instr :=
  if bitsOf w 15 1 = 0#1 ∧ bitsOf w 7 1 = 0#1 then some (.fcmpEq (bitsOf w 24 8) (bitsOf w 16 8) (bitsOf w 8 7))
  else if bitsOf w 15 1 = 0#1 ∧ bitsOf w 7 1 = 1#1 then some (.fcmpNe (bitsOf w 24 8) (bitsOf w 16 8) (bitsOf w 8 7))
  else none

/-- Major 0x26: FCMP_LT, FCMP_LE. -/
def decodeMajor38 (w : BitVec 32) : Option Instr :=
  if bitsOf w 15 1 = 0#1 ∧ bitsOf w 7 1 = 0#1 then some (.fcmpLt (bitsOf w 24 8) (bitsOf w 16 8) (bitsOf w 8 7))
  else if bitsOf w 15 1 = 0#1 ∧ bitsOf w 7 1 = 1#1 then some (.fcmpLe (bitsOf w 24 8) (bitsOf w 16 8) (bitsOf w 8 7))
  else none

/-- Major 0x27: FCMP_UN, VOTE. -/
def decodeMajor39 (w : BitVec 32) : Option Instr :=
  if bitsOf w 15 1 = 0#1 ∧ bitsOf w 7 1 = 0#1 then some (.fcmpUn (bitsOf w 24 8) (bitsOf w 16 8) (bitsOf w 8 7))
  else if bitsOf w 24 8 = 0#8 ∧ bitsOf w 15 1 = 0#1 ∧ bitsOf w 7 1 = 1#1 then some (.vote (bitsOf w 16 8) (bitsOf w 8 7))
  else none

/-- Major 0x28: SEL, MOVS, LEA, READLANE. -/
def decodeMajor40 (w : BitVec 32) : Option Instr :=
  if bitsOf w 7 2 = 0#2 then some (.sel (bitsOf w 25 7) (bitsOf w 17 8) (bitsOf w 9 8))
  else if bitsOf w 17 8 = 0#8 ∧ bitsOf w 7 2 = 1#2 then some (.movs (bitsOf w 25 7) (bitsOf w 9 8))
  else if bitsOf w 7 2 = 2#2 then some (.lea (bitsOf w 25 7) (bitsOf w 17 8) (bitsOf w 9 8))
  else if bitsOf w 16 1 = 0#1 ∧ bitsOf w 7 2 = 3#2 then some (.readlane (bitsOf w 25 7) (bitsOf w 17 8) (bitsOf w 9 7))
  else none

/-- Major 0x29: IADDI, SHLI. -/
def decodeMajor41 (w : BitVec 32) : Option Instr :=
  if bitsOf w 7 1 = 0#1 then some (.iaddi (bitsOf w 24 8) (bitsOf w 16 8) (bitsOf w 8 8))
  else if bitsOf w 29 3 = 0#3 ∧ bitsOf w 7 1 = 1#1 then some (.shli (bitsOf w 24 5) (bitsOf w 16 8) (bitsOf w 8 8))
  else none

/-- Major 0x2A: SHRI, SARI. -/
def decodeMajor42 (w : BitVec 32) : Option Instr :=
  if bitsOf w 29 3 = 0#3 ∧ bitsOf w 7 1 = 0#1 then some (.shri (bitsOf w 24 5) (bitsOf w 16 8) (bitsOf w 8 8))
  else if bitsOf w 29 3 = 0#3 ∧ bitsOf w 7 1 = 1#1 then some (.sari (bitsOf w 24 5) (bitsOf w 16 8) (bitsOf w 8 8))
  else none

/-- Major 0x2B: SHFL_XOR, SHFL_UP. -/
def decodeMajor43 (w : BitVec 32) : Option Instr :=
  if bitsOf w 29 3 = 0#3 ∧ bitsOf w 7 1 = 0#1 then some (.shflXor (bitsOf w 24 5) (bitsOf w 16 8) (bitsOf w 8 8))
  else if bitsOf w 30 2 = 0#2 ∧ bitsOf w 7 1 = 1#1 then some (.shflUp (bitsOf w 29 1) (bitsOf w 24 5) (bitsOf w 16 8) (bitsOf w 8 8))
  else none

/-- Major 0x2C: SHFL_DN, SEXT. -/
def decodeMajor44 (w : BitVec 32) : Option Instr :=
  if bitsOf w 30 2 = 0#2 ∧ bitsOf w 7 1 = 0#1 then some (.shflDn (bitsOf w 29 1) (bitsOf w 24 5) (bitsOf w 16 8) (bitsOf w 8 8))
  else if bitsOf w 7 1 = 1#1 then some (.sext (bitsOf w 24 8) (bitsOf w 16 8) (bitsOf w 8 8))
  else none

/-- Major 0x2D: SHFL_IDX, FCLASS. -/
def decodeMajor45 (w : BitVec 32) : Option Instr :=
  if bitsOf w 7 1 = 0#1 then some (.shflIdx (bitsOf w 24 8) (bitsOf w 16 8) (bitsOf w 8 8))
  else if bitsOf w 24 8 = 0#8 ∧ bitsOf w 7 1 = 1#1 then some (.fclass (bitsOf w 16 8) (bitsOf w 8 8))
  else none

/-- Major 0x2E: REDX, SCANX. -/
def decodeMajor46 (w : BitVec 32) : Option Instr :=
  if bitsOf w 28 4 = 0#4 ∧ bitsOf w 7 1 = 0#1 then some (.redx (bitsOf w 24 4) (bitsOf w 16 8) (bitsOf w 8 8))
  else if bitsOf w 28 4 = 0#4 ∧ bitsOf w 7 1 = 1#1 then some (.scanx (bitsOf w 24 4) (bitsOf w 16 8) (bitsOf w 8 8))
  else none

/-- Major 0x2F: CVT_F32_I32, CVT_F32_N32, CVT_I32_F32, CVT_N32_F32, CVT_F64_F32, CVT_F32_F64, CVT_F64_I32, CVT_F64_N32, CVT_I32_F64, CVT_N32_F64, CVT_F16_F32, CVT_F32_F16, CVT_BF16_F32, CVT_F32_BF16, CVT_I64_F64, CVT_N64_F64, CVT_F64_I64, CVT_F64_N64, CVT_I16_I32, CVT_N16_N32, CVT_I8_I32, CVT_N8_N32, CVT_FP19_F32, CVT_F32_FP19. -/
def decodeMajor47 (w : BitVec 32) : Option Instr :=
  if bitsOf w 31 1 = 0#1 ∧ bitsOf w 24 4 = 0#4 ∧ bitsOf w 7 1 = 0#1 then some (.cvtF32I32 (bitsOf w 28 3) (bitsOf w 16 8) (bitsOf w 8 8))
  else if bitsOf w 31 1 = 0#1 ∧ bitsOf w 24 4 = 1#4 ∧ bitsOf w 7 1 = 0#1 then some (.cvtF32N32 (bitsOf w 28 3) (bitsOf w 16 8) (bitsOf w 8 8))
  else if bitsOf w 24 4 = 2#4 ∧ bitsOf w 7 1 = 0#1 then some (.cvtI32F32 (bitsOf w 31 1) (bitsOf w 28 3) (bitsOf w 16 8) (bitsOf w 8 8))
  else if bitsOf w 24 4 = 3#4 ∧ bitsOf w 7 1 = 0#1 then some (.cvtN32F32 (bitsOf w 31 1) (bitsOf w 28 3) (bitsOf w 16 8) (bitsOf w 8 8))
  else if bitsOf w 24 8 = 4#8 ∧ bitsOf w 7 1 = 0#1 then some (.cvtF64F32 (bitsOf w 16 8) (bitsOf w 8 8))
  else if bitsOf w 24 4 = 5#4 ∧ bitsOf w 7 1 = 0#1 then some (.cvtF32F64 (bitsOf w 31 1) (bitsOf w 28 3) (bitsOf w 16 8) (bitsOf w 8 8))
  else if bitsOf w 24 8 = 6#8 ∧ bitsOf w 7 1 = 0#1 then some (.cvtF64I32 (bitsOf w 16 8) (bitsOf w 8 8))
  else if bitsOf w 24 8 = 7#8 ∧ bitsOf w 7 1 = 0#1 then some (.cvtF64N32 (bitsOf w 16 8) (bitsOf w 8 8))
  else if bitsOf w 24 4 = 8#4 ∧ bitsOf w 7 1 = 0#1 then some (.cvtI32F64 (bitsOf w 31 1) (bitsOf w 28 3) (bitsOf w 16 8) (bitsOf w 8 8))
  else if bitsOf w 24 4 = 9#4 ∧ bitsOf w 7 1 = 0#1 then some (.cvtN32F64 (bitsOf w 31 1) (bitsOf w 28 3) (bitsOf w 16 8) (bitsOf w 8 8))
  else if bitsOf w 24 4 = 10#4 ∧ bitsOf w 7 1 = 0#1 then some (.cvtF16F32 (bitsOf w 31 1) (bitsOf w 28 3) (bitsOf w 16 8) (bitsOf w 8 8))
  else if bitsOf w 24 8 = 11#8 ∧ bitsOf w 7 1 = 0#1 then some (.cvtF32F16 (bitsOf w 16 8) (bitsOf w 8 8))
  else if bitsOf w 24 4 = 12#4 ∧ bitsOf w 7 1 = 0#1 then some (.cvtBf16F32 (bitsOf w 31 1) (bitsOf w 28 3) (bitsOf w 16 8) (bitsOf w 8 8))
  else if bitsOf w 24 8 = 13#8 ∧ bitsOf w 7 1 = 0#1 then some (.cvtF32Bf16 (bitsOf w 16 8) (bitsOf w 8 8))
  else if bitsOf w 24 4 = 14#4 ∧ bitsOf w 7 1 = 0#1 then some (.cvtI64F64 (bitsOf w 31 1) (bitsOf w 28 3) (bitsOf w 16 8) (bitsOf w 8 8))
  else if bitsOf w 24 4 = 15#4 ∧ bitsOf w 7 1 = 0#1 then some (.cvtN64F64 (bitsOf w 31 1) (bitsOf w 28 3) (bitsOf w 16 8) (bitsOf w 8 8))
  else if bitsOf w 31 1 = 0#1 ∧ bitsOf w 24 4 = 0#4 ∧ bitsOf w 7 1 = 1#1 then some (.cvtF64I64 (bitsOf w 28 3) (bitsOf w 16 8) (bitsOf w 8 8))
  else if bitsOf w 31 1 = 0#1 ∧ bitsOf w 24 4 = 1#4 ∧ bitsOf w 7 1 = 1#1 then some (.cvtF64N64 (bitsOf w 28 3) (bitsOf w 16 8) (bitsOf w 8 8))
  else if bitsOf w 24 7 = 2#7 ∧ bitsOf w 7 1 = 1#1 then some (.cvtI16I32 (bitsOf w 31 1) (bitsOf w 16 8) (bitsOf w 8 8))
  else if bitsOf w 24 7 = 3#7 ∧ bitsOf w 7 1 = 1#1 then some (.cvtN16N32 (bitsOf w 31 1) (bitsOf w 16 8) (bitsOf w 8 8))
  else if bitsOf w 24 7 = 4#7 ∧ bitsOf w 7 1 = 1#1 then some (.cvtI8I32 (bitsOf w 31 1) (bitsOf w 16 8) (bitsOf w 8 8))
  else if bitsOf w 24 7 = 5#7 ∧ bitsOf w 7 1 = 1#1 then some (.cvtN8N32 (bitsOf w 31 1) (bitsOf w 16 8) (bitsOf w 8 8))
  else if bitsOf w 24 4 = 6#4 ∧ bitsOf w 7 1 = 1#1 then some (.cvtFp19F32 (bitsOf w 31 1) (bitsOf w 28 3) (bitsOf w 16 8) (bitsOf w 8 8))
  else if bitsOf w 24 8 = 7#8 ∧ bitsOf w 7 1 = 1#1 then some (.cvtF32Fp19 (bitsOf w 16 8) (bitsOf w 8 8))
  else none

/-- Major 0x30: CULLBF, CULLFR. -/
def decodeMajor48 (w : BitVec 32) : Option Instr :=
  if bitsOf w 15 1 = 0#1 ∧ bitsOf w 7 1 = 0#1 then some (.cullbf (bitsOf w 24 8) (bitsOf w 16 8) (bitsOf w 8 7))
  else if bitsOf w 15 1 = 0#1 ∧ bitsOf w 7 1 = 1#1 then some (.cullfr (bitsOf w 24 8) (bitsOf w 16 8) (bitsOf w 8 7))
  else none

/-- Major 0x31: CULLSZ, BARY. -/
def decodeMajor49 (w : BitVec 32) : Option Instr :=
  if bitsOf w 24 8 = 0#8 ∧ bitsOf w 15 1 = 0#1 ∧ bitsOf w 7 1 = 0#1 then some (.cullsz (bitsOf w 16 8) (bitsOf w 8 7))
  else if bitsOf w 7 1 = 1#1 then some (.bary (bitsOf w 24 8) (bitsOf w 16 8) (bitsOf w 8 8))
  else none

/-- Major 0x32: SPLD. -/
def decodeMajor50 (w : BitVec 32) : Option Instr :=
  some (.spld (bitsOf w 25 7) (bitsOf w 17 8) (bitsOf w 9 8) (bitsOf w 7 2))

/-- Major 0x33: SPST. -/
def decodeMajor51 (w : BitVec 32) : Option Instr :=
  some (.spst (bitsOf w 25 7) (bitsOf w 17 8) (bitsOf w 9 8) (bitsOf w 7 2))

/-- Major 0x34: SPAT_XCHG, SPAT_CAS, SPAT_IADD, SPAT_IMIN_I, SPAT_IMAX_I, SPAT_IMIN_N, SPAT_IMAX_N, SPAT_AND, SPAT_OR, SPAT_XOR, SPAT_FADD, SPAT_FMIN, SPAT_FMAX. -/
def decodeMajor52 (w : BitVec 32) : Option Instr :=
  if bitsOf w 7 4 = 0#4 then some (.spatXchg (bitsOf w 27 5) (bitsOf w 19 8) (bitsOf w 11 8))
  else if bitsOf w 7 4 = 1#4 then some (.spatCas (bitsOf w 27 5) (bitsOf w 19 8) (bitsOf w 11 8))
  else if bitsOf w 7 4 = 2#4 then some (.spatIadd (bitsOf w 27 5) (bitsOf w 19 8) (bitsOf w 11 8))
  else if bitsOf w 7 4 = 3#4 then some (.spatIminI (bitsOf w 27 5) (bitsOf w 19 8) (bitsOf w 11 8))
  else if bitsOf w 7 4 = 4#4 then some (.spatImaxI (bitsOf w 27 5) (bitsOf w 19 8) (bitsOf w 11 8))
  else if bitsOf w 7 4 = 5#4 then some (.spatIminN (bitsOf w 27 5) (bitsOf w 19 8) (bitsOf w 11 8))
  else if bitsOf w 7 4 = 6#4 then some (.spatImaxN (bitsOf w 27 5) (bitsOf w 19 8) (bitsOf w 11 8))
  else if bitsOf w 7 4 = 7#4 then some (.spatAnd (bitsOf w 27 5) (bitsOf w 19 8) (bitsOf w 11 8))
  else if bitsOf w 7 4 = 8#4 then some (.spatOr (bitsOf w 27 5) (bitsOf w 19 8) (bitsOf w 11 8))
  else if bitsOf w 7 4 = 9#4 then some (.spatXor (bitsOf w 27 5) (bitsOf w 19 8) (bitsOf w 11 8))
  else if bitsOf w 7 4 = 10#4 then some (.spatFadd (bitsOf w 27 5) (bitsOf w 19 8) (bitsOf w 11 8))
  else if bitsOf w 7 4 = 11#4 then some (.spatFmin (bitsOf w 27 5) (bitsOf w 19 8) (bitsOf w 11 8))
  else if bitsOf w 7 4 = 12#4 then some (.spatFmax (bitsOf w 27 5) (bitsOf w 19 8) (bitsOf w 11 8))
  else none

/-- Major 0x35: CTINS, CTPRB, CTDEL, CTACC. -/
def decodeMajor53 (w : BitVec 32) : Option Instr :=
  if bitsOf w 31 1 = 0#1 ∧ bitsOf w 7 4 = 0#4 then some (.ctins (bitsOf w 29 2) (bitsOf w 27 2) (bitsOf w 19 8) (bitsOf w 11 8))
  else if bitsOf w 30 2 = 0#2 ∧ bitsOf w 7 4 = 1#4 then some (.ctprb (bitsOf w 29 1) (bitsOf w 27 2) (bitsOf w 19 8) (bitsOf w 11 8))
  else if bitsOf w 30 2 = 0#2 ∧ bitsOf w 7 4 = 2#4 then some (.ctdel (bitsOf w 29 1) (bitsOf w 27 2) (bitsOf w 19 8) (bitsOf w 11 8))
  else if bitsOf w 31 1 = 0#1 ∧ bitsOf w 7 4 = 3#4 then some (.ctacc (bitsOf w 29 2) (bitsOf w 27 2) (bitsOf w 19 8) (bitsOf w 11 8))
  else none

/-- Major 0x36: CTINIT, CTFREE, CTSTAT, CTDRAIN, SPMAP, SPUNMAP, SPWB. -/
noncomputable def decodeMajor54 (w : BitVec 32) : Option Instr :=
  if bitsOf w 25 7 = 0#7 ∧ bitsOf w 7 4 = 0#4 then some (.ctinit (bitsOf w 18 7) (bitsOf w 11 7))
  else if bitsOf w 18 14 = 0#14 ∧ bitsOf w 7 4 = 1#4 then some (.ctfree (bitsOf w 11 7))
  else if bitsOf w 18 7 = 0#7 ∧ bitsOf w 7 4 = 2#4 then some (.ctstat (bitsOf w 25 7) (bitsOf w 11 7))
  else if bitsOf w 7 4 = 3#4 then some (.ctdrain (bitsOf w 25 7) (bitsOf w 18 7) (bitsOf w 11 7))
  else if bitsOf w 7 4 = 4#4 then some (.spmap (bitsOf w 25 7) (bitsOf w 18 7) (bitsOf w 11 7))
  else if bitsOf w 18 14 = 0#14 ∧ bitsOf w 7 4 = 5#4 then some (.spunmap (bitsOf w 11 7))
  else if bitsOf w 18 14 = 0#14 ∧ bitsOf w 7 4 = 6#4 then some (.spwb (bitsOf w 11 7))
  else none

/-- Major 0x37: LDFWD, LD_G. -/
noncomputable def decodeMajor55 (w : BitVec 32) : Option Instr :=
  if bitsOf w 7 2 = 3#2 then some (.ldfwd (bitsOf w 25 7) (bitsOf w 17 8) (bitsOf w 9 8))
  else some (.ldG (bitsOf w 25 7) (bitsOf w 17 8) (bitsOf w 9 8) (bitsOf w 7 2))

/-- Major 0x38: STFWD, ST_G. -/
noncomputable def decodeMajor56 (w : BitVec 32) : Option Instr :=
  if bitsOf w 7 2 = 3#2 then some (.stfwd (bitsOf w 25 7) (bitsOf w 17 8) (bitsOf w 9 8))
  else some (.stG (bitsOf w 25 7) (bitsOf w 17 8) (bitsOf w 9 8) (bitsOf w 7 2))

/-- Major 0x39: RED_G_IADD, RED_G_IMIN_I, RED_G_IMAX_I, RED_G_IMIN_N, RED_G_IMAX_N, RED_G_AND, RED_G_OR, RED_G_XOR, RED_G_FADD, RED_G_FMIN, RED_G_FMAX, ATOM_G_XCHG, ATOM_G_CAS, ATOM_G_IADD, ATOM_G_IMIN_I, ATOM_G_IMAX_I, ATOM_G_IMIN_N, ATOM_G_IMAX_N, ATOM_G_AND, ATOM_G_OR, ATOM_G_XOR, ATOM_G_FADD, ATOM_G_FMIN, ATOM_G_FMAX. -/
noncomputable def decodeMajor57 (w : BitVec 32) : Option Instr :=
  if bitsOf w 7 12 = 3746#12 then some (.redGIadd (bitsOf w 27 5) (bitsOf w 19 8))
  else if bitsOf w 7 12 = 3747#12 then some (.redGIminI (bitsOf w 27 5) (bitsOf w 19 8))
  else if bitsOf w 7 12 = 3748#12 then some (.redGImaxI (bitsOf w 27 5) (bitsOf w 19 8))
  else if bitsOf w 7 12 = 3749#12 then some (.redGIminN (bitsOf w 27 5) (bitsOf w 19 8))
  else if bitsOf w 7 12 = 3750#12 then some (.redGImaxN (bitsOf w 27 5) (bitsOf w 19 8))
  else if bitsOf w 7 12 = 3751#12 then some (.redGAnd (bitsOf w 27 5) (bitsOf w 19 8))
  else if bitsOf w 7 12 = 3752#12 then some (.redGOr (bitsOf w 27 5) (bitsOf w 19 8))
  else if bitsOf w 7 12 = 3753#12 then some (.redGXor (bitsOf w 27 5) (bitsOf w 19 8))
  else if bitsOf w 7 12 = 3754#12 then some (.redGFadd (bitsOf w 27 5) (bitsOf w 19 8))
  else if bitsOf w 7 12 = 3755#12 then some (.redGFmin (bitsOf w 27 5) (bitsOf w 19 8))
  else if bitsOf w 7 12 = 3756#12 then some (.redGFmax (bitsOf w 27 5) (bitsOf w 19 8))
  else if bitsOf w 7 4 = 0#4 then some (.atomGXchg (bitsOf w 27 5) (bitsOf w 19 8) (bitsOf w 11 8))
  else if bitsOf w 7 4 = 1#4 then some (.atomGCas (bitsOf w 27 5) (bitsOf w 19 8) (bitsOf w 11 8))
  else if bitsOf w 7 4 = 2#4 then some (.atomGIadd (bitsOf w 27 5) (bitsOf w 19 8) (bitsOf w 11 8))
  else if bitsOf w 7 4 = 3#4 then some (.atomGIminI (bitsOf w 27 5) (bitsOf w 19 8) (bitsOf w 11 8))
  else if bitsOf w 7 4 = 4#4 then some (.atomGImaxI (bitsOf w 27 5) (bitsOf w 19 8) (bitsOf w 11 8))
  else if bitsOf w 7 4 = 5#4 then some (.atomGIminN (bitsOf w 27 5) (bitsOf w 19 8) (bitsOf w 11 8))
  else if bitsOf w 7 4 = 6#4 then some (.atomGImaxN (bitsOf w 27 5) (bitsOf w 19 8) (bitsOf w 11 8))
  else if bitsOf w 7 4 = 7#4 then some (.atomGAnd (bitsOf w 27 5) (bitsOf w 19 8) (bitsOf w 11 8))
  else if bitsOf w 7 4 = 8#4 then some (.atomGOr (bitsOf w 27 5) (bitsOf w 19 8) (bitsOf w 11 8))
  else if bitsOf w 7 4 = 9#4 then some (.atomGXor (bitsOf w 27 5) (bitsOf w 19 8) (bitsOf w 11 8))
  else if bitsOf w 7 4 = 10#4 then some (.atomGFadd (bitsOf w 27 5) (bitsOf w 19 8) (bitsOf w 11 8))
  else if bitsOf w 7 4 = 11#4 then some (.atomGFmin (bitsOf w 27 5) (bitsOf w 19 8) (bitsOf w 11 8))
  else if bitsOf w 7 4 = 12#4 then some (.atomGFmax (bitsOf w 27 5) (bitsOf w 19 8) (bitsOf w 11 8))
  else none

/-- Major 0x3A: LDS, LDS64, STS, STS64, PREF, POST, DEPDEC, RINGARR, RINGWAIT, MBOXSEND. -/
noncomputable def decodeMajor58 (w : BitVec 32) : Option Instr :=
  if bitsOf w 7 4 = 0#4 then some (.lds (bitsOf w 25 7) (bitsOf w 18 7) (bitsOf w 11 7))
  else if bitsOf w 7 4 = 1#4 then some (.lds64 (bitsOf w 25 7) (bitsOf w 18 7) (bitsOf w 11 7))
  else if bitsOf w 7 4 = 2#4 then some (.sts (bitsOf w 25 7) (bitsOf w 18 7) (bitsOf w 11 7))
  else if bitsOf w 7 4 = 3#4 then some (.sts64 (bitsOf w 25 7) (bitsOf w 18 7) (bitsOf w 11 7))
  else if bitsOf w 7 4 = 4#4 then some (.pref (bitsOf w 25 7) (bitsOf w 18 7) (bitsOf w 11 7))
  else if bitsOf w 7 4 = 5#4 then some (.post (bitsOf w 25 7) (bitsOf w 18 7) (bitsOf w 11 7))
  else if bitsOf w 25 7 = 0#7 ∧ bitsOf w 7 11 = 6#11 then some (.depdec (bitsOf w 18 7))
  else if bitsOf w 18 14 = 0#14 ∧ bitsOf w 7 4 = 7#4 then some (.ringarr (bitsOf w 11 7))
  else if bitsOf w 25 7 = 0#7 ∧ bitsOf w 7 4 = 8#4 then some (.ringwait (bitsOf w 18 7) (bitsOf w 11 7))
  else if bitsOf w 25 7 = 0#7 ∧ bitsOf w 7 4 = 9#4 then some (.mboxsend (bitsOf w 18 7) (bitsOf w 11 7))
  else none

/-- Major 0x3B: CP_TENSOR, CP_GATHER, CP_SCATTER, CP_MCAST, CP_PACK, CP_UNPACK, CP_FILL, CP_CANCEL, TAGFREE, BARINIT, BAREXP, BARTEST, TAGALLOC, FSEND, TAGQRY, BARWAIT, TAGALLOC_TREE. -/
noncomputable def decodeMajor59 (w : BitVec 32) : Option Instr :=
  if bitsOf w 18 14 = 0#14 ∧ bitsOf w 7 4 = 0#4 then some (.cpTensor (bitsOf w 11 7))
  else if bitsOf w 18 14 = 0#14 ∧ bitsOf w 7 4 = 1#4 then some (.cpGather (bitsOf w 11 7))
  else if bitsOf w 18 14 = 0#14 ∧ bitsOf w 7 4 = 2#4 then some (.cpScatter (bitsOf w 11 7))
  else if bitsOf w 18 14 = 0#14 ∧ bitsOf w 7 4 = 3#4 then some (.cpMcast (bitsOf w 11 7))
  else if bitsOf w 18 14 = 0#14 ∧ bitsOf w 7 4 = 4#4 then some (.cpPack (bitsOf w 11 7))
  else if bitsOf w 18 14 = 0#14 ∧ bitsOf w 7 4 = 5#4 then some (.cpUnpack (bitsOf w 11 7))
  else if bitsOf w 18 14 = 0#14 ∧ bitsOf w 7 4 = 6#4 then some (.cpFill (bitsOf w 11 7))
  else if bitsOf w 18 14 = 0#14 ∧ bitsOf w 7 4 = 7#4 then some (.cpCancel (bitsOf w 11 7))
  else if bitsOf w 18 14 = 0#14 ∧ bitsOf w 7 4 = 13#4 then some (.tagfree (bitsOf w 11 7))
  else if bitsOf w 25 7 = 0#7 ∧ bitsOf w 7 4 = 8#4 then some (.barinit (bitsOf w 18 7) (bitsOf w 11 7))
  else if bitsOf w 25 7 = 0#7 ∧ bitsOf w 7 4 = 9#4 then some (.barexp (bitsOf w 18 7) (bitsOf w 11 7))
  else if bitsOf w 25 7 = 0#7 ∧ bitsOf w 7 4 = 11#4 then some (.bartest (bitsOf w 18 7) (bitsOf w 11 7))
  else if bitsOf w 25 7 = 125#7 ∧ bitsOf w 7 4 = 12#4 then some (.tagalloc (bitsOf w 18 7) (bitsOf w 11 7))
  else if bitsOf w 25 7 = 0#7 ∧ bitsOf w 7 4 = 14#4 then some (.fsend (bitsOf w 18 7) (bitsOf w 11 7))
  else if bitsOf w 25 7 = 0#7 ∧ bitsOf w 7 4 = 15#4 then some (.tagqry (bitsOf w 18 7) (bitsOf w 11 7))
  else if bitsOf w 7 4 = 10#4 then some (.barwait (bitsOf w 25 7) (bitsOf w 18 7) (bitsOf w 11 7))
  else if bitsOf w 7 4 = 12#4 then some (.tagallocTree (bitsOf w 25 7) (bitsOf w 18 7) (bitsOf w 11 7))
  else none

/-- Major 0x3C: MMA. -/
noncomputable def decodeMajor60 (w : BitVec 32) : Option Instr :=
  if bitsOf w 7 4 = 0#4 then some (.mma (bitsOf w 27 5) (bitsOf w 26 1) (bitsOf w 25 1) (bitsOf w 22 3) (bitsOf w 18 4) (bitsOf w 14 4) (bitsOf w 11 3))
  else none

/-- Major 0x3D: OCLAIM, ORELEASE, OSETFMT, ACLAIM, ARELEASE, AINIT, AINIT_SET, AINIT_SLOT, ALD, ALD_COL, ALD_STAT, AST, AST_COL, QBFP, OFILL, OREAD, OREAD_REC. -/
noncomputable def decodeMajor61 (w : BitVec 32) : Option Instr :=
  if bitsOf w 30 2 = 0#2 ∧ bitsOf w 7 12 = 0#12 then some (.oclaim (bitsOf w 23 7) (bitsOf w 19 4))
  else if bitsOf w 23 9 = 0#9 ∧ bitsOf w 7 12 = 1#12 then some (.orelease (bitsOf w 19 4))
  else if bitsOf w 30 2 = 0#2 ∧ bitsOf w 7 12 = 2#12 then some (.osetfmt (bitsOf w 23 7) (bitsOf w 19 4))
  else if bitsOf w 30 2 = 0#2 ∧ bitsOf w 22 1 = 0#1 ∧ bitsOf w 7 12 = 3#12 then some (.aclaim (bitsOf w 23 7) (bitsOf w 19 3))
  else if bitsOf w 22 10 = 0#10 ∧ bitsOf w 7 12 = 4#12 then some (.arelease (bitsOf w 19 3))
  else if bitsOf w 22 10 = 0#10 ∧ bitsOf w 7 12 = 5#12 then some (.ainit (bitsOf w 19 3))
  else if bitsOf w 30 2 = 1#2 ∧ bitsOf w 22 1 = 0#1 ∧ bitsOf w 7 12 = 5#12 then some (.ainitSet (bitsOf w 23 7) (bitsOf w 19 3))
  else if bitsOf w 30 2 = 2#2 ∧ bitsOf w 22 1 = 0#1 ∧ bitsOf w 7 12 = 5#12 then some (.ainitSlot (bitsOf w 23 7) (bitsOf w 19 3))
  else if bitsOf w 30 2 = 0#2 ∧ bitsOf w 22 1 = 0#1 ∧ bitsOf w 7 4 = 6#4 then some (.ald (bitsOf w 23 7) (bitsOf w 19 3) (bitsOf w 11 8))
  else if bitsOf w 30 2 = 1#2 ∧ bitsOf w 22 1 = 0#1 ∧ bitsOf w 7 4 = 6#4 then some (.aldCol (bitsOf w 23 7) (bitsOf w 19 3) (bitsOf w 11 8))
  else if bitsOf w 22 10 = 768#10 ∧ bitsOf w 7 4 = 6#4 then some (.aldStat (bitsOf w 19 3) (bitsOf w 11 8))
  else if bitsOf w 30 2 = 0#2 ∧ bitsOf w 22 1 = 0#1 ∧ bitsOf w 7 4 = 7#4 then some (.ast (bitsOf w 23 7) (bitsOf w 19 3) (bitsOf w 11 8))
  else if bitsOf w 30 2 = 1#2 ∧ bitsOf w 22 1 = 0#1 ∧ bitsOf w 7 4 = 7#4 then some (.astCol (bitsOf w 23 7) (bitsOf w 19 3) (bitsOf w 11 8))
  else if bitsOf w 30 2 = 0#2 ∧ bitsOf w 7 4 = 8#4 then some (.qbfp (bitsOf w 23 7) (bitsOf w 19 4) (bitsOf w 11 8))
  else if bitsOf w 30 2 = 0#2 ∧ bitsOf w 7 4 = 9#4 then some (.ofill (bitsOf w 23 7) (bitsOf w 19 4) (bitsOf w 11 8))
  else if bitsOf w 30 2 = 0#2 ∧ bitsOf w 7 4 = 10#4 then some (.oread (bitsOf w 23 7) (bitsOf w 19 4) (bitsOf w 11 8))
  else if bitsOf w 23 9 = 256#9 ∧ bitsOf w 7 4 = 10#4 then some (.oreadRec (bitsOf w 19 4) (bitsOf w 11 8))
  else none

/-- Major 0x3E: RTRACE, RTANY, RTQRY, LTWALK, LTPDF, TEXLD, TEXG, RNGCTR, RNGF, RSVINIT, RSVUPD, RSVMRG, RSVNORM, RSVLD, RSVST, REUSE, TGTRET, BRIMX. -/
noncomputable def decodeMajor62 (w : BitVec 32) : Option Instr :=
  if bitsOf w 7 5 = 0#5 then some (.rtrace (bitsOf w 28 4) (bitsOf w 20 8) (bitsOf w 12 8))
  else if bitsOf w 7 5 = 1#5 then some (.rtany (bitsOf w 28 4) (bitsOf w 20 8) (bitsOf w 12 8))
  else if bitsOf w 7 5 = 2#5 then some (.rtqry (bitsOf w 28 4) (bitsOf w 20 8) (bitsOf w 12 8))
  else if bitsOf w 7 5 = 3#5 then some (.ltwalk (bitsOf w 28 4) (bitsOf w 20 8) (bitsOf w 12 8))
  else if bitsOf w 7 5 = 4#5 then some (.ltpdf (bitsOf w 28 4) (bitsOf w 20 8) (bitsOf w 12 8))
  else if bitsOf w 7 5 = 5#5 then some (.texld (bitsOf w 28 4) (bitsOf w 20 8) (bitsOf w 12 8))
  else if bitsOf w 7 5 = 6#5 then some (.texg (bitsOf w 28 4) (bitsOf w 20 8) (bitsOf w 12 8))
  else if bitsOf w 28 4 = 0#4 ∧ bitsOf w 7 5 = 7#5 then some (.rngctr (bitsOf w 20 8) (bitsOf w 12 8))
  else if bitsOf w 28 4 = 0#4 ∧ bitsOf w 7 5 = 8#5 then some (.rngf (bitsOf w 20 8) (bitsOf w 12 8))
  else if bitsOf w 20 12 = 0#12 ∧ bitsOf w 7 5 = 9#5 then some (.rsvinit (bitsOf w 12 8))
  else if bitsOf w 28 4 = 0#4 ∧ bitsOf w 7 5 = 10#5 then some (.rsvupd (bitsOf w 20 8) (bitsOf w 12 8))
  else if bitsOf w 28 4 = 0#4 ∧ bitsOf w 7 5 = 11#5 then some (.rsvmrg (bitsOf w 20 8) (bitsOf w 12 8))
  else if bitsOf w 20 12 = 0#12 ∧ bitsOf w 7 5 = 12#5 then some (.rsvnorm (bitsOf w 12 8))
  else if bitsOf w 7 5 = 13#5 then some (.rsvld (bitsOf w 28 4) (bitsOf w 20 8) (bitsOf w 12 8))
  else if bitsOf w 7 5 = 14#5 then some (.rsvst (bitsOf w 28 4) (bitsOf w 20 8) (bitsOf w 12 8))
  else if bitsOf w 7 21 = 15#21 then some (.reuse (bitsOf w 28 4))
  else if bitsOf w 28 4 = 0#4 ∧ bitsOf w 7 5 = 16#5 then some (.tgtret (bitsOf w 20 8) (bitsOf w 12 8))
  else if bitsOf w 7 21 = 17#21 then some (.brimx (bitsOf w 28 4))
  else none

/-- A 32-bit instruction by its major (R62). -/
noncomputable def decode32 (w : BitVec 32) : Option Instr :=
  if bitsOf w 0 1 = 0#1 then none else
  match (bitsOf w 1 6).toNat with
  | 0 => decodeMajor0 w
  | 1 => decodeMajor1 w
  | 2 => decodeMajor2 w
  | 3 => decodeMajor3 w
  | 4 => decodeMajor4 w
  | 5 => decodeMajor5 w
  | 6 => decodeMajor6 w
  | 7 => decodeMajor7 w
  | 8 => decodeMajor8 w
  | 9 => decodeMajor9 w
  | 10 => decodeMajor10 w
  | 11 => decodeMajor11 w
  | 12 => decodeMajor12 w
  | 13 => decodeMajor13 w
  | 14 => decodeMajor14 w
  | 15 => decodeMajor15 w
  | 16 => decodeMajor16 w
  | 17 => decodeMajor17 w
  | 18 => decodeMajor18 w
  | 19 => decodeMajor19 w
  | 20 => decodeMajor20 w
  | 22 => decodeMajor22 w
  | 23 => decodeMajor23 w
  | 24 => decodeMajor24 w
  | 25 => decodeMajor25 w
  | 26 => decodeMajor26 w
  | 27 => decodeMajor27 w
  | 28 => decodeMajor28 w
  | 29 => decodeMajor29 w
  | 30 => decodeMajor30 w
  | 31 => decodeMajor31 w
  | 32 => decodeMajor32 w
  | 33 => decodeMajor33 w
  | 34 => decodeMajor34 w
  | 35 => decodeMajor35 w
  | 36 => decodeMajor36 w
  | 37 => decodeMajor37 w
  | 38 => decodeMajor38 w
  | 39 => decodeMajor39 w
  | 40 => decodeMajor40 w
  | 41 => decodeMajor41 w
  | 42 => decodeMajor42 w
  | 43 => decodeMajor43 w
  | 44 => decodeMajor44 w
  | 45 => decodeMajor45 w
  | 46 => decodeMajor46 w
  | 47 => decodeMajor47 w
  | 48 => decodeMajor48 w
  | 49 => decodeMajor49 w
  | 50 => decodeMajor50 w
  | 51 => decodeMajor51 w
  | 52 => decodeMajor52 w
  | 53 => decodeMajor53 w
  | 54 => decodeMajor54 w
  | 55 => decodeMajor55 w
  | 56 => decodeMajor56 w
  | 57 => decodeMajor57 w
  | 58 => decodeMajor58 w
  | 59 => decodeMajor59 w
  | 60 => decodeMajor60 w
  | 61 => decodeMajor61 w
  | 62 => decodeMajor62 w
  | _ => none

/-- An assigned instruction that also passes the static checks, or the name of the refusal. -/
def checked (i : Option Instr) : Except DecodeError Instr :=
  match i with
  | none => .error .unassigned
  | some i => if wellFormed i then .ok i else .error .illFormed

/-- The instruction that a code unit or two hold. -/
noncomputable def decodeUnits (u : Units) : Except DecodeError Instr :=
  match u with
  | .half h => checked (decode16 h)
  | .word w => checked (decode32 w)

/-- Bytes, lowest address first, read little-endian (R2). -/
def bytesValue : List (BitVec 8) → Nat
  | [] => 0
  | b :: bs => b.toNat + 256 * bytesValue bs

/-- Decoding a code stream: the instruction and the bytes after it (R30, R62). -/
noncomputable def decode (bs : List (BitVec 8)) : Except DecodeError (Instr × List (BitVec 8)) :=
  match bs with
  | b0 :: b1 :: rest =>
    if b0.extractLsb' 0 1 = 0#1 then
      match decodeUnits (.half (BitVec.ofNat 16 (bytesValue [b0, b1]))) with
      | .ok i => .ok (i, rest)
      | .error e => .error e
    else
      match rest with
      | b2 :: b3 :: rest' =>
        match decodeUnits (.word (BitVec.ofNat 32 (bytesValue [b0, b1, b2, b3]))) with
        | .ok i => .ok (i, rest')
        | .error e => .error e
      | _ => .error .tooShort
  | _ => .error .tooShort

/-- The little-endian bytes of a number, n of them (R2). -/
def bytesLe : Nat → Nat → List (BitVec 8)
  | 0, _ => []
  | n + 1, v => BitVec.ofNat 8 v :: bytesLe n (v / 256)

/-- The host's question: the instruction the decoder reads from the word w of a row of nbits. -/
noncomputable def decodeTableWord (_nbits w : Nat) : Option Instr :=
  match decode (bytesLe 16 w) with
  | .ok (i, _) => some i
  | .error _ => none

/-- The code units of an encoded row, its fields from the high bits down; an event row has none. -/
def encode (i : Instr) : Option Units :=
  match i with
  | .clauseHeader y s b a w => some (.word (0#3 ++ y ++ s ++ b ++ a ++ w ++ 1#7))
  | .modxLaneSelect p => some (.word (0#3 ++ p ++ 3#11))
  | .modxNegateAbs p => some (.word (0#15 ++ p ++ 131#11))
  | .modxAddress p => some (.word (0#11 ++ p ++ 259#11))
  | .modxRounding p => some (.word (0#18 ++ p ++ 387#11))
  | .modxSetb => some (.word (515#32))
  | .modxSaturate n => some (.word (0#20 ++ n ++ 643#11))
  | .nop => some (.half (20480#16))
  | .mov16 b d => some (.half (b ++ d ++ 0#5))
  | .iadd16 b d => some (.half (b ++ d ++ 2#5))
  | .isub16 b d => some (.half (b ++ d ++ 4#5))
  | .and16 b d => some (.half (b ++ d ++ 6#5))
  | .or16 b d => some (.half (b ++ d ++ 8#5))
  | .xor16 b d => some (.half (b ++ d ++ 10#5))
  | .shl16 b d => some (.half (b ++ d ++ 12#5))
  | .shr16 b d => some (.half (b ++ d ++ 14#5))
  | .sar16 b d => some (.half (b ++ d ++ 16#5))
  | .iminI16 b d => some (.half (b ++ d ++ 18#5))
  | .imaxI16 b d => some (.half (b ++ d ++ 20#5))
  | .fadd16 b d => some (.half (b ++ d ++ 22#5))
  | .fsub16 b d => some (.half (b ++ d ++ 24#5))
  | .fmul16 b d => some (.half (b ++ d ++ 26#5))
  | .fmin16 b d => some (.half (b ++ d ++ 28#5))
  | .fmax16 b d => some (.half (b ++ d ++ 30#5))
  | .bra o => some (.word (o ++ 5#17))
  | .brez o => some (.word (o ++ 16389#17))
  | .brnez o => some (.word (o ++ 32773#17))
  | .brzS o s => some (.word (o ++ 3#3 ++ s ++ 5#7))
  | .brnzS o s => some (.word (o ++ 4#3 ++ s ++ 5#7))
  | .brnegS o s => some (.word (o ++ 5#3 ++ s ++ 5#7))
  | .call o s => some (.word (o ++ 6#3 ++ s ++ 5#7))
  | .nopW => some (.word (7#32))
  | .ret s => some (.word (0#13 ++ s ++ 135#12))
  | .jmpi s => some (.word (0#13 ++ s ++ 263#12))
  | .exit => some (.word (391#32))
  | .split j b a => some (.word (0#4 ++ j ++ b ++ a ++ 519#12))
  | .join j => some (.word (0#4 ++ j ++ 647#26))
  | .yield => some (.word (775#32))
  | .sleep n s => some (.word (n ++ 0#7 ++ s ++ 903#12))
  | .waitp p s => some (.word (0#3 ++ p ++ 0#7 ++ s ++ 1031#12))
  | .barTeam b s => some (.word (0#2 ++ b ++ 0#7 ++ s ++ 1159#12))
  | .barClu b s => some (.word (0#4 ++ b ++ 0#7 ++ s ++ 1287#12))
  | .barScope c k s => some (.word (0#1 ++ c ++ k ++ s ++ 1415#12))
  | .waitx m s => some (.word (0#2 ++ m ++ 0#7 ++ s ++ 1543#12))
  | .gangset s => some (.word (0#13 ++ s ++ 1671#12))
  | .trap n => some (.word (n ++ 1799#26))
  | .eret => some (.word (1927#32))
  | .halt => some (.word (2055#32))
  | .bkpt n => some (.word (n ++ 2183#26))
  | .rcommit => some (.word (2311#32))
  | .txbegin => some (.word (2439#32))
  | .txend d => some (.word (0#13 ++ d ++ 2567#12))
  | .txabort n => some (.word (n ++ 2695#26))
  | .fence c => some (.word (0#1 ++ c ++ 2823#26))
  | .sadd b a d => some (.word (0#3 ++ b ++ a ++ d ++ 9#8))
  | .ssub b a d => some (.word (1#3 ++ b ++ a ++ d ++ 9#8))
  | .smul b a d => some (.word (2#3 ++ b ++ a ++ d ++ 9#8))
  | .smulhI b a d => some (.word (3#3 ++ b ++ a ++ d ++ 9#8))
  | .smulhN b a d => some (.word (4#3 ++ b ++ a ++ d ++ 9#8))
  | .sminI b a d => some (.word (5#3 ++ b ++ a ++ d ++ 9#8))
  | .smaxI b a d => some (.word (6#3 ++ b ++ a ++ d ++ 9#8))
  | .sminN b a d => some (.word (7#3 ++ b ++ a ++ d ++ 9#8))
  | .smaxN b a d => some (.word (0#3 ++ b ++ a ++ d ++ 137#8))
  | .sand b a d => some (.word (1#3 ++ b ++ a ++ d ++ 137#8))
  | .sor b a d => some (.word (2#3 ++ b ++ a ++ d ++ 137#8))
  | .sxor b a d => some (.word (3#3 ++ b ++ a ++ d ++ 137#8))
  | .sandn b a d => some (.word (4#3 ++ b ++ a ++ d ++ 137#8))
  | .sshl b a d => some (.word (5#3 ++ b ++ a ++ d ++ 137#8))
  | .sshr b a d => some (.word (6#3 ++ b ++ a ++ d ++ 137#8))
  | .ssar b a d => some (.word (7#3 ++ b ++ a ++ d ++ 137#8))
  | .scmpEq b a d => some (.word (0#3 ++ b ++ a ++ d ++ 11#8))
  | .scmpNe b a d => some (.word (1#3 ++ b ++ a ++ d ++ 11#8))
  | .scmpLtI b a d => some (.word (2#3 ++ b ++ a ++ d ++ 11#8))
  | .scmpLeI b a d => some (.word (3#3 ++ b ++ a ++ d ++ 11#8))
  | .scmpLtN b a d => some (.word (4#3 ++ b ++ a ++ d ++ 11#8))
  | .scmpLeN b a d => some (.word (5#3 ++ b ++ a ++ d ++ 11#8))
  | .ssel b a d => some (.word (6#3 ++ b ++ a ++ d ++ 11#8))
  | .sclz a d => some (.word (896#10 ++ a ++ d ++ 11#8))
  | .spopc a d => some (.word (0#10 ++ a ++ d ++ 139#8))
  | .sbrev a d => some (.word (128#10 ++ a ++ d ++ 139#8))
  | .sctz a d => some (.word (256#10 ++ a ++ d ++ 139#8))
  | .sadd64 b a d => some (.word (3#3 ++ b ++ a ++ d ++ 139#8))
  | .ssub64 b a d => some (.word (4#3 ++ b ++ a ++ d ++ 139#8))
  | .sshl64 b a d => some (.word (5#3 ++ b ++ a ++ d ++ 139#8))
  | .sshr64 b a d => some (.word (6#3 ++ b ++ a ++ d ++ 139#8))
  | .smul64 b a d => some (.word (7#3 ++ b ++ a ++ d ++ 139#8))
  | .saddi i a d => some (.word (i ++ a ++ d ++ 13#7))
  | .sandi i a d => some (.word (i ++ a ++ d ++ 15#7))
  | .sshli i a d => some (.word (0#6 ++ i ++ a ++ d ++ 17#7))
  | .sshri i a d => some (.word (0#6 ++ i ++ a ++ d ++ 19#7))
  | .slti i a d => some (.word (i ++ a ++ d ++ 21#7))
  | .srd n d => some (.word (0#3 ++ n ++ 0#7 ++ d ++ 23#8))
  | .swr n a => some (.word (1#3 ++ n ++ a ++ 23#15))
  | .sysClockRead _ => none
  | .sysGangWrite _ => none
  | .sysFpflagsWrite _ => none
  | .sysFaultmaskClear _ => none
  | .contextRegisterWrite _ _ => none
  | .preemptRequest _ _ => none
  | .contextSuspend _ => none
  | .contextResume _ => none
  | .contextMarkFailed _ => none
  | .tlbinvRange b a d => some (.word (2#3 ++ b ++ a ++ d ++ 23#8))
  | .tlbinvCtx a d => some (.word (384#10 ++ a ++ d ++ 23#8))
  | .dharv b a d => some (.word (4#3 ++ b ++ a ++ d ++ 23#8))
  | .tagpurge a => some (.word (640#10 ++ a ++ 23#15))
  | .iadd b a d => some (.word (b ++ a ++ d ++ 25#8))
  | .isub b a d => some (.word (b ++ a ++ d ++ 153#8))
  | .imul b a d => some (.word (b ++ a ++ d ++ 27#8))
  | .imulhI b a d => some (.word (b ++ a ++ d ++ 155#8))
  | .imulhN b a d => some (.word (b ++ a ++ d ++ 29#8))
  | .imad b a d => some (.word (b ++ a ++ d ++ 157#8))
  | .iminI b a d => some (.word (b ++ a ++ d ++ 31#8))
  | .imaxI b a d => some (.word (b ++ a ++ d ++ 159#8))
  | .iminN b a d => some (.word (b ++ a ++ d ++ 33#8))
  | .imaxN b a d => some (.word (b ++ a ++ d ++ 161#8))
  | .and b a d => some (.word (b ++ a ++ d ++ 35#8))
  | .or b a d => some (.word (b ++ a ++ d ++ 163#8))
  | .xor b a d => some (.word (b ++ a ++ d ++ 37#8))
  | .andn b a d => some (.word (b ++ a ++ d ++ 165#8))
  | .shl b a d => some (.word (b ++ a ++ d ++ 39#8))
  | .shr b a d => some (.word (b ++ a ++ d ++ 167#8))
  | .sar b a d => some (.word (b ++ a ++ d ++ 41#8))
  | .rol b a d => some (.word (b ++ a ++ d ++ 169#8))
  | .clz a d => some (.word (0#8 ++ a ++ d ++ 45#8))
  | .popc a d => some (.word (1#8 ++ a ++ d ++ 45#8))
  | .brev a d => some (.word (2#8 ++ a ++ d ++ 45#8))
  | .ctz a d => some (.word (3#8 ++ a ++ d ++ 45#8))
  | .iabs a d => some (.word (4#8 ++ a ++ d ++ 45#8))
  | .ineg a d => some (.word (5#8 ++ a ++ d ++ 45#8))
  | .frcp a d => some (.word (0#8 ++ a ++ d ++ 173#8))
  | .frsq a d => some (.word (1#8 ++ a ++ d ++ 173#8))
  | .fsqrt a d => some (.word (2#8 ++ a ++ d ++ 173#8))
  | .fexp2 a d => some (.word (3#8 ++ a ++ d ++ 173#8))
  | .flog2 a d => some (.word (4#8 ++ a ++ d ++ 173#8))
  | .fsin a d => some (.word (5#8 ++ a ++ d ++ 173#8))
  | .fcos a d => some (.word (6#8 ++ a ++ d ++ 173#8))
  | .ffract a d => some (.word (7#8 ++ a ++ d ++ 173#8))
  | .frintRne a d => some (.word (8#8 ++ a ++ d ++ 173#8))
  | .frintRtz a d => some (.word (9#8 ++ a ++ d ++ 173#8))
  | .frintRdn a d => some (.word (10#8 ++ a ++ d ++ 173#8))
  | .frintRup a d => some (.word (11#8 ++ a ++ d ++ 173#8))
  | .bfe b a d => some (.word (b ++ a ++ d ++ 47#8))
  | .bfi b a d => some (.word (b ++ a ++ d ++ 175#8))
  | .ilv2 b a d => some (.word (b ++ a ++ d ++ 49#8))
  | .ilv3 b a d => some (.word (b ++ a ++ d ++ 177#8))
  | .dilv2 b a d => some (.word (b ++ a ++ d ++ 51#8))
  | .dilv3 b a d => some (.word (b ++ a ++ d ++ 179#8))
  | .fadd b a d => some (.word (b ++ a ++ d ++ 53#8))
  | .fsub b a d => some (.word (b ++ a ++ d ++ 181#8))
  | .fmul b a d => some (.word (b ++ a ++ d ++ 55#8))
  | .ffma b a d => some (.word (b ++ a ++ d ++ 183#8))
  | .fmin b a d => some (.word (b ++ a ++ d ++ 57#8))
  | .fmax b a d => some (.word (b ++ a ++ d ++ 185#8))
  | .fdiv b a d => some (.word (b ++ a ++ d ++ 59#8))
  | .fcpys b a d => some (.word (b ++ a ++ d ++ 187#8))
  | .hadd2 b a d => some (.word (b ++ a ++ d ++ 61#8))
  | .hmul2 b a d => some (.word (b ++ a ++ d ++ 189#8))
  | .hfma2 b a d => some (.word (b ++ a ++ d ++ 63#8))
  | .bfma2 b a d => some (.word (b ++ a ++ d ++ 191#8))
  | .dadd b a d => some (.word (b ++ a ++ d ++ 65#8))
  | .dmul b a d => some (.word (b ++ a ++ d ++ 193#8))
  | .dfma b a d => some (.word (b ++ a ++ d ++ 67#8))
  | .ddiv b a d => some (.word (b ++ a ++ d ++ 195#8))
  | .icmpEq b a d => some (.word (b ++ a ++ 0#1 ++ d ++ 69#8))
  | .icmpNe b a d => some (.word (b ++ a ++ 0#1 ++ d ++ 197#8))
  | .icmpLtI b a d => some (.word (b ++ a ++ 0#1 ++ d ++ 71#8))
  | .icmpLeI b a d => some (.word (b ++ a ++ 0#1 ++ d ++ 199#8))
  | .icmpLtN b a d => some (.word (b ++ a ++ 0#1 ++ d ++ 73#8))
  | .icmpLeN b a d => some (.word (b ++ a ++ 0#1 ++ d ++ 201#8))
  | .fcmpEq b a d => some (.word (b ++ a ++ 0#1 ++ d ++ 75#8))
  | .fcmpNe b a d => some (.word (b ++ a ++ 0#1 ++ d ++ 203#8))
  | .fcmpLt b a d => some (.word (b ++ a ++ 0#1 ++ d ++ 77#8))
  | .fcmpLe b a d => some (.word (b ++ a ++ 0#1 ++ d ++ 205#8))
  | .fcmpUn b a d => some (.word (b ++ a ++ 0#1 ++ d ++ 79#8))
  | .vote a d => some (.word (0#8 ++ a ++ 0#1 ++ d ++ 207#8))
  | .sel s a d => some (.word (s ++ a ++ d ++ 81#9))
  | .movs s d => some (.word (s ++ 0#8 ++ d ++ 209#9))
  | .lea s a d => some (.word (s ++ a ++ d ++ 337#9))
  | .readlane s a d => some (.word (s ++ a ++ 0#1 ++ d ++ 465#9))
  | .iaddi i a d => some (.word (i ++ a ++ d ++ 83#8))
  | .shli n a d => some (.word (0#3 ++ n ++ a ++ d ++ 211#8))
  | .shri n a d => some (.word (0#3 ++ n ++ a ++ d ++ 85#8))
  | .sari n a d => some (.word (0#3 ++ n ++ a ++ d ++ 213#8))
  | .shflXor k a d => some (.word (0#3 ++ k ++ a ++ d ++ 87#8))
  | .shflUp f n a d => some (.word (0#2 ++ f ++ n ++ a ++ d ++ 215#8))
  | .shflDn f n a d => some (.word (0#2 ++ f ++ n ++ a ++ d ++ 89#8))
  | .sext w a d => some (.word (w ++ a ++ d ++ 217#8))
  | .shflIdx b a d => some (.word (b ++ a ++ d ++ 91#8))
  | .fclass a d => some (.word (0#8 ++ a ++ d ++ 219#8))
  | .redx o a d => some (.word (0#4 ++ o ++ a ++ d ++ 93#8))
  | .scanx o a d => some (.word (0#4 ++ o ++ a ++ d ++ 221#8))
  | .cvtF32I32 r a d => some (.word (0#1 ++ r ++ 0#4 ++ a ++ d ++ 95#8))
  | .cvtF32N32 r a d => some (.word (0#1 ++ r ++ 1#4 ++ a ++ d ++ 95#8))
  | .cvtI32F32 s r a d => some (.word (s ++ r ++ 2#4 ++ a ++ d ++ 95#8))
  | .cvtN32F32 s r a d => some (.word (s ++ r ++ 3#4 ++ a ++ d ++ 95#8))
  | .cvtF64F32 a d => some (.word (4#8 ++ a ++ d ++ 95#8))
  | .cvtF32F64 s r a d => some (.word (s ++ r ++ 5#4 ++ a ++ d ++ 95#8))
  | .cvtF64I32 a d => some (.word (6#8 ++ a ++ d ++ 95#8))
  | .cvtF64N32 a d => some (.word (7#8 ++ a ++ d ++ 95#8))
  | .cvtI32F64 s r a d => some (.word (s ++ r ++ 8#4 ++ a ++ d ++ 95#8))
  | .cvtN32F64 s r a d => some (.word (s ++ r ++ 9#4 ++ a ++ d ++ 95#8))
  | .cvtF16F32 s r a d => some (.word (s ++ r ++ 10#4 ++ a ++ d ++ 95#8))
  | .cvtF32F16 a d => some (.word (11#8 ++ a ++ d ++ 95#8))
  | .cvtBf16F32 s r a d => some (.word (s ++ r ++ 12#4 ++ a ++ d ++ 95#8))
  | .cvtF32Bf16 a d => some (.word (13#8 ++ a ++ d ++ 95#8))
  | .cvtI64F64 s r a d => some (.word (s ++ r ++ 14#4 ++ a ++ d ++ 95#8))
  | .cvtN64F64 s r a d => some (.word (s ++ r ++ 15#4 ++ a ++ d ++ 95#8))
  | .cvtF64I64 r a d => some (.word (0#1 ++ r ++ 0#4 ++ a ++ d ++ 223#8))
  | .cvtF64N64 r a d => some (.word (0#1 ++ r ++ 1#4 ++ a ++ d ++ 223#8))
  | .cvtI16I32 s a d => some (.word (s ++ 2#7 ++ a ++ d ++ 223#8))
  | .cvtN16N32 s a d => some (.word (s ++ 3#7 ++ a ++ d ++ 223#8))
  | .cvtI8I32 s a d => some (.word (s ++ 4#7 ++ a ++ d ++ 223#8))
  | .cvtN8N32 s a d => some (.word (s ++ 5#7 ++ a ++ d ++ 223#8))
  | .cvtFp19F32 s r a d => some (.word (s ++ r ++ 6#4 ++ a ++ d ++ 223#8))
  | .cvtF32Fp19 a d => some (.word (7#8 ++ a ++ d ++ 223#8))
  | .cullbf b a d => some (.word (b ++ a ++ 0#1 ++ d ++ 97#8))
  | .cullfr b a d => some (.word (b ++ a ++ 0#1 ++ d ++ 225#8))
  | .cullsz a d => some (.word (0#8 ++ a ++ 0#1 ++ d ++ 99#8))
  | .bary b a d => some (.word (b ++ a ++ d ++ 227#8))
  | .spld s a d z => some (.word (s ++ a ++ d ++ z ++ 101#7))
  | .spst s a d z => some (.word (s ++ a ++ d ++ z ++ 103#7))
  | .spatXchg s a d => some (.word (s ++ a ++ d ++ 105#11))
  | .spatCas s a d => some (.word (s ++ a ++ d ++ 233#11))
  | .spatIadd s a d => some (.word (s ++ a ++ d ++ 361#11))
  | .spatIminI s a d => some (.word (s ++ a ++ d ++ 489#11))
  | .spatImaxI s a d => some (.word (s ++ a ++ d ++ 617#11))
  | .spatIminN s a d => some (.word (s ++ a ++ d ++ 745#11))
  | .spatImaxN s a d => some (.word (s ++ a ++ d ++ 873#11))
  | .spatAnd s a d => some (.word (s ++ a ++ d ++ 1001#11))
  | .spatOr s a d => some (.word (s ++ a ++ d ++ 1129#11))
  | .spatXor s a d => some (.word (s ++ a ++ d ++ 1257#11))
  | .spatFadd s a d => some (.word (s ++ a ++ d ++ 1385#11))
  | .spatFmin s a d => some (.word (s ++ a ++ d ++ 1513#11))
  | .spatFmax s a d => some (.word (s ++ a ++ d ++ 1641#11))
  | .ctins f t a d => some (.word (0#1 ++ f ++ t ++ a ++ d ++ 107#11))
  | .ctprb f t a d => some (.word (0#2 ++ f ++ t ++ a ++ d ++ 235#11))
  | .ctdel f t a d => some (.word (0#2 ++ f ++ t ++ a ++ d ++ 363#11))
  | .ctacc f t a d => some (.word (0#1 ++ f ++ t ++ a ++ d ++ 491#11))
  | .ctinit d a => some (.word (0#7 ++ d ++ a ++ 109#11))
  | .ctfree a => some (.word (0#14 ++ a ++ 237#11))
  | .ctstat d a => some (.word (d ++ 0#7 ++ a ++ 365#11))
  | .ctdrain cur out ctl => some (.word (cur ++ out ++ ctl ++ 493#11))
  | .spmap size va ctl => some (.word (size ++ va ++ ctl ++ 621#11))
  | .spunmap m => some (.word (0#14 ++ m ++ 749#11))
  | .spwb m => some (.word (0#14 ++ m ++ 877#11))
  | .ldG s a d z => some (.word (s ++ a ++ d ++ z ++ 111#7))
  | .ldfwd s a d => some (.word (s ++ a ++ d ++ 495#9))
  | .stG s a d z => some (.word (s ++ a ++ d ++ z ++ 113#7))
  | .stfwd s a d => some (.word (s ++ a ++ d ++ 497#9))
  | .atomGXchg s a d => some (.word (s ++ a ++ d ++ 115#11))
  | .atomGCas s a d => some (.word (s ++ a ++ d ++ 243#11))
  | .atomGIadd s a d => some (.word (s ++ a ++ d ++ 371#11))
  | .atomGIminI s a d => some (.word (s ++ a ++ d ++ 499#11))
  | .atomGImaxI s a d => some (.word (s ++ a ++ d ++ 627#11))
  | .atomGIminN s a d => some (.word (s ++ a ++ d ++ 755#11))
  | .atomGImaxN s a d => some (.word (s ++ a ++ d ++ 883#11))
  | .atomGAnd s a d => some (.word (s ++ a ++ d ++ 1011#11))
  | .atomGOr s a d => some (.word (s ++ a ++ d ++ 1139#11))
  | .atomGXor s a d => some (.word (s ++ a ++ d ++ 1267#11))
  | .atomGFadd s a d => some (.word (s ++ a ++ d ++ 1395#11))
  | .atomGFmin s a d => some (.word (s ++ a ++ d ++ 1523#11))
  | .atomGFmax s a d => some (.word (s ++ a ++ d ++ 1651#11))
  | .redGIadd s a => some (.word (s ++ a ++ 479603#19))
  | .redGIminI s a => some (.word (s ++ a ++ 479731#19))
  | .redGImaxI s a => some (.word (s ++ a ++ 479859#19))
  | .redGIminN s a => some (.word (s ++ a ++ 479987#19))
  | .redGImaxN s a => some (.word (s ++ a ++ 480115#19))
  | .redGAnd s a => some (.word (s ++ a ++ 480243#19))
  | .redGOr s a => some (.word (s ++ a ++ 480371#19))
  | .redGXor s a => some (.word (s ++ a ++ 480499#19))
  | .redGFadd s a => some (.word (s ++ a ++ 480627#19))
  | .redGFmin s a => some (.word (s ++ a ++ 480755#19))
  | .redGFmax s a => some (.word (s ++ a ++ 480883#19))
  | .lds o b d => some (.word (o ++ b ++ d ++ 117#11))
  | .lds64 o b d => some (.word (o ++ b ++ d ++ 245#11))
  | .sts o b a => some (.word (o ++ b ++ a ++ 373#11))
  | .sts64 o b a => some (.word (o ++ b ++ a ++ 501#11))
  | .pref o b h => some (.word (o ++ b ++ h ++ 629#11))
  | .post arg card target => some (.word (arg ++ card ++ target ++ 757#11))
  | .depdec b => some (.word (0#7 ++ b ++ 885#18))
  | .ringarr r => some (.word (0#14 ++ r ++ 1013#11))
  | .ringwait p r => some (.word (0#7 ++ p ++ r ++ 1141#11))
  | .mboxsend m v => some (.word (0#7 ++ m ++ v ++ 1269#11))
  | .cpTensor d => some (.word (0#14 ++ d ++ 119#11))
  | .cpGather d => some (.word (0#14 ++ d ++ 247#11))
  | .cpScatter d => some (.word (0#14 ++ d ++ 375#11))
  | .cpMcast d => some (.word (0#14 ++ d ++ 503#11))
  | .cpPack d => some (.word (0#14 ++ d ++ 631#11))
  | .cpUnpack d => some (.word (0#14 ++ d ++ 759#11))
  | .cpFill d => some (.word (0#14 ++ d ++ 887#11))
  | .cpCancel b => some (.word (0#14 ++ b ++ 1015#11))
  | .barinit e o => some (.word (0#7 ++ e ++ o ++ 1143#11))
  | .barexp n o => some (.word (0#7 ++ n ++ o ++ 1271#11))
  | .barwait p o d => some (.word (p ++ o ++ d ++ 1399#11))
  | .bartest o d => some (.word (0#7 ++ o ++ d ++ 1527#11))
  | .tagalloc c d => some (.word (125#7 ++ c ++ d ++ 1655#11))
  | .tagallocTree n c d => some (.word (n ++ c ++ d ++ 1655#11))
  | .tagfree t => some (.word (0#14 ++ t ++ 1783#11))
  | .fsend m o => some (.word (0#7 ++ m ++ o ++ 1911#11))
  | .tagqry t d => some (.word (0#7 ++ t ++ d ++ 2039#11))
  | .mma p t o c b a k => some (.word (p ++ t ++ o ++ c ++ b ++ a ++ k ++ 121#11))
  | .oclaim s i => some (.word (0#2 ++ s ++ i ++ 123#19))
  | .orelease i => some (.word (0#9 ++ i ++ 251#19))
  | .osetfmt s i => some (.word (0#2 ++ s ++ i ++ 379#19))
  | .aclaim s i => some (.word (0#2 ++ s ++ 0#1 ++ i ++ 507#19))
  | .arelease i => some (.word (0#10 ++ i ++ 635#19))
  | .ainit i => some (.word (0#10 ++ i ++ 763#19))
  | .ainitSet s i => some (.word (1#2 ++ s ++ 0#1 ++ i ++ 763#19))
  | .ainitSlot s i => some (.word (2#2 ++ s ++ 0#1 ++ i ++ 763#19))
  | .ald s i d => some (.word (0#2 ++ s ++ 0#1 ++ i ++ d ++ 891#11))
  | .aldCol s i d => some (.word (1#2 ++ s ++ 0#1 ++ i ++ d ++ 891#11))
  | .aldStat i d => some (.word (768#10 ++ i ++ d ++ 891#11))
  | .ast s i d => some (.word (0#2 ++ s ++ 0#1 ++ i ++ d ++ 1019#11))
  | .astCol s i d => some (.word (1#2 ++ s ++ 0#1 ++ i ++ d ++ 1019#11))
  | .qbfp s i d => some (.word (0#2 ++ s ++ i ++ d ++ 1147#11))
  | .ofill s i d => some (.word (0#2 ++ s ++ i ++ d ++ 1275#11))
  | .oread s i d => some (.word (0#2 ++ s ++ i ++ d ++ 1403#11))
  | .oreadRec i d => some (.word (256#9 ++ i ++ d ++ 1403#11))
  | .rtrace s a d => some (.word (s ++ a ++ d ++ 125#12))
  | .rtany s a d => some (.word (s ++ a ++ d ++ 253#12))
  | .rtqry s a d => some (.word (s ++ a ++ d ++ 381#12))
  | .ltwalk s a d => some (.word (s ++ a ++ d ++ 509#12))
  | .ltpdf s a d => some (.word (s ++ a ++ d ++ 637#12))
  | .texld s a d => some (.word (s ++ a ++ d ++ 765#12))
  | .texg s a d => some (.word (s ++ a ++ d ++ 893#12))
  | .rngctr a d => some (.word (0#4 ++ a ++ d ++ 1021#12))
  | .rngf a d => some (.word (0#4 ++ a ++ d ++ 1149#12))
  | .rsvinit d => some (.word (0#12 ++ d ++ 1277#12))
  | .rsvupd a d => some (.word (0#4 ++ a ++ d ++ 1405#12))
  | .rsvmrg a d => some (.word (0#4 ++ a ++ d ++ 1533#12))
  | .rsvnorm d => some (.word (0#12 ++ d ++ 1661#12))
  | .rsvld s a d => some (.word (s ++ a ++ d ++ 1789#12))
  | .rsvst s a d => some (.word (s ++ a ++ d ++ 1917#12))
  | .reuse s => some (.word (s ++ 2045#28))
  | .tgtret a d => some (.word (0#4 ++ a ++ d ++ 2173#12))
  | .brimx s => some (.word (s ++ 2301#28))
  | .splitPromotion _ _ _ => none
  | .sleepExpiry _ _ _ => none
  | .flagOperationComplete _ _ _ => none
  | .globalLoadReturn _ _ _ => none
  | .regionCommit _ _ => none
  | .reservationLapse _ => none
  | .capacityCommit _ _ => none
  | .atomicCommit _ _ _ => none
  | .lineFill _ _ _ => none
  | .peerScratchpadAccess _ => none
  | .copyCommandStart _ _ => none
  | .copyRowComplete _ _ => none
  | .copyFault _ _ => none
  | .copyRestart _ _ => none
  | .copyResume _ _ _ => none
  | .mmaStart _ _ => none
  | .mmaComplete _ _ => none
  | .signalStore _ _ _ _ => none
  | .fullingOperandArrival _ => none
  | .fullingSpillRefill _ _ => none
  | .fullingReload _ => none
  | .fsendRetry _ => none
  | .fsendOverflow _ => none
  | .orphanExpiry _ => none
  | .spillSweep _ => none
  | .fullingDelivery _ => none
  | .heldDeliveryExpiry _ => none
  | .teamPlacement _ => none
  | .launchMessage _ => none
  | .teamEnd _ => none
  | .gridEnd _ => none
  | .pageWalk _ _ _ _ => none
  | .migratingRetry _ _ _ _ => none
  | .invalidationAck _ => none
  | .supervisorEntry _ => none
  | .hostTrapAction _ _ _ _ => none
  | .preemptSave _ _ => none
  | .preemptLimitExpiry _ _ => none
  | .watchdog _ => none
  | .debugHalt _ => none
  | .debugResume _ => none
  | .peerLinkDown _ => none
  | .peerLinkUp _ => none
  | .flitReplay _ => none
  | .uncorrectableFlit _ _ _ _ _ => none
  | .moduleLaneFailure _ => none
  | .powerThrottle _ => none
  | .thermalThrottle _ => none
  | .thermtrip => none
  | .reset => none
  | .attestationRequest _ => none
  | .slPin _ => none
  | .slUnpin _ => none
  | .slBypassClear _ _ => none
  | .contextBindingWrite _ _ _ _ => none
  | .controlNodeMemoryAccess _ _ _ => none
  | .shootdownRequest _ _ _ => none
  | .harvestRequest _ _ _ => none
  | .cardingSpillAllocation _ _ _ _ => none
  | .dramScrub _ => none
  | .sramScrub _ => none
  | .scrublate => none
  | .ucieRetraining _ => none
  | .gddr7Retraining _ => none
  | .agingMonitor => none
  | .flashWearLevelling => none
  | .telemetry => none
  | .rayUnitComplete _ _ => none
  | .rayLaneRestart _ _ _ => none
  | .reuseJobStart _ _ => none
  | .reuseBatch _ _ => none
  | .reuseMerge _ _ => none
  | .reuseJobComplete _ _ => none
  | .brimArrival _ _ => none
  | .illegalEncoding _ => none
  | .tagNodeAcknowledgement _ => none
  | .dirtyHarvestComplete _ => none
  | .zeroingComplete _ _ => none
  | .taskQueueAcceptance _ => none
  | .thermalThrottleEnd _ => none
  | .peerPortRequest _ _ _ _ => none

/-- The bytes of an instruction in memory, lowest address first (R2). -/
def Units.bytes (u : Units) : List (BitVec 8) :=
  match u with
  | .half h => bytesLe 2 h.toNat
  | .word w => bytesLe 4 w.toNat

/-- Whether a row has an encoding. -/
def encodable (i : Instr) : Bool := (encode i).isSome

end Sys2Proof
end

