-- ==== Sys2Proof/Machine/Schedule.lean ====
section
/-! DEFINITION. Sys2Proof/Machine/Schedule.lean: what the module does next (05_groups_and_control.md, R113 to R117): which waits are
over, what each quadrant's scheduler chooses, the fetch of the chosen split's instruction (02_instruction_formats.md, R30 to R38), and
what follows its issue. Step.lean only calls it. -/

namespace Sys2Proof.Machine

/-! ## Waits that end by themselves (R116, R117) -/

/-- Whether what split `q` of group `g` waits for has come. A wait that an event or a partner ends is not over before it does. -/
def State.waitOver (s : State) (g : Group) (q : Split) : Bool :=
  match q.wait with
  | .flags m => g.flagsClear m
  | .queueFull n => !((s.core g.core).queue n).isEmpty
  | .queueRoom n => decide (((s.core g.core).queue n).length < queueDepth)
  | .flagRoom f => decide (g.flagCount f < 63)
  | .pathRoom k => decide (g.pathCount k < 255)
  | .path k n => decide (g.pathCount k ≤ n)
  | .clock t => decide (t ≤ s.clock)
  | .barObject core a phase =>
    let m := (s.core core).spad
    decide (readBytes m (a + 8) 4 ≠ phase) || decide (readBytes m (a + 12) 4 ≠ 0)
  | .ring core ring stage phase => ((s.core core).phase ring stage).toNat == phase
  | .fence ops => ops.all fun id => (g.op id).isNone
  | .copyPlace => decide ((s.core g.core).copies.length < copyMax)
  | .latchFree => !((s.team g.team).latch.any fun h => h.slot == g.slot)
  | .slotOrder n => match q.turn with | some id => s.atTurn g.core n id | none => !s.zeroingAt g.core n
  | .atomics => !g.atomicsInFlight
  | .unitRoom u => s.unitFree g.core u
  | .jobRoom => decide ((s.core g.core).jobs.length < 16)
  | .results => g.ops.all Async.done
  | .owned line => !s.ownedLine line && !s.reservedElse g.core g.slot line
  | .pushes => q.pushing.isEmpty
  | .carding => !s.cardingHeld g.core || (s.core g.core).carding == some (g.slot, q.idx)
  | _ => false

/-- Lexicographic order. -/
def listLt : List Nat → List Nat → Bool
  | [], b => !b.isEmpty
  | _ :: _, [] => false
  | x :: a, y :: b => decide (x < y) || (x == y && listLt a b)

/-- Entries on their way into queues of a core: of an operation of a group, by number, or of a split, by index; `key` is their place among
the others (R48). -/
structure OnTheirWay where
  key : List Nat
  core : Nat
  slot : Nat
  op : Option Nat
  split : Nat
deriving DecidableEq, Repr

/-- The entries on their way: by the clk in which they reached their queues (log 59), then by quadrant and group index (R48), those of
operations in their order and before those of splits. -/
def Group.onTheirWay (g : Group) : List OnTheirWay :=
  (g.ops.filterMap fun o =>
    if o.done then none
    else o.returned.map fun t => { key := [t, g.core, g.slot / 16, g.gid, 0, o.id], core := g.core, slot := g.slot, op := some o.id, split := 0 }) ++
  g.splits.filterMap fun q =>
    q.pushing.head?.map fun e =>
      { key := [e.since, g.core, g.slot / 16, g.gid, 1, q.idx], core := g.core, slot := g.slot, op := none, split := q.idx }

/-- Entries put into a list in their order. -/
def putOnTheirWay (e : OnTheirWay) : List OnTheirWay → List OnTheirWay
  | [] => [e]
  | f :: l => if listLt e.key f.key then e :: f :: l else f :: putOnTheirWay e l

/-- Entries accepted where their queues have room (R47, R49): with the last of an operation's its registers are written and it completes
(R41); with the last of a split's the split waits no more. -/
def State.accept (s : State) (e : OnTheirWay) : State :=
  match e.op with
  | some id =>
    match (s.group e.core e.slot).bind fun g => g.op id with
    | some o =>
      let (s, rest) := s.pushSome e.core o.writes.q
      if rest.isEmpty then s.finishOp e.core e.slot id o.writes
      else s.modGroup e.core e.slot fun g => g.modOp id fun o => { o with writes := { o.writes with q := rest } }
    | none => s
  | none =>
    match (s.group e.core e.slot).bind fun g => findSplit e.split g.splits with
    | some q =>
      let (s, rest) := s.pushSplit e.core q.pushing
      s.modSplit e.core e.slot e.split fun q =>
        { q with pushing := rest, wait := if rest.isEmpty && q.wait == .pushes then .none else q.wait }
    | none => s

/-- The queue entries on their way, accepted at the end of the clk (R48). -/
def State.acceptPushes (s : State) : State :=
  ((s.groups.flatMap Group.onTheirWay).foldl (fun l e => putOnTheirWay e l) []).foldl State.accept s

/-- A split whose wait is over: BARWAIT has read its object in the clk in which the condition is seen (R295). -/
def State.seen (s : State) (q : Split) : Split :=
  match q.wait with
  | .barObject core a _ =>
    let word := fun (i : Nat) => BitVec.ofNat 32 (readBytes (s.core core).spad (a + i) 4)
    { s.wake q with kept := some (.bar (word 8) (word 12)) }
  | _ => s.wake q

/-- A clk begins: every split whose wait is over waits no more. -/
def State.refresh (s : State) : State :=
  s.mapGroups fun g => { g with splits := g.splits.map fun q => if s.waitOver g q then s.seen q else q }

/-! ## The choice of the schedulers (R113 to R115) -/

/-- Whether no group of a die issues in this clk: an idle clock that the system controller has inserted (R22, R447, log 2). -/
def State.idleClk (s : State) (die : Nat) : Bool :=
  (keyFind s.dev.idle die).any (fun t => decide (s.clock ≤ t)) || (s.dev.hot.contains die && s.clock % 2 == 1)

/-- Whether a group may issue: it has no pending record (R417) and is not stopped, no fence stalls it (R234), its core is not in debug
halt, which lets the evaluator of a reuse job go on (R379, R435). -/
def State.canIssue (s : State) (g : Group) : Bool :=
  g.live && !g.trapped && !g.stopped && (!(s.core g.core).halted || g.evaluates.isSome) &&
    !(g.splits.any fun q => match q.wait with | .fence _ => true | _ => false)

/-- Whether a split is ready (R114, R116): no wait, no commit under way for another split (R219), and no instruction of another split that
waits for its turn at a slot or a tile (R303). -/
def State.splitReady (s : State) (g : Group) (q : Split) : Bool :=
  s.canIssue g && q.live && q.wait == .none && (g.splits.all fun r => r.turn.isNone || r.idx == q.idx) &&
    match g.region.committing with
    | none => true
    | some i => g.region.acting && i == q.idx

/-- The scheduler of a group (R26, R27, R113); the evaluator of a core is its own (R376). -/
def Group.quadrant (g : Group) : Nat := 5 * g.core + g.slot / 16

/-- The clk since which a ready split has waited: it was not ready before, or it issued last in the clk before (R114, R115). -/
def Split.since (q : Split) : Nat := max q.readyTime (q.lastIssue + 1)

/-- The instructions of its clause that a split has issued: the prefixes of a chain issue with their target (R52). -/
def Split.passed (q : Split) : Nat := match q.mods.start with | some (_, count, _) => count | none => q.count

/-- The rules of R114 as a rank, the least chosen: the supervisor; the promoted splits, the longest waiting first; the split that issued in
the clk before, in its clause (R131); else by class, by YLD (R32), by ready time, by group and split index. Groups of different teams may
still tie: the lower team slot goes first (log 2). -/
def State.rank (s : State) (g : Group) (q : Split) : List Nat :=
  let b := fun (x : Bool) => if x then 0 else 1
  let goesOn := q.lastIssue + 1 == s.clock && q.inClause && decide (0 < q.passed) && !q.yielded
  [b (g.slot == supSlot)] ++
    (if q.promoted then [0, q.since]
     else [1, b goesOn, 3 - (s.team g.team).card.prio, b (!(q.yielded && q.passed == 0)), q.readyTime]) ++
    [g.gid, q.idx, (s.team g.team).tslot]

/-- Which splits are ready is noted when the schedulers choose: a split's ready time is the clk in which it last became ready (R114). -/
def State.noteReady (s : State) : State :=
  let note := fun (g : Group) (q : Split) =>
    let r := s.splitReady g q
    { q with ready := r, readyTime := if r && !q.ready then s.clock else q.readyTime }
  s.mapGroups fun g => { g with splits := g.splits.map (note g) }

/-- The splits that can issue in this clk, with their groups: ready in it, on a die without an idle clock, in a quadrant whose scheduler
has not issued in this clk (R113). -/
def State.ready (s : State) : List (Group × Split) :=
  s.groups.flatMap fun g =>
    if s.idleClk (dieOf g.core) || s.issued.contains g.quadrant then []
    else (g.splits.filter fun q => q.ready && s.splitReady g q).map fun q => (g, q)

/-- The split of the least rank. -/
def State.choose (s : State) : List (Group × Split) → Option (Group × Split)
  | [] => none
  | e :: l =>
    match s.choose l with
    | none => some e
    | some f => if listLt (s.rank f.1 f.2) (s.rank e.1 e.2) then some f else some e

/-- What can come about next. -/
inductive Move where
  /-- An item of the agenda. -/
  | agenda (a : Agenda)
  /-- A ready split that has waited for 512 clk is promoted (R115). -/
  | promote (core slot split : Nat)
  /-- A split issues. -/
  | issue (core slot split : Nat)
deriving DecidableEq, Repr

/-- Where what comes up in one clk stands among the rest, beyond the order in which it was put under way: a node's arrivals by input port,
before expiries (R259); signal stores by the core that sent them (R397); results for queues by quadrant and group index (R48). -/
def State.tie (s : State) (ev : Event) : List Nat :=
  let result := fun (core slot : Nat) => [2, core, slot / 16, ((s.group core slot).map Group.gid).getD 0]
  match ev with
  | .flagOperationComplete core slot _ => result core slot
  | .globalLoadReturn core slot _ => result core slot
  | .signalStore sender _ _ _ => [3, sender.core]
  | .brimArrival core _ => [3, core]
  | _ =>
    match ev.arrival.bind fun id => keyFind s.dev.msgs id with
    | some m => [0, m.node, m.inPort]
    | none => [1]

/-- An item put into a list in order of its clock, and among those of one clk as State.tie says. -/
def State.putDue (s : State) (a : Agenda) : List Agenda → List Agenda
  | [] => [a]
  | b :: l => if listLt (a.due :: s.tie a.ev) (b.due :: s.tie b.ev) then a :: b :: l else b :: s.putDue a l

/-- The items of the agenda, the earliest first. -/
def State.byDue (s : State) : List Agenda := s.agenda.foldl (fun l a => s.putDue a l) []

/-- What a clk begins with, before its issues: the end of a sleep, which makes its split ready in that clk (R132). -/
def Event.early : Event → Bool
  | .sleepExpiry _ _ _ => true
  | _ => false

/-- The ready splits to be promoted (R115). -/
def State.promotions (s : State) (l : List (Group × Split)) : List Move :=
  (l.filter fun e => !e.2.promoted && decide (e.2.since + 512 ≤ s.clock)).map fun e => .promote e.1.core e.1.slot e.2.idx

/-- A quadrant put into a rising list. -/
def putQuadrant (n : Nat) : List Nat → List Nat
  | [] => [n]
  | m :: l => if n < m then n :: m :: l else if n = m then m :: l else m :: putQuadrant n l

/-- The choice of each quadrant that can issue, in ascending order of core and quadrant (R48). -/
def State.issues (s : State) (l : List (Group × Split)) : List Move :=
  let qs := (l.map fun e => e.1.quadrant).foldl (fun a n => putQuadrant n a) []
  qs.filterMap fun n => (s.choose (l.filter fun e => e.1.quadrant == n)).map fun e => .issue e.1.core e.1.slot e.2.idx


/-! ## The clock (R22, R23) -/

/-- The next clk in which something can come about: the next one when something has come about in this one, or an idle clock keeps a split
from issuing; else the first that an item of the agenda or a wait names. -/
def State.nextClock (s : State) : Nat :=
  let held := s.groups.any fun g => s.idleClk (dieOf g.core) && g.splits.any fun q => s.splitReady g q
  if s.stir || held then s.clock + 1
  else
    let times := s.agenda.map Agenda.due ++ s.groups.flatMap fun g => g.splits.filterMap fun q =>
      match q.wait with | .clock t => some t | _ => none
    match times with
    | [] => s.clock + 1
    | t :: l => max (s.clock + 1) (l.foldl min t)

/-- The clock at `t`: that clk begins, no scheduler has issued in it yet, and the idle clocks passed are gone. -/
def State.setClock (s : State) (t : Nat) : State :=
  if t ≤ s.clock then s
  else
    let left := s.dev.idle.filter fun e => decide (t ≤ e.2)
    { s with clock := t, issued := [], phase := .wake, stir := false, dev := { s.dev with idle := left } }

/-- Nothing comes about in this clk: the clock goes on. -/
def State.tick (s : State) : State := s.setClock s.nextClock

/-- An item of the agenda is taken up. One that is not due yet comes up when its clk arrives, with nothing between (log 2): no split issues in
that clk before it (R155). -/
def State.takeUp (s : State) (a : Agenda) : State :=
  let s := { s with agenda := s.agenda.filter fun b => b.id != a.id }
  if a.due ≤ s.clock then s else { s.setClock a.due with phase := .arrive }

/-! ## The instruction of the chosen split (R30 to R36, R43, R52, R64, R376) -/

/-- Whether a 32-bit instruction names lit (R43): a scalar specifier 127 or a vector specifier 0xEC among its sources, by the formats of
Table 2.6. -/
def namesLit (w : Word) : Bool :=
  let sc := fun (lo : Nat) => w.extractLsb' lo 7 == 127#7
  let vc := fun (lo : Nat) => w.extractLsb' lo 8 == 0xEC#8
  let m := (w.extractLsb' 1 6).toNat
  if m = 0x02 then sc 7
  else if m = 0x03 then sc 12 || sc 19
  else if m = 0x04 ∨ m = 0x05 then sc 15 || sc 22
  else if m ≤ 0x0A then decide (0x06 ≤ m) && sc 14
  else if m = 0x0B then sc 15 || (decide (2 ≤ (w.extractLsb' 29 3).toNat) && sc 22)
  else if m = 0x28 then sc 25 || vc 17
  else if m = 0x16 ∨ (0x29 ≤ m ∧ m ≤ 0x2C) ∨ m = 0x2E ∨ m = 0x2F then vc 16
  else if m ≤ 0x31 then vc 16 || vc 24
  else if m = 0x32 ∨ m = 0x33 ∨ m = 0x37 ∨ m = 0x38 then sc 25 || vc 17 || vc 9
  else if m = 0x36 ∨ m = 0x3A ∨ m = 0x3B then sc 11 || sc 18 || sc 25
  else if m = 0x3D then sc 23 || vc 11
  else if m = 0x3E then vc 20
  else false

/-- Whether a 32-bit instruction is a clause header (R32). -/
def isHeader (w : Word) : Bool := w.extractLsb' 0 7 == 1#7

/-- Whether a 32-bit instruction is SPLIT, which an inline dword follows (R125). -/
def isSplit (w : Word) : Bool := w.extractLsb' 0 12 == 0x207#12

/-- Whether a target callable may contain a 32-bit instruction (R376). -/
def inCallable (w : Word) : Bool :=
  let m := (w.extractLsb' 1 6).toNat
  isHeader w || m == 0x01 || (m == 0x02 && decide ((w.extractLsb' 14 3).toNat ≤ 5)) || (decide (0x04 ≤ m) && decide (m ≤ 0x0A)) ||
    (decide (0x0C ≤ m) && decide (m ≤ 0x2F)) || (m == 0x37 && decide ((w.extractLsb' 7 2).toNat ≤ 2)) || w == 7#32 ||
    w.extractLsb' 0 12 == 0x87D#12

/-- The number of bytes that follow an instruction: a live-mask word (R33), a literal word (R31), an inline dword (R125). -/
def litBytes (w : Word) : Nat := if isHeader w then (if w.getLsbD 27 then 4 else 0) else if namesLit w then 4 else 0
def dwordBytes (w : Word) : Nat := if isSplit w then 8 else 0

/-- What a chosen split does: it runs an instruction, or the step is done without one. -/
inductive Fetch where
  | run (i : Instr) (s : State)
  | done (s : State)

/-- Code fetched, or what its failure leaves: a walk asked for, a fault taken (R401, R406, R424). -/
def fetched (s : State) (halves : Nat) (k : Nat → Fetch) : Fetch :=
  match s.fetch s.cur.pc halves with
  | .bytes v => k v
  | .miss va => .done (s.askWalk va accX)
  | .fault va f => .done (s.pageTrap f accX va none)

/-- The instructions that the evaluator has executed in the batch of a job (R376). -/
def State.batchCount (s : State) (job : Nat) : Nat := ((keyFind (s.core s.g.core).jobs job).map ReuseJob.count).getD 0

/-- What step 1 of R64, the place in the clause (R35, R36) and the limits of a target callable (R376) say before the instruction is
looked at; `w` is its word, the halfword of a short one. -/
def State.beforeDecode (s : State) (w : Word) (short : Bool) : Option State :=
  if !short && isHeader w then none
  else if 32 ≤ s.p.count then some (s.trap { cause := cCLAUSELEN })
  else if !s.p.inClause then some (s.trap s.illegal)
  else
    match s.g.evaluates with
    | none => none
    | some j =>
      if 256 ≤ s.batchCount j then some (s.endEvaluator j 1)
      else if !short && !inCallable w then some (s.trap s.illegal) else none

/-- The instruction at the issuing split's program counter, with the words that follow it; what is no instruction is ILLEGAL_ENCODING
(R62, R65). -/
noncomputable def State.fetchInstr (s : State) : Fetch :=
  let s := { s with cur := { pc := s.p.pc, len := 2 } }
  fetched s 1 fun h =>
    if h % 2 = 0 then
      let s := { s with cur := { s.cur with word := BitVec.ofNat 32 h } }
      match s.beforeDecode s.cur.word true with
      | some t => .done t
      | none =>
        match decodeUnits (.half (BitVec.ofNat 16 h)) with
        | .ok i => .run i s
        | .error _ => .run (.illegalEncoding s.cur.word) s
    else
      fetched s 2 fun v =>
        let w := BitVec.ofNat 32 v
        let s := { s with cur := { s.cur with word := w, len := 4 } }
        match s.beforeDecode w false with
        | some t => .done t
        | none =>
          match decodeUnits (.word w) with
          | .error _ => .run (.illegalEncoding w) s
          | .ok i =>
            let n := litBytes w
            let m := dwordBytes w
            if n + m = 0 then .run i s
            else
              fetched s ((4 + n + m) / 2) fun v =>
                let lit := if n = 0 then 0 else v / 2 ^ 32
                .run i { s with cur := { s.cur with
                  len := 4 + n + m, lit := BitVec.ofNat 32 lit, dword := BitVec.ofNat 64 (v / 2 ^ (8 * (4 + n))) } }

/-- A region begins with the control snapshot before its first instruction (R222). -/
def State.noteSnapshot (s : State) : State :=
  if s.g.region.snap.isSome || s.p.stage != 0 || s.g.evaluates.isSome then s
  else { s with g := { s.g with region := { s.g.region with snap := some s.snapshot } } }

/-! ## What follows an issue (R35, R52, R113, R376, R429) -/

/-- Whether an instruction has issued: the split stands elsewhere, or is gone, or waits at the gang latch, or its commit has begun. What an
instruction goes on to do after its commit, or on a reply, is no issue of its own (R219). -/
def movedOn (old s : State) : Bool :=
  !s.g.trapped && old.p.stage == 0 && !old.p.begun &&
    (!s.g.live || !s.p.live || s.p.idx != old.p.idx || s.p.pc != old.p.pc || s.p.count != old.p.count || s.p.stage != 0 || s.p.wait == .latch)

/-- A split whose instruction has issued and goes on later: behind that instruction stands `pc` (R114, R115). -/
def Split.noteIssue (q : Split) (t : Nat) (pc : Word) : Split :=
  if q.stage = 0 then q else { q.issues t with begun := true, behind := pc }

/-- After an instruction: its quadrant has issued in this clk, its team's watchdog count starts again, and the evaluator counts it;
headers and prefixes take no issue clk (R37, R52). `old` is the state before it. -/
def State.afterIssue (old s : State) : State :=
  if isHeader old.cur.word || !movedOn old s then s
  else
    let s := match old.g.evaluates with
      | some j => s.modCore old.g.core fun k => { k with jobs := keyModify k.jobs j fun j => { j with count := j.count + 1 } }
      | none => s
    if s.g.live && s.p.stage == 0 && s.p.mods.start.isSome then s
    else
      let s : State := { s with issued := old.g.quadrant :: s.issued, p := s.p.noteIssue s.clock (old.cur.pc + BitVec.ofNat 32 old.cur.len) }
      if old.g.isThread then s.countFrom old.g.team s.clock else s

/-- The issue of the focused split: its instruction is fetched and run. -/
noncomputable def stepIssue (s : State) : Out :=
  match s.fetchInstr with
  | .done t => .next t
  | .run i t =>
    match exec i t.noteSnapshot with
    | .next u => .next (t.afterIssue u)
    | r => r

/-! ## What comes about (R37, R52, R113 to R116, R192) -/

/-- Whether what a split does next is no issue, and no trap: it passes a header (R37) or a prefix (R52), it goes on with an instruction that
has issued (R219), or it begins a wait (R116). -/
noncomputable def State.passesOn (s : State) (core slot split : Nat) : Bool :=
  let u := s.focus core slot split
  match stepIssue u with
  | .next t => !t.g.trapped && t.issued == s.issued && t.p != u.p
  | _ => false

/-- The splits that pass on without an issue. -/
noncomputable def State.passing (s : State) : List Move :=
  (s.groups.flatMap fun g => (g.splits.filter fun q => s.splitReady g q && s.passesOn g.core g.slot q.idx).map fun q =>
    .issue g.core g.slot q.idx)

/-- The items of the agenda that are due. -/
def State.dueNow (s : State) : List Agenda := s.byDue.filter fun a => decide (a.due ≤ s.clock)

/-- What can come about in this part of this clk, in the model's own order (log 2): at first the ends of sleeps, then what needs no issue, then
promotions and issues, then what arrives. -/
noncomputable def State.moves (s : State) : List Move :=
  match s.phase with
  | .wake => (s.dueNow.filter fun a => a.ev.early).map .agenda
  | .look => s.passing
  | .issue => s.promotions s.ready ++ s.issues s.ready
  | .arrive => s.dueNow.map .agenda

/-- What comes about: the first of the moves; or the one that `sched` names among them and the rest of the agenda (log 2). -/
noncomputable def State.pick (s : State) : Option Move :=
  match s.sched with
  | [] => s.moves.head?
  | n :: _ => ((s.moves ++ (s.byDue.filter fun a => decide (s.clock < a.due)).map .agenda)[n]?).or s.moves.head?

/-- Nothing more comes about in this part of the clk: the next part begins, or the next clk. -/
def State.goOn (s : State) : State :=
  match s.phase with
  | .wake => { s.refresh with phase := .look }
  | .look => { s.noteReady with phase := .issue }
  | .issue => { s with phase := .arrive }
  | .arrive => s.acceptPushes.tick

/-! ## Placing an instruction for the next step -/

/-- The bytes that an instruction may take: its word, a literal word, an inline dword. -/
def longest : Nat := 16

/-- The physical address at which State.withFetchWord places code. -/
def placedAt : Nat := 2 * 2 ^ 52

/-- The state with an instruction at the issuing split's program counter, which nothing keeps from issuing: no item of the agenda is
pending, no other group stands by, and the split stands in a clause. -/
def State.withCodeWord (s : State) (nbits w : Nat) : State :=
  let va := (s.codeVa s.p.pc).toNat
  let page := va / 65536 * 65536
  { s with
    mem := putBytes s.mem (placedAt + va % 65536) (leBytes longest (w % 2 ^ nbits))
    agenda := [], sched := [], issued := [], others := [], phase := .issue
    g := { s.g with live := true, trapped := false, stopped := false, splits := []
                    region := { s.g.region with committing := none, acting := false } }
    p := { s.p with
      live := true, wait := .none, inClause := true, count := 0, mods := {}, stage := 0, begun := false, walkFault := none
      ready := true, promoted := false, readyTime := s.clock
      xlat := [{ ctx := s.g.ctx, global := false, va := page, size := 16, pa := placedAt, r := true, w := true, x := true
                 streaming := false, peer := false }] }
    cores := s.cores, dev := { s.dev with stopped := false } }

end Sys2Proof.Machine
end

