-- ==== Sys2Proof/Machine/Step.lean ====
section
/-! DEFINITION. Sys2Proof/Machine/Step.lean: one step of the module: what comes about next, and its meaning. -/

namespace Sys2Proof.Machine

/-- The step of Instr that an event of the agenda stands for. -/
noncomputable def eventInstr : Event → Instr
  | .preemptRequest core mask => .preemptRequest core mask
  | .contextSuspend ctx => .contextSuspend ctx
  | .contextResume ctx => .contextResume ctx
  | .contextMarkFailed ctx => .contextMarkFailed ctx
  | .splitPromotion core slot split => .splitPromotion core slot split
  | .sleepExpiry core slot split => .sleepExpiry core slot split
  | .flagOperationComplete core slot op => .flagOperationComplete core slot op
  | .globalLoadReturn core slot op => .globalLoadReturn core slot op
  | .regionCommit core slot => .regionCommit core slot
  | .reservationLapse line => .reservationLapse line
  | .capacityCommit core slot => .capacityCommit core slot
  | .atomicCommit core slot op => .atomicCommit core slot op
  | .lineFill team map line => .lineFill team map line
  | .peerScratchpadAccess msg => .peerScratchpadAccess msg
  | .copyCommandStart core cmd => .copyCommandStart core cmd
  | .copyRowComplete core cmd => .copyRowComplete core cmd
  | .copyFault core cmd => .copyFault core cmd
  | .copyRestart core cmd => .copyRestart core cmd
  | .copyResume core cmd terminate => .copyResume core cmd terminate
  | .mmaStart core mma => .mmaStart core mma
  | .mmaComplete core mma => .mmaComplete core mma
  | .signalStore sender die box value => .signalStore sender die box value
  | .fullingOperandArrival msg => .fullingOperandArrival msg
  | .fullingSpillRefill ctx capacity => .fullingSpillRefill ctx capacity
  | .fullingReload node => .fullingReload node
  | .fsendRetry msg => .fsendRetry msg
  | .fsendOverflow msg => .fsendOverflow msg
  | .orphanExpiry msg => .orphanExpiry msg
  | .spillSweep node => .spillSweep node
  | .fullingDelivery msg => .fullingDelivery msg
  | .heldDeliveryExpiry msg => .heldDeliveryExpiry msg
  | .teamPlacement die => .teamPlacement die
  | .launchMessage block => .launchMessage block
  | .teamEnd team => .teamEnd team
  | .gridEnd grid => .gridEnd grid
  | .pageWalk core ctx va kind => .pageWalk core ctx va kind
  | .migratingRetry core ctx va kind => .migratingRetry core ctx va kind
  | .invalidationAck req => .invalidationAck req
  | .supervisorEntry core => .supervisorEntry core
  | .hostTrapAction core slot action hwm => .hostTrapAction core slot action hwm
  | .preemptSave core tslot => .preemptSave core tslot
  | .preemptLimitExpiry core tslot => .preemptLimitExpiry core tslot
  | .watchdog team => .watchdog team
  | .debugHalt core => .debugHalt core
  | .debugResume core => .debugResume core
  | .peerLinkDown port => .peerLinkDown port
  | .peerLinkUp port => .peerLinkUp port
  | .flitReplay link => .flitReplay link
  | .uncorrectableFlit link line core slot control => .uncorrectableFlit link line core slot control
  | .moduleLaneFailure link => .moduleLaneFailure link
  | .powerThrottle die => .powerThrottle die
  | .thermalThrottle die => .thermalThrottle die
  | .thermtrip => .thermtrip
  | .reset => .reset
  | .attestationRequest nonce => .attestationRequest nonce
  | .slPin line => .slPin line
  | .slUnpin line => .slUnpin line
  | .slBypassClear slice mask => .slBypassClear slice mask
  | .contextBindingWrite index ctx port remote => .contextBindingWrite index ctx port remote
  | .controlNodeMemoryAccess pa msg write => .controlNodeMemoryAccess pa msg write
  | .shootdownRequest ctx va pages => .shootdownRequest ctx va pages
  | .harvestRequest ctx va pages => .harvestRequest ctx va pages
  | .cardingSpillAllocation team table base refuse => .cardingSpillAllocation team table base refuse
  | .dramScrub line => .dramScrub line
  | .sramScrub line => .sramScrub line
  | .scrublate => .scrublate
  | .ucieRetraining link => .ucieRetraining link
  | .gddr7Retraining device => .gddr7Retraining device
  | .agingMonitor => .agingMonitor
  | .flashWearLevelling => .flashWearLevelling
  | .telemetry => .telemetry
  | .rayUnitComplete core op => .rayUnitComplete core op
  | .rayLaneRestart core op lane => .rayLaneRestart core op lane
  | .reuseJobStart core job => .reuseJobStart core job
  | .reuseBatch core job => .reuseBatch core job
  | .reuseMerge core job => .reuseMerge core job
  | .reuseJobComplete core job => .reuseJobComplete core job
  | .brimArrival core op => .brimArrival core op
  | .tagNodeAcknowledgement req => .tagNodeAcknowledgement req
  | .dirtyHarvestComplete req => .dirtyHarvestComplete req
  | .zeroingComplete core slot => .zeroingComplete core slot
  | .taskQueueAcceptance msg => .taskQueueAcceptance msg
  | .thermalThrottleEnd die => .thermalThrottleEnd die
  | .peerPortRequest port pa msg write => .peerPortRequest port pa msg write

/-- What a step leaves, with the watchdog's counts kept where cores halt or go on and contexts are suspended or resumed (R429); `old` is
the state before the step. -/
def outcome (old : State) : Out → Out
  | .next s => .next (old.pauseCounts s)
  | r => r

/-- A step that no instruction encodes, from the state in which it comes about. -/
noncomputable def stepEvent (s : State) (ev : Event) : Out := exec (eventInstr ev) s

/-- The step of a move that has been chosen. -/
noncomputable def stepMove (s : State) : Move → Out
  | .agenda a => stepEvent (s.takeUp a) a.ev
  | .promote core slot split => stepEvent s (.splitPromotion core slot split)
  | .issue core slot split => stepIssue (s.focus core slot split)

/-- A stopped module: nothing but RESET comes about (R443, R447). -/
noncomputable def stepStopped (s : State) : Out :=
  match s.byDue.find? fun a => a.ev == .reset with
  | some a => stepEvent (s.takeUp a) a.ev
  | none => .fault .moduleStopped

/-- One step of the module: one item of its agenda, one promotion, the issue of one instruction, or the going on to the next part of the clk
or to the next clk. -/
noncomputable def step (s : State) : Host.Outcome State Fault Refusal :=
  if s.dev.stopped then stepStopped s
  else
    match s.pick with
    | some m => outcome s (stepMove { s with sched := s.sched.tail, stir := true } m)
    | none => .next s.goOn

/-- The state with an instruction of `nbits` bits placed where the next step fetches it: the step runs it (log 31). -/
def State.withFetchWord (s : State) (nbits w : Nat) : State := s.withCodeWord nbits w

end Sys2Proof.Machine
end

