-- ==== Sys2Proof/Safety.lean ====
section
/-! DEFINITION. Sys2Proof/Safety.lean: the terms in which the claims speak: when an instruction passes its checks, what a register
instruction leaves behind, what a step must not touch, and the invariants. -/

namespace Sys2Proof.Machine

/-- An outcome that is a next state of which `P` holds. -/
def Completes (o : Out) (P : State → Prop) : Prop := ∃ t, o = .next t ∧ P t

/-- Every check of R64 and R116 that stands before an instruction's own effect passes: no trap of its form, of privilege, of role, of a
register outside the allocation, of a pending register; no queue, flag or path counter keeps it waiting; and the issuing group is no
evaluator of a target callable. -/
def passes (u : Uses) (s : State) : Bool :=
  s.g.evaluates.isNone && modxOk u.modx s.p.mods && (!u.priv || s.isSup) && (u.roles.getLsbD s.g.role.toNat || s.isSup) &&
    (u.regs.all fun r => (regBound s r).isNone) && (u.regs.all fun r => (hazard s r).isNone) && (mcsetBound u s).isNone &&
    (notReady u s).isNone

/-! ## What is left unchanged -/

/-- Every byte of global memory and of every scratchpad reads as before. -/
def KeepsMemory (s t : State) : Prop :=
  (∀ a, storeRead t.mem a = storeRead s.mem a) ∧ ∀ c a, storeRead (t.core c).spad a = storeRead (s.core c).spad a

/-- Everything of the module but the issuing group, the issuing split and the register queues is as before: the other groups, contexts,
system registers, trap records, engines, slots, tiles, the agenda and the clock. -/
def KeepsModule (s t : State) : Prop :=
  t.others = s.others ∧ t.ctxs = s.ctxs ∧ t.dev = s.dev ∧ t.clock = s.clock ∧ t.agenda = s.agenda ∧ t.cur = s.cur ∧
    ∀ c, { t.core c with queues := [] } = { s.core c with queues := [] }

/-- The entries of every register queue, oldest first, are as `f` says of core and queue. -/
def QueuesAre (t : State) (f : Nat → Nat → List (Store 32)) : Prop := ∀ c q, (t.core c).queue q = f c q

/-- The queues of the core that sources of these codes name, but for those whose head the instruction has popped before. -/
def State.popped (s : State) (codes : List (BitVec 8)) : List Nat := (s.toPop codes).map fun a => s.queueOf (a.toNat - 0xF0)

/-- A queue after the sources of these codes have been read (R47): a queue named loses its head, once. -/
def State.afterPops (s : State) (codes : List (BitVec 8)) (c q : Nat) : List (Store 32) :=
  if c = s.g.core ∧ q ∈ s.popped codes then ((s.core c).queue q).tail else (s.core c).queue q

/-- The split stands behind the instruction, which counts in its clause (R35), and its prefixes are gone (R52). -/
def Advances (s t : State) : Prop :=
  t.p.pc = s.cur.pc + BitVec.ofNat 32 s.cur.len ∧ t.p.count = s.p.count + 1 ∧ t.p.mods = {} ∧ t.p.live = s.p.live ∧
    t.p.idx = s.p.idx ∧ t.p.member = s.p.member ∧ t.p.lastIssue = if s.p.begun = true then s.p.lastIssue else s.clock

/-- What a group holds beside its scalar and vector registers, its exception flags and its operations. -/
def KeepsGroup (s t : State) : Prop :=
  { t.g with v := [], s := [], ops := [], sys := {} } = { s.g with v := [], s := [], ops := [], sys := {} }

/-! ## Results in registers -/

/-- The scalar registers s0 to s123 after `x` has been written to destination `d`, and exec (Table 2.5, R118): exec keeps the member
lanes; zero discards. -/
def ScalarWritten (d : BitVec 7) (x : Word) (s t : State) : Prop :=
  (∀ r, r < 124 → storeRead t.g.s r = if r = d.toNat then x else storeRead s.g.s r) ∧
    t.p.exec = if d = 124#7 then x &&& s.p.member else s.p.exec

/-- The same of the pair `d`, `d` + 1 of a 64-bit result (R149); zero discards. -/
def PairWritten (d : BitVec 7) (x : Dword) (s t : State) : Prop :=
  (∀ r, r < 124 → storeRead t.g.s r =
    if d.toNat < 124 ∧ r = d.toNat then lo32 x else if d.toNat < 124 ∧ r = d.toNat + 1 then hi32 x else storeRead s.g.s r) ∧
    t.p.exec = s.p.exec

/-- A scalar result: only the destination and the popped queues change. -/
def ScalarResult (pops : List (BitVec 8)) (d : BitVec 7) (x : Word) (s t : State) : Prop :=
  ScalarWritten d x s t ∧ t.g.v = s.g.v ∧ t.p.y0 = s.p.y0 ∧ t.p.y1 = s.p.y1 ∧ t.g.sys = s.g.sys ∧ t.g.ops = s.g.ops ∧
    KeepsGroup s t ∧ Advances s t ∧ QueuesAre t (s.afterPops pops) ∧ t.p.pushing = s.p.pushing ∧ KeepsMemory s t ∧ KeepsModule s t

/-- A 64-bit scalar result. -/
def ScalarResult64 (d : BitVec 7) (x : Dword) (s t : State) : Prop :=
  PairWritten d x s t ∧ t.g.v = s.g.v ∧ t.p.y0 = s.p.y0 ∧ t.p.y1 = s.p.y1 ∧ t.g.sys = s.g.sys ∧ t.g.ops = s.g.ops ∧
    KeepsGroup s t ∧ Advances s t ∧ QueuesAre t (fun c q => (s.core c).queue q) ∧ t.p.pushing = s.p.pushing ∧ KeepsMemory s t ∧
    KeepsModule s t

/-- The vector registers after destination `d` has been written with `f` under a mask (Table 2.4): inactive lanes and every other register
keep their values; a destination that is no register writes none. -/
def LanesWritten (mask : Word) (d : Nat) (f : Lanes) (old new : Store 32) : Prop :=
  ∀ n l, l < 32 → storeRead new (32 * n + l) =
    if n = d ∧ d < 232 ∧ bitOf mask l = true then f l else storeRead old (32 * n + l)

/-- The last-result file after a result (R46): the computed value in the active lanes, 0 in the others. -/
def LastResult (mask : Word) (f : Lanes) (y : Store 32) : Prop :=
  ∀ l, l < 32 → storeRead y l = if bitOf mask l = true then f l else 0#32

/-- The entries that a result sends to the queues that its destination names (R47, R49), which accept them at the end of the clk if they have
room then. -/
def State.sent (s : State) (d : BitVec 8) (f : Lanes) : List Push :=
  if 0xF0 ≤ d.toNat then (s.pushTargets (d.toNat - 0xF0)).map fun q => { queue := q, entry := lanesStore s.p.exec f, since := s.clock } else []

/-- A synchronous, result-forming vector result (R46, R160): the destination in the active lanes, y0 and y1, the queues, and the
exception flags `fl` ORed in (R87); nothing else. -/
def VectorResult (pops : List (BitVec 8)) (d : BitVec 8) (f : Lanes) (fl : FFlags) (s t : State) : Prop :=
  LanesWritten s.p.exec d.toNat f s.g.v t.g.v ∧ LastResult s.p.exec f t.p.y0 ∧ t.p.y1 = s.p.y0 ∧ t.g.s = s.g.s ∧
    t.p.exec = s.p.exec ∧ t.g.sys = { s.g.sys with fpflags := s.g.sys.fpflags ||| fl } ∧ t.g.ops = s.g.ops ∧ KeepsGroup s t ∧
    Advances s t ∧ QueuesAre t (s.afterPops pops) ∧ t.p.pushing = s.p.pushing ++ s.sent d f ∧ KeepsMemory s t ∧ KeepsModule s t

/-- A 64-bit one: the pair of registers, y0 the low half and y1 the high half (R46); no queue is a destination. -/
def VectorResult64 (pops : List (BitVec 8)) (d : BitVec 8) (lo hi : Lanes) (fl : FFlags) (s t : State) : Prop :=
  (∀ n l, l < 32 → storeRead t.g.v (32 * n + l) =
    if n = d.toNat ∧ d.toNat < 232 ∧ bitOf s.p.exec l = true then lo l
    else if n = d.toNat + 1 ∧ d.toNat < 232 ∧ bitOf s.p.exec l = true then hi l else storeRead s.g.v (32 * n + l)) ∧
    LastResult s.p.exec lo t.p.y0 ∧ LastResult s.p.exec hi t.p.y1 ∧ t.g.s = s.g.s ∧ t.p.exec = s.p.exec ∧
    t.g.sys = { s.g.sys with fpflags := s.g.sys.fpflags ||| fl } ∧ t.g.ops = s.g.ops ∧ KeepsGroup s t ∧
    Advances s t ∧ QueuesAre t (s.afterPops pops) ∧ t.p.pushing = s.p.pushing ∧ KeepsMemory s t ∧ KeepsModule s t

/-- A synchronous result in a run of `n` registers from `d` (R352): register `i` of the run takes word `i` of the active lanes; y0 is its
first register, y1 its second; the flags `fl` are ORed in. -/
def RunResult (d : BitVec 8) (n : Nat) (f : Nat → List Word) (fl : FFlags) (s t : State) : Prop :=
  (∀ r l, l < 32 → storeRead t.g.v (32 * r + l) =
    if d.toNat ≤ r ∧ r < d.toNat + n ∧ bitOf s.p.exec l = true then wordAt (f l) (r - d.toNat) else storeRead s.g.v (32 * r + l)) ∧
    LastResult s.p.exec (fun l => wordAt (f l) 0) t.p.y0 ∧ LastResult s.p.exec (fun l => wordAt (f l) 1) t.p.y1 ∧ t.g.s = s.g.s ∧
    t.p.exec = s.p.exec ∧ t.g.sys = { s.g.sys with fpflags := s.g.sys.fpflags ||| fl } ∧ t.g.ops = s.g.ops ∧ KeepsGroup s t ∧
    Advances s t ∧ QueuesAre t (fun c q => (s.core c).queue q) ∧ t.p.pushing = s.p.pushing ∧ KeepsMemory s t ∧ KeepsModule s t

/-- A flag-class instruction at its issue (R39, R41): its operation is in flight with the writes `w`, assigned to the flag of the clause,
its destinations pending, and it completes after `clk`; no register has changed yet. -/
def FlagIssued (clk : Nat) (pops : List (BitVec 8)) (w : Writes) (vdst sdst : List Nat) (s t : State) : Prop :=
  t.g.ops = s.g.ops ++ [{ id := s.nextId, flag := s.flagTarget, path := none, vdst := vdst, sdst := sdst, writes := w }] ∧
    t.agenda = s.agenda ++ [{ id := s.nextId + 1, due := s.clock + clk, ev := .flagOperationComplete s.g.core s.g.slot s.nextId }] ∧
    t.g.v = s.g.v ∧ t.g.s = s.g.s ∧ t.p.exec = s.p.exec ∧ t.p.y0 = s.p.y0 ∧ t.p.y1 = s.p.y1 ∧ t.g.sys = s.g.sys ∧
    KeepsGroup s t ∧ Advances s t ∧ QueuesAre t (s.afterPops pops) ∧ t.p.pushing = s.p.pushing ∧ KeepsMemory s t ∧
    KeepsModule { s with agenda := [] } { t with agenda := [] }

/-! ## Control -/

/-- Nothing but the place of the issuing split changes, and what it waits for; it keeps its lanes, its last results and its number. -/
def OnlyPlace (s t : State) : Prop :=
  { t with p := s.p } = s ∧ t.p.exec = s.p.exec ∧ t.p.member = s.p.member ∧ t.p.y0 = s.p.y0 ∧ t.p.y1 = s.p.y1 ∧
    t.p.idx = s.p.idx ∧ t.p.live = s.p.live ∧ t.p.set = s.p.set

/-- Nothing changes but the place of the split, which stands behind the instruction. -/
def Passes (s t : State) : Prop := OnlyPlace s t ∧ Advances s t

/-- The split stands at code address `pc`, where a clause header is due: its clause has ended (R35). -/
def StandsAt (pc : Word) (s t : State) : Prop :=
  t.p.pc = pc ∧ t.p.inClause = false ∧ t.p.count = s.p.count + 1 ∧ t.p.mods = {} ∧
    t.p.lastIssue = if s.p.begun = true then s.p.lastIssue else s.clock

/-- The target checks of R36 pass: a multiple of 4 with a clause header at it (its low seven bits are those of a header). -/
def TargetOk (s : State) (a : Word) : Prop := a.toNat % 4 = 0 ∧ ∃ h, s.fetch a 1 = .bytes h ∧ h % 128 = 1

/-- The commit that an instruction makes first has nothing to wait for: it has been made, or there is nothing to commit (R219); an atomic waits
for the engine commands of its group too (R229). -/
def settledFor (atomic : Bool) (s : State) : Bool :=
  s.p.stage != 0 || (s.g.region.empty && !(s.g.ops.any fun o => (o.atomic.isSome || (atomic && o.command.isSome)) && !o.done))

/-- The same of the instruction that the issuing split stands at, by what its checks have found. -/
def settled (s : State) : Bool := settledFor s.p.isAtomic s

/-- The state in which an instruction that commits first acts (R219): an open transaction has aborted with FORBID (R242), and the next
region begins. -/
def State.committed (s : State) : State :=
  if s.p.stage = 0 then
    { s.txForbid with g := { s.txForbid.g with region := { s.g.region with snap := none, fails := 0, reserved := false } }
                      p := { s.p with stage := 1 } }
  else if s.g.region.committing = some s.p.idx then
    { s with g := { s.g with region := { s.g.region with committing := none, acting := false } } }
  else s

/-- What a group holds beside its open region and its transaction. -/
def KeepsGroupButRegion (s t : State) : Prop :=
  { t.g with region := {}, tx := none } = { s.g with region := {}, tx := none }

/-! ## Memory accesses and other operations in flight -/

/-- Nothing of the issuing group and split changes but its operations in flight, its region, its transaction and its place, which is
behind the instruction. -/
def OnlyIssues (s t : State) : Prop :=
  t.g.v = s.g.v ∧ t.g.s = s.g.s ∧ t.g.sys = s.g.sys ∧ t.p.exec = s.p.exec ∧ t.p.y0 = s.p.y0 ∧ t.p.y1 = s.p.y1 ∧ Advances s t ∧
    { t.g with v := [], s := [], sys := {}, ops := [], region := {}, tx := none } =
      { s.g with v := [], s := [], sys := {}, ops := [], region := {}, tx := none }

/-- The open transaction after an instruction that may not stand in one: every lane has aborted, with cause FORBID (R242, R244). -/
def Forbidden (x : Option Tx) : Option Tx := x.map fun x => { x with aborted := x.aborted ||| x.lanes, cause := x.cause ||| 0x1000#32 }

/-- Memory, the cores with their scratchpads and queues, the contexts, the agenda and the clock are as before: only groups, teams, clusters
and scope barriers of the module may have changed. -/
def KeepsMachine (s t : State) : Prop :=
  t.mem = s.mem ∧ t.cores = s.cores ∧ t.ctxs = s.ctxs ∧ t.agenda = s.agenda ∧ t.clock = s.clock ∧ t.nextId = s.nextId

/-- Operation `o` stands in flight behind the others, under a number of its own. -/
def InFlight (o : Async) (id : Nat) (s t : State) : Prop := t.g.ops = s.g.ops ++ [{ o with id := id }]

/-- Event `ev` is due after `clk`. -/
def Due (clk : Nat) (ev : Event) (s t : State) : Prop := ∃ a ∈ t.agenda, a.due = s.clock + clk ∧ a.ev = ev

/-- Every scratchpad reads as before. -/
def KeepsPads (s t : State) : Prop := ∀ c a, storeRead (t.core c).spad a = storeRead (s.core c).spad a

/-- Every byte of global memory reads as before. -/
def KeepsGlobal (s t : State) : Prop := ∀ a, storeRead t.mem a = storeRead s.mem a

/-- The other groups, the contexts, the clock and the rest of the module's cores, but for scratchpads and register queues, are as
before. -/
def KeepsOthers (s t : State) : Prop :=
  t.others = s.others ∧ t.ctxs = s.ctxs ∧ t.clock = s.clock ∧
    ∀ c, { t.core c with queues := [], spad := [] } = { s.core c with queues := [], spad := [] }

/-- The checks of a global access pass with these places (R64): aligned lanes, private accesses below the mark, translations that are
there and permit it, no poisoned line. -/
def PlacesOk (acc n : Nat) (served : Bool) (lanes : List (Nat × Nat)) (s : State) (l : List LaneAt) : Prop :=
  (∀ e ∈ lanes, e.2 % n = 0) ∧ (∀ e ∈ lanes, s.privOver n e.2 = none) ∧ s.resolve acc n served lanes = .ok l ∧
    ∀ e ∈ l, ∀ pa t, e.place = .pa pa t → lineOf pa ∉ s.dev.poisoned

/-- The places that a commit point goes on with (R219): those that its checks found at its issue, or those that its checks find now. -/
def PlacesFound (acc n : Nat) (lanes : List (Nat × Nat)) (s : State) (l : List LaneAt) : Prop :=
  (s.p.kept = some (.places l) ∧ s.p.stale = false ∧ ∀ e ∈ l, ∃ pa t, e.place = .pa pa t) ∨
    (((s.p.stale = true ∧ s.p.stage ≠ 0) ∨ ∀ m, s.p.kept ≠ some (.places m)) ∧ PlacesOk acc n false lanes s l)

/-- No line stands in the way of a load: those of maps are filled (R198), none is an engine's (R230), and the read set has room (R224). -/
def loadable (n : Nat) (inTx : Bool) (l : List LaneAt) (s : State) : Bool :=
  (s.unfilled l).isNone && (s.firstOwned (placeLines l)).isNone &&
    !overfull 128 (s.g.region.reads.map Prod.fst) ((s.txCap true inTx n l).newReads n ((s.txCap true inTx n l).regionPlaces inTx l))

/-- The same of a store: maps are filled, no line of them is being written back, and the write set has room (R198, R199, R224). -/
def storable (n : Nat) (inTx : Bool) (l : List LaneAt) (s : State) : Bool :=
  (s.unfilled l).isNone && !s.awaitsWriteBack l &&
    !overfull 64 s.g.region.writeLines (placeLines ((s.txCap false inTx n l).regionPlaces inTx l))

/-- The value that a lane's load of `n` bytes finds outside a transaction: the scratchpad bytes of a served map (R197), or the bytes of
the region over those of memory (R220). -/
def State.found (s : State) (n : Nat) (e : LaneAt) : Nat :=
  match e.place with
  | .map _ off => readBytes (s.core s.g.core).spad (s.myTeam.spbase + off) n
  | .pa pa _ => regionRead s.g.region s.phys pa n

/-- The same of a load inside transaction `x` (R241, R242): a member lane that has not aborted reads its own record over memory, one that has
reads memory, a lane that is no member the region over memory. -/
def State.foundIn (s : State) (x : Tx) (n : Nat) (e : LaneAt) : Nat :=
  match e.place with
  | .map _ off => readBytes (s.core s.g.core).spad (s.myTeam.spbase + off) n
  | .pa pa _ =>
    if x.records e.lane then regionRead (x.lane e.lane).asRegion s.phys pa n
    else if bitOf x.lanes e.lane then leNat ((span pa n).map s.phys) else regionRead s.g.region s.phys pa n

/-- The store buffer after stores of `n` bytes by lanes with values `val`, that act outside a transaction (R220): each byte of a lane that no
other lane writes reads as stored, and every byte that no lane writes reads as before. -/
def Buffered (n : Nat) (l : List LaneAt) (val : Nat → Nat) (s t : State) : Prop :=
  (∀ e ∈ l, ∀ pa b, e.place = .pa pa b →
    (∀ f ∈ l, f ≠ e → ∀ qa c, f.place = .pa qa c → qa + n ≤ pa ∨ pa + n ≤ qa) →
    ∀ rd, regionRead t.g.region rd pa n = val e.lane % 256 ^ n) ∧
  (∀ a, (∀ e ∈ l, ∀ pa b, e.place = .pa pa b → a < pa ∨ pa + n ≤ a) →
    ∀ rd, regionByte t.g.region rd a = regionByte s.g.region rd a)

/-- Stores of `n` bytes by lanes inside transaction `x` (R241, R242): a member lane that has not aborted reads its own bytes in its record; the
record of every other lane, and the lanes that have aborted, are as before; lanes that are no members act outside. -/
def Recorded (n : Nat) (l : List LaneAt) (val : Nat → Nat) (x : Tx) (s t : State) : Prop :=
  Buffered n (l.filter fun e => !bitOf x.lanes e.lane) val s t ∧
    ∃ y, t.g.tx = some y ∧ y.lanes = x.lanes ∧ y.aborted = x.aborted ∧ y.cause = x.cause ∧
      (∀ e ∈ l, ∀ pa b, e.place = .pa pa b → x.records e.lane = true →
        ∀ rd, regionRead (y.lane e.lane).asRegion rd pa n = val e.lane % 256 ^ n) ∧
      ∀ k, (∀ e ∈ l, e.lane = k → x.records k = false) → y.lane k = x.lane k

/-! ## Groups seen from outside -/

/-- There is a group in a slot of a core, and `f` holds of it. -/
def Sees (t : State) (core slot : Nat) (f : Group → Prop) : Prop := ∃ g, t.group core slot = some g ∧ f g

/-- Nothing but the agenda changes: event `ev` is looked at after `clk`. -/
def LooksAgain (clk : Nat) (ev : Event) (s t : State) : Prop :=
  Due clk ev s t ∧ { t with agenda := s.agenda, nextId := s.nextId } = s

/-! ## Results of the units -/

/-- The result of a lane that needs no read of memory: `w` is the run of an instruction of kind `kind` (0 RTRACE, 1 RTANY, 2 RTQRY, 3 LTWALK,
4 LTPDF, 5 TEXLD, 6 TEXG) with descriptor `d` and operands `a`. A ray that tests nothing is a miss (R330, R338); a bad descriptor gives the fault
result of its instruction (R322, R338, R339, R343, R344, R349), and so do a hit id of no hit and an emitter past the number of them. -/
def KnownRun (kind d : Nat) (a w : List Word) : Prop :=
  let x := fun (i : Nat) => (wordAt a i).toNat
  let ray := fun (k : Word) => [wordAt a 7, 0xFFFFFFFF#32, 0#32, 0#32, k, 0#32, 0#32, 0#32]
  let nothing := (∃ i, i < 8 ∧ isNaN32 (x i) = true) ∨ (∃ i ∈ [0, 1, 2, 4, 5, 6], x i % 2 ^ 31 = 0x7F800000) ∨
    (∀ i ∈ [4, 5, 6], x i % 2 ^ 31 = 0) ∨ flt f32 (x 7) (x 3) = true
  (kind ≤ 1 ∧ accelBad d = true ∧ w = ray 10#32) ∨
  (kind ≤ 1 ∧ accelBad d = false ∧ nothing ∧ w = ray 0#32) ∨
  (kind = 2 ∧ (accelBad d = true ∨ wordAt a 0 = 0xFFFFFFFF#32) ∧ w = List.replicate 4 0#32) ∨
  (kind = 3 ∧ lightBad d = true ∧ w = [0xFFFFFFFE#32, 0#32]) ∨
  (kind = 4 ∧ (lightBad d = true ∨ nfield d 159 128 ≤ x 6) ∧ w = [0#32]) ∨
  ((kind = 5 ∨ kind = 6) ∧ texBad d = true ∧ w = List.replicate 4 0x7FC00000#32)

/-! ## Slots and tiles -/

/-- A slot, and a tile, when the instruction of the issuing split has acted on it: its place in the order is given up, and one that is
released with nothing left in its order is free (R304, R311). -/
def OpSlot.left (o : OpSlot) (turn : Option Nat) : Option OpSlot :=
  let o := { o with order := o.order.filter fun x => some x != turn }
  if turn.isSome && o.releasing && o.order.isEmpty && !o.zeroing then none else some o
def AccTile.left (o : AccTile) (turn : Option Nat) : Option AccTile :=
  let o := { o with order := o.order.filter fun x => some x != turn }
  if turn.isSome && o.releasing && o.order.isEmpty && !o.zeroing then none else some o

/-- The issuing group's instruction, which acts on these slots and tiles, has taken its place at the end of their orders and waits (R308,
R312). -/
def Placed (names : List Nat) (s t : State) : Prop :=
  t.g.v = s.g.v ∧ t.g.s = s.g.s ∧ t.g.sys = s.g.sys ∧ t.g.ops = s.g.ops ∧ t.p.exec = s.p.exec ∧ t.p.pc = s.p.pc ∧ t.mem = s.mem ∧
    (∀ c, (t.core c).spad = (s.core c).spad) ∧ t.p.stage = 1 ∧ t.p.turn = some s.nextId ∧ (∃ n ∈ names, t.p.wait = .slotOrder n) ∧
    (∀ n, n < 16 → ∀ o, s.opSlot s.g.core n = some o →
      t.opSlot s.g.core n = some (if n ∈ names then { o with order := o.order ++ [s.nextId] } else o)) ∧
    ∀ n o, s.tile s.g.core n = some o → t.tile s.g.core n = some (if 16 + n ∈ names then { o with order := o.order ++ [s.nextId] } else o)

/-- An instruction that acts on slots and tiles in their orders (R308, R312): it acts at once where nothing stands before it in any of them,
takes its place where something does, waits until it is at its turn in each, and then acts. -/
def ActsInOrder (names : List Nat) (s : State) (out : Out) (acts : Prop) : Prop :=
  (s.p.turn = none → (∀ n ∈ names, s.orderFree s.g.core n = true) → acts) ∧
    (s.p.turn = none → (∃ n ∈ names, s.orderFree s.g.core n = false) → Completes out (Placed names s)) ∧
    ∀ id, s.p.turn = some id →
      ((∃ n ∈ names, s.atTurn s.g.core n id = false) → ∃ n ∈ names, out = .next (s.stall (.slotOrder n))) ∧
      ((∀ n ∈ names, s.atTurn s.g.core n id = true) → acts)

/-- Whether the place that the issuing instruction has taken stands behind the release of the claim it was taken in: the slot or tile has been
claimed anew since, by number `claim` (log 68). -/
def State.claimLost (s : State) (claim : Nat) : Bool := s.p.turn.any fun id => decide (id < claim)

/-- The state as the issuing instruction leaves the orders in which it had its places. -/
def State.turnOver (s : State) (names : List Nat) : State :=
  match s.p.turn with
  | some id => s.leaveOrders s.g.core id names
  | none => s

/-! ## Traps and waits -/

/-- The registers, the operations and the region of the issuing group are as before, and its exec, last results and member set. -/
def KeepsRegisters (s t : State) : Prop :=
  t.g.v = s.g.v ∧ t.g.s = s.g.s ∧ t.g.sys = s.g.sys ∧ t.g.ops = s.g.ops ∧ t.g.region = s.g.region ∧ t.p.exec = s.p.exec ∧
    t.p.member = s.p.member ∧ t.p.y0 = s.p.y0 ∧ t.p.y1 = s.p.y1

/-- The trap of cause `c`, at the instruction or at the first prefix before it (R38, R417, Table 16.6): no register changes, the group
stops, and its record names the cause and the place. -/
def Trapped (c : Nat) (s t : State) : Prop :=
  KeepsRegisters s t ∧ KeepsMemory s t ∧ t.g.trapped = true ∧
    ∃ r, keyFind (t.core s.g.core).traps s.g.slot = some r ∧ r.cause = c ∧ r.pc = s.trapPc.1 ∧ r.split = s.p.idx ∧ r.ctx = s.g.ctx ∧
      r.exec = s.p.exec ∧ r.action = defaultAction c r.sub

/-! ## Invariants -/

/-- The invariant of the module's memory: the canonical form of Store.lean. -/
def MemoryInv (s : State) : Prop := Memory.wf s.mem = true

end Sys2Proof.Machine
end

