-- ==== Sys2Proof/Certificates/Slice0/Obligations.lean ====
section
/-! DEFINITION. Sys2Proof/Certificates/Slice0/Obligations.lean: the statements made about the model. -/

open Sys2Proof Sys2Proof.Machine

/-- The scalar arithmetic, logic, shifts and immediate forms write their Table 6.2 or 6.3 result and nothing else. -/
def Obligations.ScalarArithmeticWritesItsResult : Prop :=
  (∀ (s : State) (a b d : BitVec 7), passes { rd := [.s a 1, .s b 1], wr := [.s d 1] } s = true →
    Completes (exec (.sadd b a d) s) (ScalarResult [] d (s.readS a + s.readS b) s) ∧
    Completes (exec (.ssub b a d) s) (ScalarResult [] d (s.readS a - s.readS b) s) ∧
    Completes (exec (.smul b a d) s) (ScalarResult [] d (s.readS a * s.readS b) s) ∧
    Completes (exec (.smulhI b a d) s) (ScalarResult [] d (BitVec.ofInt 32 ((s.readS a).toInt * (s.readS b).toInt / 2 ^ 32)) s) ∧
    Completes (exec (.smulhN b a d) s) (ScalarResult [] d (BitVec.ofNat 32 ((s.readS a).toNat * (s.readS b).toNat / 2 ^ 32)) s) ∧
    Completes (exec (.sminI b a d) s) (ScalarResult [] d (BitVec.ofInt 32 (min (s.readS a).toInt (s.readS b).toInt)) s) ∧
    Completes (exec (.smaxI b a d) s) (ScalarResult [] d (BitVec.ofInt 32 (max (s.readS a).toInt (s.readS b).toInt)) s) ∧
    Completes (exec (.sminN b a d) s) (ScalarResult [] d (BitVec.ofNat 32 (min (s.readS a).toNat (s.readS b).toNat)) s) ∧
    Completes (exec (.smaxN b a d) s) (ScalarResult [] d (BitVec.ofNat 32 (max (s.readS a).toNat (s.readS b).toNat)) s) ∧
    Completes (exec (.sand b a d) s) (ScalarResult [] d (s.readS a &&& s.readS b) s) ∧
    Completes (exec (.sor b a d) s) (ScalarResult [] d (s.readS a ||| s.readS b) s) ∧
    Completes (exec (.sxor b a d) s) (ScalarResult [] d (s.readS a ^^^ s.readS b) s) ∧
    Completes (exec (.sandn b a d) s) (ScalarResult [] d (s.readS a &&& ~~~s.readS b) s) ∧
    Completes (exec (.sshl b a d) s) (ScalarResult [] d (BitVec.ofNat 32 ((s.readS a).toNat * 2 ^ ((s.readS b).toNat % 32))) s) ∧
    Completes (exec (.sshr b a d) s) (ScalarResult [] d (BitVec.ofNat 32 ((s.readS a).toNat / 2 ^ ((s.readS b).toNat % 32))) s) ∧
    Completes (exec (.ssar b a d) s) (ScalarResult [] d (BitVec.ofInt 32 ((s.readS a).toInt / 2 ^ ((s.readS b).toNat % 32))) s)) ∧
  (∀ (s : State) (a d : BitVec 7) (i : BitVec 11) (n : BitVec 5), passes { rd := [.s a 1], wr := [.s d 1] } s = true →
    Completes (exec (.saddi i a d) s) (ScalarResult [] d (BitVec.ofInt 32 ((s.readS a).toInt + i.toInt)) s) ∧
    Completes (exec (.sandi i a d) s) (ScalarResult [] d (s.readS a &&& i.signExtend 32) s) ∧
    Completes (exec (.sshli n a d) s) (ScalarResult [] d (BitVec.ofNat 32 ((s.readS a).toNat * 2 ^ n.toNat)) s) ∧
    Completes (exec (.sshri n a d) s) (ScalarResult [] d (BitVec.ofNat 32 ((s.readS a).toNat / 2 ^ n.toNat)) s) ∧
    Completes (exec (.slti i a d) s) (ScalarResult [] d (if (s.readS a).toInt < i.toInt then 1#32 else 0#32) s))

/-- The scalar compares write 1 or 0, SSEL chooses by its old destination, and SCLZ, SCTZ, SPOPC and SBREV count or reverse bits. -/
def Obligations.ScalarComparesAndBitCounts : Prop :=
  (∀ (s : State) (a b d : BitVec 7),
    (passes { rd := [.s a 1, .s b 1], wr := [.s d 1] } s = true →
      Completes (exec (.scmpEq b a d) s) (ScalarResult [] d (if (s.readS a).toNat = (s.readS b).toNat then 1#32 else 0#32) s) ∧
      Completes (exec (.scmpNe b a d) s) (ScalarResult [] d (if (s.readS a).toNat ≠ (s.readS b).toNat then 1#32 else 0#32) s) ∧
      Completes (exec (.scmpLtI b a d) s) (ScalarResult [] d (if (s.readS a).toInt < (s.readS b).toInt then 1#32 else 0#32) s) ∧
      Completes (exec (.scmpLeI b a d) s) (ScalarResult [] d (if (s.readS a).toInt ≤ (s.readS b).toInt then 1#32 else 0#32) s) ∧
      Completes (exec (.scmpLtN b a d) s) (ScalarResult [] d (if (s.readS a).toNat < (s.readS b).toNat then 1#32 else 0#32) s) ∧
      Completes (exec (.scmpLeN b a d) s) (ScalarResult [] d (if (s.readS a).toNat ≤ (s.readS b).toNat then 1#32 else 0#32) s)) ∧
    (passes { rd := [.s a 1, .s b 1, .s d 1], wr := [.s d 1] } s = true →
      Completes (exec (.ssel b a d) s) (ScalarResult [] d (if s.readS d = 0#32 then s.readS b else s.readS a) s))) ∧
  (∀ (s : State) (a d : BitVec 7), passes { rd := [.s a 1], wr := [.s d 1] } s = true →
    (∃ n, n ≤ 32 ∧ (∀ i, 32 - n ≤ i → i < 32 → (s.readS a).getLsbD i = false) ∧ (n < 32 → (s.readS a).getLsbD (31 - n) = true) ∧
      Completes (exec (.sclz a d) s) (ScalarResult [] d (BitVec.ofNat 32 n) s)) ∧
    (∃ n, n ≤ 32 ∧ (∀ i, i < n → (s.readS a).getLsbD i = false) ∧ (n < 32 → (s.readS a).getLsbD n = true) ∧
      Completes (exec (.sctz a d) s) (ScalarResult [] d (BitVec.ofNat 32 n) s)) ∧
    Completes (exec (.spopc a d) s)
      (ScalarResult [] d (BitVec.ofNat 32 (((List.range 32).map fun i => ((s.readS a).getLsbD i).toNat).sum)) s) ∧
    (∃ r : Word, (∀ i, i < 32 → r.getLsbD i = (s.readS a).getLsbD (31 - i)) ∧
      Completes (exec (.sbrev a d) s) (ScalarResult [] d r s)))

/-- The 64-bit scalar instructions write both halves of the pair in one step. -/
def Obligations.ScalarPairArithmetic : Prop :=
  ∀ (s : State) (a b d : BitVec 7),
    (passes { rd := [.s a 2, .s b 2], wr := [.s d 2] } s = true →
      Completes (exec (.sadd64 b a d) s) (ScalarResult64 d (s.readS64 a + s.readS64 b) s) ∧
      Completes (exec (.ssub64 b a d) s) (ScalarResult64 d (s.readS64 a - s.readS64 b) s) ∧
      Completes (exec (.smul64 b a d) s) (ScalarResult64 d (s.readS64 a * s.readS64 b) s)) ∧
    (passes { rd := [.s a 2, .s b 1], wr := [.s d 2] } s = true →
      Completes (exec (.sshl64 b a d) s) (ScalarResult64 d (BitVec.ofNat 64 ((s.readS64 a).toNat * 2 ^ ((s.readS b).toNat % 64))) s) ∧
      Completes (exec (.sshr64 b a d) s) (ScalarResult64 d (BitVec.ofNat 64 ((s.readS64 a).toNat / 2 ^ ((s.readS b).toNat % 64))) s))

/-- The integer vector instructions write their result in the active lanes and form y0 and y1. -/
def Obligations.VectorIntegerResults : Prop :=
  (∀ (s : State) (a b d : BitVec 8),
    (passes (use2 mxABsat a b d) s = true →
      Completes (exec (.iadd b a d) s) (VectorResult [a, b] d (fun l => s.satInt ((s.srcA a l) + (s.srcB b l)) ((s.srcA a l).toInt + (s.srcB b l).toInt) (((s.srcA a l).toNat : Int) + (s.srcB b l).toNat)) 0#5 s) ∧
      Completes (exec (.isub b a d) s) (VectorResult [a, b] d (fun l => s.satInt ((s.srcA a l) - (s.srcB b l)) ((s.srcA a l).toInt - (s.srcB b l).toInt) (((s.srcA a l).toNat : Int) - (s.srcB b l).toNat)) 0#5 s) ∧
      Completes (exec (.imul b a d) s) (VectorResult [a, b] d (fun l => s.satInt ((s.srcA a l) * (s.srcB b l)) ((s.srcA a l).toInt * (s.srcB b l).toInt) (((s.srcA a l).toNat : Int) * (s.srcB b l).toNat)) 0#5 s) ∧
      Completes (exec (.shl b a d) s) (VectorResult [a, b] d (fun l => s.satInt (BitVec.ofNat 32 ((s.srcA a l).toNat * 2 ^ ((s.srcB b l).toNat % 32))) ((s.srcA a l).toInt * 2 ^ ((s.srcB b l).toNat % 32)) ((s.srcA a l).toNat * 2 ^ ((s.srcB b l).toNat % 32))) 0#5 s)) ∧
    (passes (use2 mxAB a b d) s = true →
      Completes (exec (.imulhI b a d) s) (VectorResult [a, b] d (fun l => BitVec.ofInt 32 ((s.srcA a l).toInt * (s.srcB b l).toInt / 2 ^ 32)) 0#5 s) ∧
      Completes (exec (.imulhN b a d) s) (VectorResult [a, b] d (fun l => BitVec.ofNat 32 ((s.srcA a l).toNat * (s.srcB b l).toNat / 2 ^ 32)) 0#5 s) ∧
      Completes (exec (.iminI b a d) s) (VectorResult [a, b] d (fun l => BitVec.ofInt 32 (min (s.srcA a l).toInt (s.srcB b l).toInt)) 0#5 s) ∧
      Completes (exec (.imaxI b a d) s) (VectorResult [a, b] d (fun l => BitVec.ofInt 32 (max (s.srcA a l).toInt (s.srcB b l).toInt)) 0#5 s) ∧
      Completes (exec (.iminN b a d) s) (VectorResult [a, b] d (fun l => BitVec.ofNat 32 (min (s.srcA a l).toNat (s.srcB b l).toNat)) 0#5 s) ∧
      Completes (exec (.imaxN b a d) s) (VectorResult [a, b] d (fun l => BitVec.ofNat 32 (max (s.srcA a l).toNat (s.srcB b l).toNat)) 0#5 s) ∧
      Completes (exec (.and b a d) s) (VectorResult [a, b] d (fun l => (s.srcA a l) &&& (s.srcB b l)) 0#5 s) ∧
      Completes (exec (.or b a d) s) (VectorResult [a, b] d (fun l => (s.srcA a l) ||| (s.srcB b l)) 0#5 s) ∧
      Completes (exec (.xor b a d) s) (VectorResult [a, b] d (fun l => (s.srcA a l) ^^^ (s.srcB b l)) 0#5 s) ∧
      Completes (exec (.andn b a d) s) (VectorResult [a, b] d (fun l => (s.srcA a l) &&& ~~~(s.srcB b l)) 0#5 s) ∧
      Completes (exec (.shr b a d) s) (VectorResult [a, b] d (fun l => BitVec.ofNat 32 ((s.srcA a l).toNat / 2 ^ ((s.srcB b l).toNat % 32))) 0#5 s) ∧
      Completes (exec (.sar b a d) s) (VectorResult [a, b] d (fun l => BitVec.ofInt 32 ((s.srcA a l).toInt / 2 ^ ((s.srcB b l).toNat % 32))) 0#5 s) ∧
      Completes (exec (.rol b a d) s) (VectorResult [a, b] d (fun l => (s.srcA a l).rotateLeft ((s.srcB b l).toNat % 32)) 0#5 s))) ∧
  (∀ (s : State) (a b d : BitVec 8) (n : BitVec 5) (i : BitVec 8),
    (passes (use3 mxABsat a b d) s = true →
      Completes (exec (.imad b a d) s) (VectorResult [a, b] d (fun l => s.satInt ((s.srcA a l) * (s.srcB b l) + (s.srcC d l)) ((s.srcA a l).toInt * (s.srcB b l).toInt + (s.srcC d l).toInt) (((s.srcA a l).toNat : Int) * (s.srcB b l).toNat + (s.srcC d l).toNat)) 0#5 s)) ∧
    (passes (use3 mxAB a b d) s = true →
      (∃ r : Lanes, (∀ l i, i < 32 → (r l).getLsbD i =
          if bfOff (s.srcB b l) ≤ i ∧ i < bfOff (s.srcB b l) + bfWidth (s.srcB b l) then (s.srcA a l).getLsbD (i - bfOff (s.srcB b l))
          else (s.srcC d l).getLsbD i) ∧ Completes (exec (.bfi b a d) s) (VectorResult [a, b] d (fun l => r l) 0#5 s)) ∧
      (∃ r : Lanes, (∀ l i, i < 32 → (r l).getLsbD i = (decide (i < 30) && if i % 3 = 2 then (s.srcA a l).getLsbD (i / 3)
          else if i % 3 = 1 then (s.srcB b l).getLsbD (i / 3) else (s.srcC d l).getLsbD (i / 3))) ∧
        Completes (exec (.ilv3 b a d) s) (VectorResult [a, b] d (fun l => r l) 0#5 s))) ∧
    (passes (use2 mxAB a b d) s = true →
      Completes (exec (.bfe b a d) s) (VectorResult [a, b] d (fun l => bfe (s.srcA a l) (s.srcB b l)) 0#5 s) ∧
      Completes (exec (.dilv2 b a d) s) (VectorResult [a, b] d (fun l => dilv2 (s.srcA a l) (s.srcB b l)) 0#5 s) ∧
      Completes (exec (.dilv3 b a d) s) (VectorResult [a, b] d (fun l => dilv3 (s.srcA a l) (s.srcB b l)) 0#5 s) ∧
      (∃ r : Lanes, (∀ l i, i < 32 → (r l).getLsbD i = if i % 2 = 1 then (s.srcA a l).getLsbD (i / 2) else (s.srcB b l).getLsbD (i / 2)) ∧
        Completes (exec (.ilv2 b a d) s) (VectorResult [a, b] d (fun l => r l) 0#5 s))) ∧
    (passes (use1 mxA a d) s = true →
      Completes (exec (.clz a d) s) (VectorResult [a] d (fun l => clz32 (s.srcA a l)) 0#5 s) ∧
      Completes (exec (.popc a d) s) (VectorResult [a] d (fun l => popc32 (s.srcA a l)) 0#5 s) ∧
      Completes (exec (.brev a d) s) (VectorResult [a] d (fun l => brev32 (s.srcA a l)) 0#5 s) ∧
      Completes (exec (.ctz a d) s) (VectorResult [a] d (fun l => ctz32 (s.srcA a l)) 0#5 s) ∧
      Completes (exec (.iabs a d) s) (VectorResult [a] d (fun l => BitVec.ofInt 32 (max (s.srcA a l).toInt (-(s.srcA a l).toInt))) 0#5 s) ∧
      Completes (exec (.ineg a d) s) (VectorResult [a] d (fun l => BitVec.ofInt 32 (-(s.srcA a l).toInt)) 0#5 s) ∧
      Completes (exec (.shri n a d) s) (VectorResult [a] d (fun l => BitVec.ofNat 32 ((s.srcA a l).toNat / 2 ^ n.toNat)) 0#5 s) ∧
      Completes (exec (.sari n a d) s) (VectorResult [a] d (fun l => BitVec.ofInt 32 ((s.srcA a l).toInt / 2 ^ n.toNat)) 0#5 s) ∧
      Completes (exec (.sext i a d) s) (VectorResult [a] d (fun l => sextW i.toNat (s.srcA a l)) 0#5 s)) ∧
    (passes (use1 mxAsat a d) s = true →
      Completes (exec (.iaddi i a d) s) (VectorResult [a] d (fun l => s.satInt ((s.srcA a l) + i.signExtend 32) ((s.srcA a l).toInt + i.toInt) (((s.srcA a l).toNat : Int) + i.toInt)) 0#5 s) ∧
      Completes (exec (.shli n a d) s) (VectorResult [a] d (fun l => s.satInt (BitVec.ofNat 32 ((s.srcA a l).toNat * 2 ^ n.toNat)) ((s.srcA a l).toInt * 2 ^ n.toNat) ((s.srcA a l).toNat * 2 ^ n.toNat)) 0#5 s)))

/-- The 16-bit forms write D op B (or B) in the active lanes; NOP only advances. -/
def Obligations.ShortFormResults : Prop :=
  ∀ (s : State) (b : BitVec 5) (d : BitVec 6),
    (passes (use2 {} (dst6 d) (src5 b) (dst6 d)) s = true →
      Completes (exec (.iadd16 b d) s) (VectorResult [dst6 d, src5 b] (dst6 d) (fun l => (s.srcA (dst6 d) l) + (s.srcB (src5 b) l)) 0#5 s) ∧
      Completes (exec (.isub16 b d) s) (VectorResult [dst6 d, src5 b] (dst6 d) (fun l => (s.srcA (dst6 d) l) - (s.srcB (src5 b) l)) 0#5 s) ∧
      Completes (exec (.and16 b d) s) (VectorResult [dst6 d, src5 b] (dst6 d) (fun l => (s.srcA (dst6 d) l) &&& (s.srcB (src5 b) l)) 0#5 s) ∧
      Completes (exec (.or16 b d) s) (VectorResult [dst6 d, src5 b] (dst6 d) (fun l => (s.srcA (dst6 d) l) ||| (s.srcB (src5 b) l)) 0#5 s) ∧
      Completes (exec (.xor16 b d) s) (VectorResult [dst6 d, src5 b] (dst6 d) (fun l => (s.srcA (dst6 d) l) ^^^ (s.srcB (src5 b) l)) 0#5 s) ∧
      Completes (exec (.shl16 b d) s) (VectorResult [dst6 d, src5 b] (dst6 d) (fun l => BitVec.ofNat 32 ((s.srcA (dst6 d) l).toNat * 2 ^ ((s.srcB (src5 b) l).toNat % 32))) 0#5 s) ∧
      Completes (exec (.shr16 b d) s) (VectorResult [dst6 d, src5 b] (dst6 d) (fun l => BitVec.ofNat 32 ((s.srcA (dst6 d) l).toNat / 2 ^ ((s.srcB (src5 b) l).toNat % 32))) 0#5 s) ∧
      Completes (exec (.sar16 b d) s) (VectorResult [dst6 d, src5 b] (dst6 d) (fun l => BitVec.ofInt 32 ((s.srcA (dst6 d) l).toInt / 2 ^ ((s.srcB (src5 b) l).toNat % 32))) 0#5 s) ∧
      Completes (exec (.iminI16 b d) s) (VectorResult [dst6 d, src5 b] (dst6 d) (fun l => BitVec.ofInt 32 (min (s.srcA (dst6 d) l).toInt (s.srcB (src5 b) l).toInt)) 0#5 s) ∧
      Completes (exec (.imaxI16 b d) s) (VectorResult [dst6 d, src5 b] (dst6 d) (fun l => BitVec.ofInt 32 (max (s.srcA (dst6 d) l).toInt (s.srcB (src5 b) l).toInt)) 0#5 s) ∧
      (enabledLanes s.p.exec s.g.sys.fpen (fun l => (fadd f32 0 (s.vsource (dst6 d) l).toNat (s.vsource (src5 b) l).toNat).2) = 0#32 →
        Completes (exec (.fadd16 b d) s) (VectorResult [] (dst6 d) (fun l => BitVec.ofNat 32 (fadd f32 0 (s.vsource (dst6 d) l).toNat (s.vsource (src5 b) l).toNat).1) (orFlags s.p.exec fun l => (fadd f32 0 (s.vsource (dst6 d) l).toNat (s.vsource (src5 b) l).toNat).2) s)) ∧
      (enabledLanes s.p.exec s.g.sys.fpen (fun l => (fsub f32 0 (s.vsource (dst6 d) l).toNat (s.vsource (src5 b) l).toNat).2) = 0#32 →
        Completes (exec (.fsub16 b d) s) (VectorResult [] (dst6 d) (fun l => BitVec.ofNat 32 (fsub f32 0 (s.vsource (dst6 d) l).toNat (s.vsource (src5 b) l).toNat).1) (orFlags s.p.exec fun l => (fsub f32 0 (s.vsource (dst6 d) l).toNat (s.vsource (src5 b) l).toNat).2) s)) ∧
      (enabledLanes s.p.exec s.g.sys.fpen (fun l => (fmul f32 0 (s.vsource (dst6 d) l).toNat (s.vsource (src5 b) l).toNat).2) = 0#32 →
        Completes (exec (.fmul16 b d) s) (VectorResult [] (dst6 d) (fun l => BitVec.ofNat 32 (fmul f32 0 (s.vsource (dst6 d) l).toNat (s.vsource (src5 b) l).toNat).1) (orFlags s.p.exec fun l => (fmul f32 0 (s.vsource (dst6 d) l).toNat (s.vsource (src5 b) l).toNat).2) s)) ∧
      (enabledLanes s.p.exec s.g.sys.fpen (fun l => (fminmax f32 false (s.vsource (dst6 d) l).toNat (s.vsource (src5 b) l).toNat).2) = 0#32 →
        Completes (exec (.fmin16 b d) s) (VectorResult [] (dst6 d) (fun l => BitVec.ofNat 32 (fminmax f32 false (s.vsource (dst6 d) l).toNat (s.vsource (src5 b) l).toNat).1) (orFlags s.p.exec fun l => (fminmax f32 false (s.vsource (dst6 d) l).toNat (s.vsource (src5 b) l).toNat).2) s)) ∧
      (enabledLanes s.p.exec s.g.sys.fpen (fun l => (fminmax f32 true (s.vsource (dst6 d) l).toNat (s.vsource (src5 b) l).toNat).2) = 0#32 →
        Completes (exec (.fmax16 b d) s) (VectorResult [] (dst6 d) (fun l => BitVec.ofNat 32 (fminmax f32 true (s.vsource (dst6 d) l).toNat (s.vsource (src5 b) l).toNat).1) (orFlags s.p.exec fun l => (fminmax f32 true (s.vsource (dst6 d) l).toNat (s.vsource (src5 b) l).toNat).2) s))) ∧
    (passes (use1 {} (src5 b) (dst6 d)) s = true → Completes (exec (.mov16 b d) s) (VectorResult [src5 b] (dst6 d) (fun l => s.srcA (src5 b) l) 0#5 s)) ∧
    (passes {} s = true → ∀ i, i = .nop ∨ i = .nopW →
      ∃ t, exec i s = .next t ∧ t.g = s.g ∧ t.p.exec = s.p.exec ∧ t.p.y0 = s.p.y0 ∧ t.p.y1 = s.p.y1 ∧ Advances s t ∧
        KeepsMemory s t ∧ KeepsModule s t ∧ t.cores = s.cores)

/-- The synchronous f32 and packed float instructions write their rounded result and OR their flags. -/
def Obligations.FloatArithmeticResults : Prop :=
  ∀ (s : State) (a b d : BitVec 8),
    (passes (use2 mxFr a b d) s = true →
      (enabledLanes s.p.exec s.g.sys.fpen (fun l => (s.sat1 f32 (fadd f32 s.rmode (s.fa a l) (s.fb b l))).2) = 0#32 →
        Completes (exec (.fadd b a d) s) (VectorResult [a, b] d (fun l => BitVec.ofNat 32 (s.sat1 f32 (fadd f32 s.rmode (s.fa a l) (s.fb b l))).1) (orFlags s.p.exec fun l => (s.sat1 f32 (fadd f32 s.rmode (s.fa a l) (s.fb b l))).2) s)) ∧
      (enabledLanes s.p.exec s.g.sys.fpen (fun l => (s.sat1 f32 (fsub f32 s.rmode (s.fa a l) (s.fb b l))).2) = 0#32 →
        Completes (exec (.fsub b a d) s) (VectorResult [a, b] d (fun l => BitVec.ofNat 32 (s.sat1 f32 (fsub f32 s.rmode (s.fa a l) (s.fb b l))).1) (orFlags s.p.exec fun l => (s.sat1 f32 (fsub f32 s.rmode (s.fa a l) (s.fb b l))).2) s)) ∧
      (enabledLanes s.p.exec s.g.sys.fpen (fun l => (s.sat1 f32 (fmul f32 s.rmode (s.fa a l) (s.fb b l))).2) = 0#32 →
        Completes (exec (.fmul b a d) s) (VectorResult [a, b] d (fun l => BitVec.ofNat 32 (s.sat1 f32 (fmul f32 s.rmode (s.fa a l) (s.fb b l))).1) (orFlags s.p.exec fun l => (s.sat1 f32 (fmul f32 s.rmode (s.fa a l) (s.fb b l))).2) s)) ∧
      (enabledLanes s.p.exec s.g.sys.fpen (fun l => (s.satP f16 (packed2 (fadd f16 s.rmode) (s.fsrcA sign16x2 a l) (s.fsrcB sign16x2 b l))).2) = 0#32 →
        Completes (exec (.hadd2 b a d) s) (VectorResult [a, b] d (fun l => BitVec.ofNat 32 (s.satP f16 (packed2 (fadd f16 s.rmode) (s.fsrcA sign16x2 a l) (s.fsrcB sign16x2 b l))).1) (orFlags s.p.exec fun l => (s.satP f16 (packed2 (fadd f16 s.rmode) (s.fsrcA sign16x2 a l) (s.fsrcB sign16x2 b l))).2) s)) ∧
      (enabledLanes s.p.exec s.g.sys.fpen (fun l => (s.satP f16 (packed2 (fmul f16 s.rmode) (s.fsrcA sign16x2 a l) (s.fsrcB sign16x2 b l))).2) = 0#32 →
        Completes (exec (.hmul2 b a d) s) (VectorResult [a, b] d (fun l => BitVec.ofNat 32 (s.satP f16 (packed2 (fmul f16 s.rmode) (s.fsrcA sign16x2 a l) (s.fsrcB sign16x2 b l))).1) (orFlags s.p.exec fun l => (s.satP f16 (packed2 (fmul f16 s.rmode) (s.fsrcA sign16x2 a l) (s.fsrcB sign16x2 b l))).2) s))) ∧
    (passes (use3 mxFc a b d) s = true →
      (enabledLanes s.p.exec s.g.sys.fpen (fun l => (s.sat1 f32 (ffma f32 s.rmode (s.fa a l) (s.fb b l) (s.fc d l))).2) = 0#32 →
        Completes (exec (.ffma b a d) s) (VectorResult [a, b] d (fun l => BitVec.ofNat 32 (s.sat1 f32 (ffma f32 s.rmode (s.fa a l) (s.fb b l) (s.fc d l))).1) (orFlags s.p.exec fun l => (s.sat1 f32 (ffma f32 s.rmode (s.fa a l) (s.fb b l) (s.fc d l))).2) s)) ∧
      (enabledLanes s.p.exec s.g.sys.fpen (fun l => (s.satP f16 (packed3 (ffma f16 s.rmode) (s.fsrcA sign16x2 a l) (s.fsrcB sign16x2 b l) (s.fsrcC sign16x2 d l))).2) = 0#32 →
        Completes (exec (.hfma2 b a d) s) (VectorResult [a, b] d (fun l => BitVec.ofNat 32 (s.satP f16 (packed3 (ffma f16 s.rmode) (s.fsrcA sign16x2 a l) (s.fsrcB sign16x2 b l) (s.fsrcC sign16x2 d l))).1) (orFlags s.p.exec fun l => (s.satP f16 (packed3 (ffma f16 s.rmode) (s.fsrcA sign16x2 a l) (s.fsrcB sign16x2 b l) (s.fsrcC sign16x2 d l))).2) s)) ∧
      (enabledLanes s.p.exec s.g.sys.fpen (fun l => (s.satP bf16 (packed3 (ffma bf16 s.rmode) (s.fsrcA sign16x2 a l) (s.fsrcB sign16x2 b l) (s.fsrcC sign16x2 d l))).2) = 0#32 →
        Completes (exec (.bfma2 b a d) s) (VectorResult [a, b] d (fun l => BitVec.ofNat 32 (s.satP bf16 (packed3 (ffma bf16 s.rmode) (s.fsrcA sign16x2 a l) (s.fsrcB sign16x2 b l) (s.fsrcC sign16x2 d l))).1) (orFlags s.p.exec fun l => (s.satP bf16 (packed3 (ffma bf16 s.rmode) (s.fsrcA sign16x2 a l) (s.fsrcB sign16x2 b l) (s.fsrcC sign16x2 d l))).2) s))) ∧
    (passes (use2 mxF a b d) s = true →
      (enabledLanes s.p.exec s.g.sys.fpen (fun l => (fminmax f32 false (s.fa a l) (s.fb b l)).2) = 0#32 →
        Completes (exec (.fmin b a d) s) (VectorResult [a, b] d (fun l => BitVec.ofNat 32 (fminmax f32 false (s.fa a l) (s.fb b l)).1) (orFlags s.p.exec fun l => (fminmax f32 false (s.fa a l) (s.fb b l)).2) s)) ∧
      (enabledLanes s.p.exec s.g.sys.fpen (fun l => (fminmax f32 true (s.fa a l) (s.fb b l)).2) = 0#32 →
        Completes (exec (.fmax b a d) s) (VectorResult [a, b] d (fun l => BitVec.ofNat 32 (fminmax f32 true (s.fa a l) (s.fb b l)).1) (orFlags s.p.exec fun l => (fminmax f32 true (s.fa a l) (s.fb b l)).2) s)) ∧
      Completes (exec (.fcpys b a d) s) (VectorResult [a, b] d (fun l =>
        if (s.fsrcB sign32 b l).msb then s.fsrcA sign32 a l ||| sign32 else s.fsrcA sign32 a l &&& ~~~sign32) 0#5 s)) ∧
    (passes (use1 mxFu a d) s = true →
      (enabledLanes s.p.exec s.g.sys.fpen (fun l => (s.sat1 f32 (ffract f32 (s.fa a l))).2) = 0#32 →
        Completes (exec (.ffract a d) s) (VectorResult [a] d (fun l => BitVec.ofNat 32 (s.sat1 f32 (ffract f32 (s.fa a l))).1) (orFlags s.p.exec fun l => (s.sat1 f32 (ffract f32 (s.fa a l))).2) s)) ∧
      (enabledLanes s.p.exec s.g.sys.fpen (fun l => (s.sat1 f32 (frint f32 0 (s.fa a l))).2) = 0#32 →
        Completes (exec (.frintRne a d) s) (VectorResult [a] d (fun l => BitVec.ofNat 32 (s.sat1 f32 (frint f32 0 (s.fa a l))).1) (orFlags s.p.exec fun l => (s.sat1 f32 (frint f32 0 (s.fa a l))).2) s)) ∧
      (enabledLanes s.p.exec s.g.sys.fpen (fun l => (s.sat1 f32 (frint f32 1 (s.fa a l))).2) = 0#32 →
        Completes (exec (.frintRtz a d) s) (VectorResult [a] d (fun l => BitVec.ofNat 32 (s.sat1 f32 (frint f32 1 (s.fa a l))).1) (orFlags s.p.exec fun l => (s.sat1 f32 (frint f32 1 (s.fa a l))).2) s)) ∧
      (enabledLanes s.p.exec s.g.sys.fpen (fun l => (s.sat1 f32 (frint f32 2 (s.fa a l))).2) = 0#32 →
        Completes (exec (.frintRdn a d) s) (VectorResult [a] d (fun l => BitVec.ofNat 32 (s.sat1 f32 (frint f32 2 (s.fa a l))).1) (orFlags s.p.exec fun l => (s.sat1 f32 (frint f32 2 (s.fa a l))).2) s)) ∧
      (enabledLanes s.p.exec s.g.sys.fpen (fun l => (s.sat1 f32 (frint f32 3 (s.fa a l))).2) = 0#32 →
        Completes (exec (.frintRup a d) s) (VectorResult [a] d (fun l => BitVec.ofNat 32 (s.sat1 f32 (frint f32 3 (s.fa a l))).1) (orFlags s.p.exec fun l => (s.sat1 f32 (frint f32 3 (s.fa a l))).2) s)))

/-- FDIV, the f32 functions and the f64 instructions issue a flag-class operation with their rounded result. That work comes up after the stated number of clk is the model's choice (log 7: the typical figure where the spec gives one). -/
def Obligations.AsynchronousFloatIssues : Prop :=
  ∀ (s : State) (a b d : BitVec 8),
    (passes (use2 { mxFr with flag := true } a b d) s = true →
      Completes (exec (.fdiv b a d) s) (FlagIssued 28 [a, b] (s.asyncWrites d (fun l => BitVec.ofNat 32 (s.sat1 f32 (fdiv f32 s.rmode (s.fa a l) (s.fb b l))).1) (orFlags s.p.exec fun l => (s.sat1 f32 (fdiv f32 s.rmode (s.fa a l) (s.fb b l))).2)) (vdests d 1) [] s)) ∧
    (passes (use1 { mxFu with round := false, flag := true } a d) s = true →
      Completes (exec (.frcp a d) s) (FlagIssued 18 [a] (s.asyncWrites d (fun l => BitVec.ofNat 32 (s.sat1 f32 (frcp f32 (s.fa a l))).1) (orFlags s.p.exec fun l => (s.sat1 f32 (frcp f32 (s.fa a l))).2)) (vdests d 1) [] s) ∧
      Completes (exec (.frsq a d) s) (FlagIssued 18 [a] (s.asyncWrites d (fun l => BitVec.ofNat 32 (s.sat1 f32 (frsq f32 (s.fa a l))).1) (orFlags s.p.exec fun l => (s.sat1 f32 (frsq f32 (s.fa a l))).2)) (vdests d 1) [] s) ∧
      Completes (exec (.fexp2 a d) s) (FlagIssued 18 [a] (s.asyncWrites d (fun l => BitVec.ofNat 32 (s.sat1 f32 (fexp2 (s.fa a l))).1) (orFlags s.p.exec fun l => (s.sat1 f32 (fexp2 (s.fa a l))).2)) (vdests d 1) [] s) ∧
      Completes (exec (.flog2 a d) s) (FlagIssued 18 [a] (s.asyncWrites d (fun l => BitVec.ofNat 32 (s.sat1 f32 (flog2 (s.fa a l))).1) (orFlags s.p.exec fun l => (s.sat1 f32 (flog2 (s.fa a l))).2)) (vdests d 1) [] s) ∧
      Completes (exec (.fsin a d) s) (FlagIssued 22 [a] (s.asyncWrites d (fun l => BitVec.ofNat 32 (s.sat1 f32 (fsincos false (s.fa a l))).1) (orFlags s.p.exec fun l => (s.sat1 f32 (fsincos false (s.fa a l))).2)) (vdests d 1) [] s) ∧
      Completes (exec (.fcos a d) s) (FlagIssued 22 [a] (s.asyncWrites d (fun l => BitVec.ofNat 32 (s.sat1 f32 (fsincos true (s.fa a l))).1) (orFlags s.p.exec fun l => (s.sat1 f32 (fsincos true (s.fa a l))).2)) (vdests d 1) [] s)) ∧
    (passes (use1 { mxFu with round := true, flag := true } a d) s = true →
      Completes (exec (.fsqrt a d) s) (FlagIssued 24 [a] (s.asyncWrites d (fun l => BitVec.ofNat 32 (s.sat1 f32 (fsqrt f32 s.rmode (s.fa a l))).1) (orFlags s.p.exec fun l => (s.sat1 f32 (fsqrt f32 s.rmode (s.fa a l))).2)) (vdests d 1) [] s)) ∧
    (passes { rd := [.v a 2, .v b 2], wr := [.v d 2], modx := { mxFr with flag := true } } s = true →
      Completes (exec (.dadd b a d) s) (FlagIssued 16 [] (if d.toNat < 232 then { v := [(d.toNat, s.p.exec, lanesStore s.p.exec fun l => lo32 (BitVec.ofNat 64 (s.sat1 f64 (fadd f64 s.rmode (s.da a l) (s.db b l))).1)), (d.toNat + 1, s.p.exec, lanesStore s.p.exec fun l => hi32 (BitVec.ofNat 64 (s.sat1 f64 (fadd f64 s.rmode (s.da a l) (s.db b l))).1))], fl := orFlags s.p.exec fun l => (s.sat1 f64 (fadd f64 s.rmode (s.da a l) (s.db b l))).2 } else { fl := orFlags s.p.exec fun l => (s.sat1 f64 (fadd f64 s.rmode (s.da a l) (s.db b l))).2 }) (vdests d 2) [] s) ∧
      Completes (exec (.dmul b a d) s) (FlagIssued 16 [] (if d.toNat < 232 then { v := [(d.toNat, s.p.exec, lanesStore s.p.exec fun l => lo32 (BitVec.ofNat 64 (s.sat1 f64 (fmul f64 s.rmode (s.da a l) (s.db b l))).1)), (d.toNat + 1, s.p.exec, lanesStore s.p.exec fun l => hi32 (BitVec.ofNat 64 (s.sat1 f64 (fmul f64 s.rmode (s.da a l) (s.db b l))).1))], fl := orFlags s.p.exec fun l => (s.sat1 f64 (fmul f64 s.rmode (s.da a l) (s.db b l))).2 } else { fl := orFlags s.p.exec fun l => (s.sat1 f64 (fmul f64 s.rmode (s.da a l) (s.db b l))).2 }) (vdests d 2) [] s) ∧
      Completes (exec (.ddiv b a d) s) (FlagIssued 60 [] (if d.toNat < 232 then { v := [(d.toNat, s.p.exec, lanesStore s.p.exec fun l => lo32 (BitVec.ofNat 64 (s.sat1 f64 (fdiv f64 s.rmode (s.da a l) (s.db b l))).1)), (d.toNat + 1, s.p.exec, lanesStore s.p.exec fun l => hi32 (BitVec.ofNat 64 (s.sat1 f64 (fdiv f64 s.rmode (s.da a l) (s.db b l))).1))], fl := orFlags s.p.exec fun l => (s.sat1 f64 (fdiv f64 s.rmode (s.da a l) (s.db b l))).2 } else { fl := orFlags s.p.exec fun l => (s.sat1 f64 (fdiv f64 s.rmode (s.da a l) (s.db b l))).2 }) (vdests d 2) [] s)) ∧
    (passes { rd := [.v a 2, .v b 2, .v d 2], wr := [.v d 2], modx := { mxFc with flag := true } } s = true →
      Completes (exec (.dfma b a d) s) (FlagIssued 16 [] (if d.toNat < 232 then { v := [(d.toNat, s.p.exec, lanesStore s.p.exec fun l => lo32 (BitVec.ofNat 64 (s.sat1 f64 (ffma f64 s.rmode (s.da a l) (s.db b l) (s.dc d l))).1)), (d.toNat + 1, s.p.exec, lanesStore s.p.exec fun l => hi32 (BitVec.ofNat 64 (s.sat1 f64 (ffma f64 s.rmode (s.da a l) (s.db b l) (s.dc d l))).1))], fl := orFlags s.p.exec fun l => (s.sat1 f64 (ffma f64 s.rmode (s.da a l) (s.db b l) (s.dc d l))).2 } else { fl := orFlags s.p.exec fun l => (s.sat1 f64 (ffma f64 s.rmode (s.da a l) (s.db b l) (s.dc d l))).2 }) (vdests d 2) [] s))

/-- The vector compares, VOTE and the culling tests write a lane mask, 0 in inactive lanes. -/
def Obligations.LaneMaskResults : Prop :=
  ∀ (s : State) (a b : BitVec 8) (d : BitVec 7),
    (passes { rd := [.v a 1, .v b 1], wr := [.s d 1], modx := mxAB } s = true →
      Completes (exec (.icmpEq b a d) s) (ScalarResult [a, b] d (maskOf fun l => bitOf s.p.exec l && decide ((s.srcA a l).toNat = (s.srcB b l).toNat)) s) ∧
      Completes (exec (.icmpNe b a d) s) (ScalarResult [a, b] d (maskOf fun l => bitOf s.p.exec l && decide ((s.srcA a l).toNat ≠ (s.srcB b l).toNat)) s) ∧
      Completes (exec (.icmpLtI b a d) s) (ScalarResult [a, b] d (maskOf fun l => bitOf s.p.exec l && decide ((s.srcA a l).toInt < (s.srcB b l).toInt)) s) ∧
      Completes (exec (.icmpLeI b a d) s) (ScalarResult [a, b] d (maskOf fun l => bitOf s.p.exec l && decide ((s.srcA a l).toInt ≤ (s.srcB b l).toInt)) s) ∧
      Completes (exec (.icmpLtN b a d) s) (ScalarResult [a, b] d (maskOf fun l => bitOf s.p.exec l && decide ((s.srcA a l).toNat < (s.srcB b l).toNat)) s) ∧
      Completes (exec (.icmpLeN b a d) s) (ScalarResult [a, b] d (maskOf fun l => bitOf s.p.exec l && decide ((s.srcA a l).toNat ≤ (s.srcB b l).toNat)) s)) ∧
    (passes { rd := [.v a 1, .v b 1], wr := [.s d 1], modx := mxF } s = true →
      (enabledLanes s.p.exec s.g.sys.fpen (fun l => cmpFlags false (s.fa a l) (s.fb b l)) = 0#32 →
        Completes (exec (.fcmpEq b a d) s) (ScalarResult [a, b] d (maskOf fun l => bitOf s.p.exec l && feq f32 (s.fa a l) (s.fb b l)) (s.raise (orFlags s.p.exec fun l => cmpFlags false (s.fa a l) (s.fb b l))))) ∧
      (enabledLanes s.p.exec s.g.sys.fpen (fun l => cmpFlags false (s.fa a l) (s.fb b l)) = 0#32 →
        Completes (exec (.fcmpNe b a d) s) (ScalarResult [a, b] d (maskOf fun l => bitOf s.p.exec l && !feq f32 (s.fa a l) (s.fb b l)) (s.raise (orFlags s.p.exec fun l => cmpFlags false (s.fa a l) (s.fb b l))))) ∧
      (enabledLanes s.p.exec s.g.sys.fpen (fun l => cmpFlags true (s.fa a l) (s.fb b l)) = 0#32 →
        Completes (exec (.fcmpLt b a d) s) (ScalarResult [a, b] d (maskOf fun l => bitOf s.p.exec l && flt f32 (s.fa a l) (s.fb b l)) (s.raise (orFlags s.p.exec fun l => cmpFlags true (s.fa a l) (s.fb b l))))) ∧
      (enabledLanes s.p.exec s.g.sys.fpen (fun l => cmpFlags true (s.fa a l) (s.fb b l)) = 0#32 →
        Completes (exec (.fcmpLe b a d) s) (ScalarResult [a, b] d (maskOf fun l => bitOf s.p.exec l && fle f32 (s.fa a l) (s.fb b l)) (s.raise (orFlags s.p.exec fun l => cmpFlags true (s.fa a l) (s.fb b l))))) ∧
      (enabledLanes s.p.exec s.g.sys.fpen (fun l => cmpFlags false (s.fa a l) (s.fb b l)) = 0#32 →
        Completes (exec (.fcmpUn b a d) s) (ScalarResult [a, b] d (maskOf fun l => bitOf s.p.exec l && funo f32 (s.fa a l) (s.fb b l)) (s.raise (orFlags s.p.exec fun l => cmpFlags false (s.fa a l) (s.fb b l)))))) ∧
    (passes { rd := [.v a 1], wr := [.s d 1], modx := mxA } s = true →
      Completes (exec (.vote a d) s) (ScalarResult [a] d (maskOf fun l => bitOf s.p.exec l && decide (s.srcA a l ≠ 0#32)) s)) ∧
    (passes { rd := [.v a 6, .v b 1], wr := [.s d 1] } s = true →
      Completes (exec (.cullbf b a d) s) (ScalarResult [b] d (maskOf fun l => bitOf s.p.exec l && (s.coordNaN a l || culledBack (s.area a l).1 (s.vsource b l))) s)) ∧
    (passes { rd := [.v a 6, .v b 4], wr := [.s d 1] } s = true →
      Completes (exec (.cullfr b a d) s) (ScalarResult [] d (maskOf fun l => bitOf s.p.exec l && (s.coordNaN a l ||
        ((List.range 4).any fun k => (unpack f32 (s.g.vreg (b.toNat + k) l).toNat).isNaN) ||
        ([0, 2, 4].all fun k => flt f32 (s.coord a k l) (s.g.vreg b.toNat l).toNat) ||
        ([0, 2, 4].all fun k => flt f32 (s.g.vreg (b.toNat + 2) l).toNat (s.coord a k l)) ||
        ([1, 3, 5].all fun k => flt f32 (s.coord a k l) (s.g.vreg (b.toNat + 1) l).toNat) ||
        ([1, 3, 5].all fun k => flt f32 (s.g.vreg (b.toNat + 3) l).toNat (s.coord a k l)))) s)) ∧
    (passes { rd := [.v a 6], wr := [.s d 1] } s = true →
      Completes (exec (.cullsz a d) s) (ScalarResult [] d (maskOf fun l => bitOf s.p.exec l && (((List.range 6).any fun k => !isFinite32 (s.coord a k l)) ||
        noCentre (s.coord a 0 l) (s.coord a 2 l) (s.coord a 4 l) || noCentre (s.coord a 1 l) (s.coord a 3 l) (s.coord a 5 l))) s))

/-- The 32-bit and 64-bit conversions write the converted value, a pair in one step, and OR their flags. -/
def Obligations.ConversionResults : Prop :=
  (∀ (s : State) (a d : BitVec 8) (t : BitVec 1) (r : BitVec 3),
    (passes (use1 { selA := true, negA := false } a d) s = true →
      (enabledLanes s.p.exec s.g.sys.fpen (fun l => (intToF f32 r.toNat (s.fsrcA 0#32 a l).toInt).2) = 0#32 →
        Completes (exec (.cvtF32I32 r a d) s) (VectorResult [a] d (fun l => BitVec.ofNat 32 (intToF f32 r.toNat (s.fsrcA 0#32 a l).toInt).1) (orFlags s.p.exec fun l => (intToF f32 r.toNat (s.fsrcA 0#32 a l).toInt).2) s)) ∧
      (enabledLanes s.p.exec s.g.sys.fpen (fun l => (intToF f32 r.toNat (s.fsrcA 0#32 a l).toNat).2) = 0#32 →
        Completes (exec (.cvtF32N32 r a d) s) (VectorResult [a] d (fun l => BitVec.ofNat 32 (intToF f32 r.toNat (s.fsrcA 0#32 a l).toNat).1) (orFlags s.p.exec fun l => (intToF f32 r.toNat (s.fsrcA 0#32 a l).toNat).2) s)) ∧
      (enabledLanes s.p.exec s.g.sys.fpen (fun l => (narrow true 16 (t == 1#1) (s.fsrcA 0#32 a l)).2) = 0#32 →
        Completes (exec (.cvtI16I32 t a d) s) (VectorResult [a] d (fun l => BitVec.ofNat 32 (narrow true 16 (t == 1#1) (s.fsrcA 0#32 a l)).1) (orFlags s.p.exec fun l => (narrow true 16 (t == 1#1) (s.fsrcA 0#32 a l)).2) s)) ∧
      (enabledLanes s.p.exec s.g.sys.fpen (fun l => (narrow false 16 (t == 1#1) (s.fsrcA 0#32 a l)).2) = 0#32 →
        Completes (exec (.cvtN16N32 t a d) s) (VectorResult [a] d (fun l => BitVec.ofNat 32 (narrow false 16 (t == 1#1) (s.fsrcA 0#32 a l)).1) (orFlags s.p.exec fun l => (narrow false 16 (t == 1#1) (s.fsrcA 0#32 a l)).2) s)) ∧
      (enabledLanes s.p.exec s.g.sys.fpen (fun l => (narrow true 8 (t == 1#1) (s.fsrcA 0#32 a l)).2) = 0#32 →
        Completes (exec (.cvtI8I32 t a d) s) (VectorResult [a] d (fun l => BitVec.ofNat 32 (narrow true 8 (t == 1#1) (s.fsrcA 0#32 a l)).1) (orFlags s.p.exec fun l => (narrow true 8 (t == 1#1) (s.fsrcA 0#32 a l)).2) s)) ∧
      (enabledLanes s.p.exec s.g.sys.fpen (fun l => (narrow false 8 (t == 1#1) (s.fsrcA 0#32 a l)).2) = 0#32 →
        Completes (exec (.cvtN8N32 t a d) s) (VectorResult [a] d (fun l => BitVec.ofNat 32 (narrow false 8 (t == 1#1) (s.fsrcA 0#32 a l)).1) (orFlags s.p.exec fun l => (narrow false 8 (t == 1#1) (s.fsrcA 0#32 a l)).2) s))) ∧
    (passes (use1 { selA := true, negA := true } a d) s = true →
      (enabledLanes s.p.exec s.g.sys.fpen (fun l => (fToInt f32 true 32 r.toNat (t == 1#1) (s.fsrcA sign32 a l).toNat).2) = 0#32 →
        Completes (exec (.cvtI32F32 t r a d) s) (VectorResult [a] d (fun l => BitVec.ofNat 32 (fToInt f32 true 32 r.toNat (t == 1#1) (s.fsrcA sign32 a l).toNat).1) (orFlags s.p.exec fun l => (fToInt f32 true 32 r.toNat (t == 1#1) (s.fsrcA sign32 a l).toNat).2) s)) ∧
      (enabledLanes s.p.exec s.g.sys.fpen (fun l => (fToInt f32 false 32 r.toNat (t == 1#1) (s.fsrcA sign32 a l).toNat).2) = 0#32 →
        Completes (exec (.cvtN32F32 t r a d) s) (VectorResult [a] d (fun l => BitVec.ofNat 32 (fToInt f32 false 32 r.toNat (t == 1#1) (s.fsrcA sign32 a l).toNat).1) (orFlags s.p.exec fun l => (fToInt f32 false 32 r.toNat (t == 1#1) (s.fsrcA sign32 a l).toNat).2) s)) ∧
      (enabledLanes s.p.exec s.g.sys.fpen (fun l => (fcvt f32 f16 r.toNat (t == 1#1) (s.fsrcA sign32 a l).toNat).2) = 0#32 →
        Completes (exec (.cvtF16F32 t r a d) s) (VectorResult [a] d (fun l => BitVec.ofNat 32 (fcvt f32 f16 r.toNat (t == 1#1) (s.fsrcA sign32 a l).toNat).1) (orFlags s.p.exec fun l => (fcvt f32 f16 r.toNat (t == 1#1) (s.fsrcA sign32 a l).toNat).2) s)) ∧
      (enabledLanes s.p.exec s.g.sys.fpen (fun l => (fcvt f16 f32 0 false ((s.fsrcA 0x8000#32 a l).toNat % 65536)).2) = 0#32 →
        Completes (exec (.cvtF32F16 a d) s) (VectorResult [a] d (fun l => BitVec.ofNat 32 (fcvt f16 f32 0 false ((s.fsrcA 0x8000#32 a l).toNat % 65536)).1) (orFlags s.p.exec fun l => (fcvt f16 f32 0 false ((s.fsrcA 0x8000#32 a l).toNat % 65536)).2) s)) ∧
      (enabledLanes s.p.exec s.g.sys.fpen (fun l => (fcvt f32 bf16 r.toNat (t == 1#1) (s.fsrcA sign32 a l).toNat).2) = 0#32 →
        Completes (exec (.cvtBf16F32 t r a d) s) (VectorResult [a] d (fun l => BitVec.ofNat 32 (fcvt f32 bf16 r.toNat (t == 1#1) (s.fsrcA sign32 a l).toNat).1) (orFlags s.p.exec fun l => (fcvt f32 bf16 r.toNat (t == 1#1) (s.fsrcA sign32 a l).toNat).2) s)) ∧
      (enabledLanes s.p.exec s.g.sys.fpen (fun l => (fcvt bf16 f32 0 false ((s.fsrcA 0x8000#32 a l).toNat % 65536)).2) = 0#32 →
        Completes (exec (.cvtF32Bf16 a d) s) (VectorResult [a] d (fun l => BitVec.ofNat 32 (fcvt bf16 f32 0 false ((s.fsrcA 0x8000#32 a l).toNat % 65536)).1) (orFlags s.p.exec fun l => (fcvt bf16 f32 0 false ((s.fsrcA 0x8000#32 a l).toNat % 65536)).2) s)) ∧
      (enabledLanes s.p.exec s.g.sys.fpen (fun l => (((fcvt f32 fp19 r.toNat (t == 1#1) (s.fsrcA sign32 a l).toNat).1 * 2 ^ 13, (fcvt f32 fp19 r.toNat (t == 1#1) (s.fsrcA sign32 a l).toNat).2)).2) = 0#32 →
        Completes (exec (.cvtFp19F32 t r a d) s) (VectorResult [a] d (fun l => BitVec.ofNat 32 (((fcvt f32 fp19 r.toNat (t == 1#1) (s.fsrcA sign32 a l).toNat).1 * 2 ^ 13, (fcvt f32 fp19 r.toNat (t == 1#1) (s.fsrcA sign32 a l).toNat).2)).1) (orFlags s.p.exec fun l => (((fcvt f32 fp19 r.toNat (t == 1#1) (s.fsrcA sign32 a l).toNat).1 * 2 ^ 13, (fcvt f32 fp19 r.toNat (t == 1#1) (s.fsrcA sign32 a l).toNat).2)).2) s)) ∧
      (enabledLanes s.p.exec s.g.sys.fpen (fun l => (fcvt fp19 f32 0 false ((s.fsrcA sign32 a l).toNat / 2 ^ 13)).2) = 0#32 →
        Completes (exec (.cvtF32Fp19 a d) s) (VectorResult [a] d (fun l => BitVec.ofNat 32 (fcvt fp19 f32 0 false ((s.fsrcA sign32 a l).toNat / 2 ^ 13)).1) (orFlags s.p.exec fun l => (fcvt fp19 f32 0 false ((s.fsrcA sign32 a l).toNat / 2 ^ 13)).2) s)))) ∧
  (∀ (s : State) (a d : BitVec 8) (t : BitVec 1) (r : BitVec 3),
    (passes { rd := [.v a 2], wr := [.v d 1], modx := { selA := true, negA := true } } s = true →
      (enabledLanes s.p.exec s.g.sys.fpen (fun l => (fcvt f64 f32 r.toNat (t == 1#1) (s.dsrcA litF64 a l).toNat).2) = 0#32 →
        Completes (exec (.cvtF32F64 t r a d) s) (VectorResult [] d (fun l => BitVec.ofNat 32 (fcvt f64 f32 r.toNat (t == 1#1) (s.dsrcA litF64 a l).toNat).1) (orFlags s.p.exec fun l => (fcvt f64 f32 r.toNat (t == 1#1) (s.dsrcA litF64 a l).toNat).2) s)) ∧
      (enabledLanes s.p.exec s.g.sys.fpen (fun l => (fToInt f64 true 32 r.toNat (t == 1#1) (s.dsrcA litF64 a l).toNat).2) = 0#32 →
        Completes (exec (.cvtI32F64 t r a d) s) (VectorResult [] d (fun l => BitVec.ofNat 32 (fToInt f64 true 32 r.toNat (t == 1#1) (s.dsrcA litF64 a l).toNat).1) (orFlags s.p.exec fun l => (fToInt f64 true 32 r.toNat (t == 1#1) (s.dsrcA litF64 a l).toNat).2) s)) ∧
      (enabledLanes s.p.exec s.g.sys.fpen (fun l => (fToInt f64 false 32 r.toNat (t == 1#1) (s.dsrcA litF64 a l).toNat).2) = 0#32 →
        Completes (exec (.cvtN32F64 t r a d) s) (VectorResult [] d (fun l => BitVec.ofNat 32 (fToInt f64 false 32 r.toNat (t == 1#1) (s.dsrcA litF64 a l).toNat).1) (orFlags s.p.exec fun l => (fToInt f64 false 32 r.toNat (t == 1#1) (s.dsrcA litF64 a l).toNat).2) s))) ∧
    (passes (use32to64 true a d) s = true →
      (enabledLanes s.p.exec s.g.sys.fpen (fun l => (fcvt f32 f64 0 false (s.fsrcA sign32 a l).toNat).2) = 0#32 →
        Completes (exec (.cvtF64F32 a d) s) (VectorResult64 [a] d (fun l => lo32 (BitVec.ofNat 64 (fcvt f32 f64 0 false (s.fsrcA sign32 a l).toNat).1)) (fun l => hi32 (BitVec.ofNat 64 (fcvt f32 f64 0 false (s.fsrcA sign32 a l).toNat).1)) (orFlags s.p.exec fun l => (fcvt f32 f64 0 false (s.fsrcA sign32 a l).toNat).2) s))) ∧
    (passes (use32to64 false a d) s = true →
      (enabledLanes s.p.exec s.g.sys.fpen (fun l => (intToF f64 0 (s.srcA a l).toInt).2) = 0#32 →
        Completes (exec (.cvtF64I32 a d) s) (VectorResult64 [a] d (fun l => lo32 (BitVec.ofNat 64 (intToF f64 0 (s.srcA a l).toInt).1)) (fun l => hi32 (BitVec.ofNat 64 (intToF f64 0 (s.srcA a l).toInt).1)) (orFlags s.p.exec fun l => (intToF f64 0 (s.srcA a l).toInt).2) s)) ∧
      (enabledLanes s.p.exec s.g.sys.fpen (fun l => (intToF f64 0 (s.srcA a l).toNat).2) = 0#32 →
        Completes (exec (.cvtF64N32 a d) s) (VectorResult64 [a] d (fun l => lo32 (BitVec.ofNat 64 (intToF f64 0 (s.srcA a l).toNat).1)) (fun l => hi32 (BitVec.ofNat 64 (intToF f64 0 (s.srcA a l).toNat).1)) (orFlags s.p.exec fun l => (intToF f64 0 (s.srcA a l).toNat).2) s))) ∧
    (passes { use64to64 a d with modx := { selA := true, negA := true } } s = true →
      (enabledLanes s.p.exec s.g.sys.fpen (fun l => (fToInt f64 true 64 r.toNat (t == 1#1) (s.dsrcA litF64 a l).toNat).2) = 0#32 →
        Completes (exec (.cvtI64F64 t r a d) s) (VectorResult64 [] d (fun l => lo32 (BitVec.ofNat 64 (fToInt f64 true 64 r.toNat (t == 1#1) (s.dsrcA litF64 a l).toNat).1)) (fun l => hi32 (BitVec.ofNat 64 (fToInt f64 true 64 r.toNat (t == 1#1) (s.dsrcA litF64 a l).toNat).1)) (orFlags s.p.exec fun l => (fToInt f64 true 64 r.toNat (t == 1#1) (s.dsrcA litF64 a l).toNat).2) s)) ∧
      (enabledLanes s.p.exec s.g.sys.fpen (fun l => (fToInt f64 false 64 r.toNat (t == 1#1) (s.dsrcA litF64 a l).toNat).2) = 0#32 →
        Completes (exec (.cvtN64F64 t r a d) s) (VectorResult64 [] d (fun l => lo32 (BitVec.ofNat 64 (fToInt f64 false 64 r.toNat (t == 1#1) (s.dsrcA litF64 a l).toNat).1)) (fun l => hi32 (BitVec.ofNat 64 (fToInt f64 false 64 r.toNat (t == 1#1) (s.dsrcA litF64 a l).toNat).1)) (orFlags s.p.exec fun l => (fToInt f64 false 64 r.toNat (t == 1#1) (s.dsrcA litF64 a l).toNat).2) s))) ∧
    (passes (use64to64 a d) s = true →
      (enabledLanes s.p.exec s.g.sys.fpen (fun l => (intToF f64 r.toNat (s.dsrcA litI64 a l).toInt).2) = 0#32 →
        Completes (exec (.cvtF64I64 r a d) s) (VectorResult64 [] d (fun l => lo32 (BitVec.ofNat 64 (intToF f64 r.toNat (s.dsrcA litI64 a l).toInt).1)) (fun l => hi32 (BitVec.ofNat 64 (intToF f64 r.toNat (s.dsrcA litI64 a l).toInt).1)) (orFlags s.p.exec fun l => (intToF f64 r.toNat (s.dsrcA litI64 a l).toInt).2) s)) ∧
      (enabledLanes s.p.exec s.g.sys.fpen (fun l => (intToF f64 r.toNat (s.dsrcA litN64 a l).toNat).2) = 0#32 →
        Completes (exec (.cvtF64N64 r a d) s) (VectorResult64 [] d (fun l => lo32 (BitVec.ofNat 64 (intToF f64 r.toNat (s.dsrcA litN64 a l).toNat).1)) (fun l => hi32 (BitVec.ofNat 64 (intToF f64 r.toNat (s.dsrcA litN64 a l).toNat).1)) (orFlags s.p.exec fun l => (intToF f64 r.toNat (s.dsrcA litN64 a l).toNat).2) s))))

/-- Selection, lane reads, LEA, FCLASS and barycentric weights write their result at once. -/
def Obligations.CrossLaneResults : Prop :=
  ∀ (s : State) (a b d : BitVec 8) (x e : BitVec 7),
    (passes { rd := [.v a 1, .s x 1, .v d 1], wr := [.v d 1], modx := mxA } s = true →
      Completes (exec (.sel x a d) s) (VectorResult [a] d (fun l => if (s.readS x).getLsbD l then s.srcA a l else s.srcC d l) 0#5 s)) ∧
    (passes { rd := [.s x 1], wr := [.v d 1] } s = true →
      Completes (exec (.movs x d) s) (VectorResult [] d (fun l => s.readS x) 0#5 s)) ∧
    (passes { rd := [.v a 1, .s x 2], wr := [.v d 2], modx := mxA } s = true →
      Completes (exec (.lea x a d) s) (VectorResult64 [a] d
        (fun l => lo32 (BitVec.ofNat 64 ((s.readS64 x).toNat + (s.srcA a l).toNat)))
        (fun l => hi32 (BitVec.ofNat 64 ((s.readS64 x).toNat + (s.srcA a l).toNat))) 0#5 s)) ∧
    (passes { rd := [.v a 1, .s x 1], wr := [.s e 1] } s = true →
      Completes (exec (.readlane x a e) s) (ScalarResult [a] e (s.vsource a ((s.readS x).toNat % 32)) s)) ∧
    (passes (use1 { selA := true, negA := true } a d) s = true →
      Completes (exec (.fclass a d) s) (VectorResult [a] d (fun l => BitVec.ofNat 32 (fclass (s.fa a l))) 0#5 s)) ∧
    (passes { rd := [.v a 6, .v b 2], wr := [.v d 2] } s = true → d.toNat + 1 < 232 →
      enabledLanes s.p.exec s.g.sys.fpen (fun l => (s.bary a b l).1.2 ||| (s.bary a b l).2.2) = 0#32 →
      Completes (exec (.bary b a d) s) (VectorResult64 [] d (fun l => BitVec.ofNat 32 (s.bary a b l).1.1)
        (fun l => BitVec.ofNat 32 (s.bary a b l).2.1) (orFlags s.p.exec fun l => (s.bary a b l).1.2 ||| (s.bary a b l).2.2) s))

/-- The shuffles, REDX and SCANX issue a flag-class operation with the lanes moved, or the tree of R108. That work comes up after the stated number of clk is the model's choice (log 7: the typical figure where the spec gives one). -/
def Obligations.ShufflesAndReductionsIssue : Prop :=
  ∀ (s : State) (a b d : BitVec 8) (k : BitVec 5) (f : BitVec 1) (o : BitVec 4),
    (passes { rd := [.v a 1], wr := [.v d 1], modx := { flag := true } } s = true →
      Completes (exec (.shflXor k a d) s) (FlagIssued 8 [a] (s.asyncWrites d (fun l => s.vsource a (l ^^^ k.toNat)) (orFlags s.p.exec fun _ => 0#5)) (vdests d 1) [] s)) ∧
    (passes { rd := [.v a 1], wr := [.v d 1], modx := { flag := true } } s = true →
      Completes (exec (.shflUp f k a d) s) (FlagIssued 8 [a] (s.asyncWrites d (fun l => if k.toNat ≤ l then s.vsource a (l - k.toNat) else if f = 1#1 then s.vsource a l else 0#32) (orFlags s.p.exec fun _ => 0#5)) (vdests d 1) [] s)) ∧
    (passes { rd := [.v a 1], wr := [.v d 1], modx := { flag := true } } s = true →
      Completes (exec (.shflDn f k a d) s) (FlagIssued 8 [a] (s.asyncWrites d (fun l => if l + k.toNat < 32 then s.vsource a (l + k.toNat) else if f = 1#1 then s.vsource a l else 0#32) (orFlags s.p.exec fun _ => 0#5)) (vdests d 1) [] s)) ∧
    (passes { rd := [.v a 1, .v b 1], wr := [.v d 1], modx := { flag := true } } s = true →
      Completes (exec (.shflIdx b a d) s) (FlagIssued 8 [a, b] (s.asyncWrites d (fun l => if (s.vsource b l).toNat < 32 then s.vsource a ((s.vsource b l).toNat) else 0#32) (orFlags s.p.exec fun _ => 0#5)) (vdests d 1) [] s)) ∧
    (passes { rd := [.v a 1], wr := [.v d 1], modx := redModx o } s = true →
      Completes (exec (.redx o a d) s) (FlagIssued 14 [a] (s.asyncWrites d (fun l => BitVec.ofNat 32 (s.satF f32 ((treeNode (redOp o.toNat s.rmode) (fun l => if bitOf s.p.exec l then some ((s.fsrcA sign32 a l).toNat, 0#5) else none) 0 5).getD (0, 0#5)).1))
        (orFlags s.p.exec fun l => ((treeNode (redOp o.toNat s.rmode) (fun l => if bitOf s.p.exec l then some ((s.fsrcA sign32 a l).toNat, 0#5) else none) 0 5).map Prod.snd).getD 0#5 ||| ((treeNode (redOp o.toNat s.rmode) (fun l => if bitOf s.p.exec l then some ((s.fsrcA sign32 a l).toNat, 0#5) else none) 0 5).getD (0, 0#5)).2)) (vdests d 1) [] s) ∧
      Completes (exec (.scanx o a d) s) (FlagIssued 18 [a] (s.asyncWrites d (fun l => BitVec.ofNat 32 (s.satF f32 ((scanFrom (redOp o.toNat s.rmode) (fun l => if bitOf s.p.exec l then some ((s.fsrcA sign32 a l).toNat, 0#5) else none) (l + 1) 5 0 none).getD (0, 0#5)).1))
        (orFlags s.p.exec fun l => ((treeNode (redOp o.toNat s.rmode) (fun l => if bitOf s.p.exec l then some ((s.fsrcA sign32 a l).toNat, 0#5) else none) 0 5).map Prod.snd).getD 0#5 ||| ((scanFrom (redOp o.toNat s.rmode) (fun l => if bitOf s.p.exec l then some ((s.fsrcA sign32 a l).toNat, 0#5) else none) (l + 1) 5 0 none).getD (0, 0#5)).2)) (vdests d 1) [] s))

/-- A MODX joins the chain before its instruction, is no issue of its own, and is ILLEGAL when its kind is already there. -/
def Obligations.PrefixesJoinTheirInstruction : Prop :=
  ∀ (s : State) (p0 : BitVec 18) (p1 : BitVec 6) (p2 : BitVec 10) (p3 : BitVec 3) (p5 : BitVec 1),
    let first := some (s.p.mods.start.getD (s.cur.pc, s.p.count, s.cur.word))
    (s.p.mods.laneSel = none →
      Completes (exec (.modxLaneSelect p0) s) fun t => OnlyPlace s t ∧ t.p.pc = s.cur.pc + 4#32 ∧ t.p.count = s.p.count + 1 ∧
        t.p.lastIssue = s.p.lastIssue ∧ t.p.mods = { s.p.mods with laneSel := some p0, start := first }) ∧
    (¬ s.p.mods.laneSel = none → s.g.evaluates = none → Completes (exec (.modxLaneSelect p0) s) (Trapped cILLEGAL s)) ∧
    (s.p.mods.negAbs = none →
      Completes (exec (.modxNegateAbs p1) s) fun t => OnlyPlace s t ∧ t.p.pc = s.cur.pc + 4#32 ∧ t.p.count = s.p.count + 1 ∧
        t.p.lastIssue = s.p.lastIssue ∧ t.p.mods = { s.p.mods with negAbs := some p1, start := first }) ∧
    (¬ s.p.mods.negAbs = none → s.g.evaluates = none → Completes (exec (.modxNegateAbs p1) s) (Trapped cILLEGAL s)) ∧
    (s.p.mods.address = none →
      Completes (exec (.modxAddress p2) s) fun t => OnlyPlace s t ∧ t.p.pc = s.cur.pc + 4#32 ∧ t.p.count = s.p.count + 1 ∧
        t.p.lastIssue = s.p.lastIssue ∧ t.p.mods = { s.p.mods with address := some p2, start := first }) ∧
    (¬ s.p.mods.address = none → s.g.evaluates = none → Completes (exec (.modxAddress p2) s) (Trapped cILLEGAL s)) ∧
    (s.p.mods.rounding = none →
      Completes (exec (.modxRounding p3) s) fun t => OnlyPlace s t ∧ t.p.pc = s.cur.pc + 4#32 ∧ t.p.count = s.p.count + 1 ∧
        t.p.lastIssue = s.p.lastIssue ∧ t.p.mods = { s.p.mods with rounding := some p3, start := first }) ∧
    (¬ s.p.mods.rounding = none → s.g.evaluates = none → Completes (exec (.modxRounding p3) s) (Trapped cILLEGAL s)) ∧
    (s.p.mods.setb = false →
      Completes (exec (.modxSetb) s) fun t => OnlyPlace s t ∧ t.p.pc = s.cur.pc + 4#32 ∧ t.p.count = s.p.count + 1 ∧
        t.p.lastIssue = s.p.lastIssue ∧ t.p.mods = { s.p.mods with setb := true, start := first }) ∧
    (¬ s.p.mods.setb = false → s.g.evaluates = none → Completes (exec (.modxSetb) s) (Trapped cILLEGAL s)) ∧
    (s.p.mods.saturate = none →
      Completes (exec (.modxSaturate p5) s) fun t => OnlyPlace s t ∧ t.p.pc = s.cur.pc + 4#32 ∧ t.p.count = s.p.count + 1 ∧
        t.p.lastIssue = s.p.lastIssue ∧ t.p.mods = { s.p.mods with saturate := some p5, start := first }) ∧
    (¬ s.p.mods.saturate = none → s.g.evaluates = none → Completes (exec (.modxSaturate p5) s) (Trapped cILLEGAL s))

/-- A clause header opens its clause: empty last results, its flags and marks, and the wait for the flags it names. -/
def Obligations.ClauseHeaderOpensItsClause : Prop :=
  ∀ (s : State) (y x : BitVec 1) (b a : BitVec 4) (w : BitVec 12),
    (s.p.mods.start = none → (x = 1#1 → s.cur.lit.extractLsb' 30 2 = 0#2) → s.cur.pc.toNat % 4 = 0 →
      (s.p.sp && s.preemptWanted) = false →
      Completes (exec (.clauseHeader y x b a w) s) fun t =>
        { t with p := s.p } = s ∧ t.p.pc = s.cur.pc + BitVec.ofNat 32 s.cur.len ∧ t.p.y0 = [] ∧ t.p.y1 = [] ∧ t.p.exec = s.p.exec ∧
        t.p.member = s.p.member ∧ t.p.idx = s.p.idx ∧ t.p.live = s.p.live ∧ t.p.set = s.p.set ∧ t.p.seta = a ∧ t.p.setb = b ∧
        t.p.sp = (x == 1#1) ∧ t.p.liveMask = (if x = 1#1 then s.cur.lit.setWidth 30 else 0#30) ∧ t.p.yld = (y == 1#1) ∧
        t.p.count = 0 ∧ t.p.inClause = true ∧
        (t.p.wait = .none ↔ ∀ f, f < 12 → w.getLsbD f = true → s.whole.flagCount f = 0)) ∧
    (s.g.evaluates = none → (s.p.mods.start.isSome = true ∨ (x = 1#1 ∧ s.cur.lit.extractLsb' 30 2 ≠ 0#2)) →
      Completes (exec (.clauseHeader y x b a w) s) (Trapped cILLEGAL s)) ∧
    (s.g.evaluates = none → s.p.mods.start = none → (x = 1#1 → s.cur.lit.extractLsb' 30 2 = 0#2) → s.cur.pc.toNat % 4 ≠ 0 →
      Completes (exec (.clauseHeader y x b a w) s) (Trapped cMISALIGN s))

/-- A taken branch moves its own split to the target, an untaken one passes; CALL writes the link; a bad target traps. -/
def Obligations.BranchesGoToTheirTarget : Prop :=
  ∀ (s : State) (o : BitVec 15) (a d : BitVec 7),
    (passes { rd := [] } s = true →
      (TargetOk s (s.cur.pc + (o.signExtend 32 <<< 1)) → Completes (exec (.bra o) s) fun t => OnlyPlace s t ∧ StandsAt (s.cur.pc + (o.signExtend 32 <<< 1)) s t) ∧
      ((s.cur.pc + (o.signExtend 32 <<< 1)).toNat % 4 ≠ 0 → Completes (exec (.bra o) s) (Trapped cMISALIGN s)) ∧
      ((s.cur.pc + (o.signExtend 32 <<< 1)).toNat % 4 = 0 → ∀ h, s.fetch (s.cur.pc + (o.signExtend 32 <<< 1)) 1 = .bytes h → h % 128 ≠ 1 → Completes (exec (.bra o) s) (Trapped cILLEGAL s))) ∧
    (passes { rd := [] } s = true →
      (s.p.exec = 0#32 → TargetOk s (s.cur.pc + (o.signExtend 32 <<< 1)) → Completes (exec (.brez o) s) fun t => OnlyPlace s t ∧ StandsAt (s.cur.pc + (o.signExtend 32 <<< 1)) s t) ∧
      (¬ (s.p.exec = 0#32) → Completes (exec (.brez o) s) (Passes s)) ∧
      (s.p.exec = 0#32 → (s.cur.pc + (o.signExtend 32 <<< 1)).toNat % 4 ≠ 0 → Completes (exec (.brez o) s) (Trapped cMISALIGN s)) ∧
      (s.p.exec = 0#32 → (s.cur.pc + (o.signExtend 32 <<< 1)).toNat % 4 = 0 → ∀ h, s.fetch (s.cur.pc + (o.signExtend 32 <<< 1)) 1 = .bytes h → h % 128 ≠ 1 → Completes (exec (.brez o) s) (Trapped cILLEGAL s))) ∧
    (passes { rd := [] } s = true →
      (s.p.exec ≠ 0#32 → TargetOk s (s.cur.pc + (o.signExtend 32 <<< 1)) → Completes (exec (.brnez o) s) fun t => OnlyPlace s t ∧ StandsAt (s.cur.pc + (o.signExtend 32 <<< 1)) s t) ∧
      (¬ (s.p.exec ≠ 0#32) → Completes (exec (.brnez o) s) (Passes s)) ∧
      (s.p.exec ≠ 0#32 → (s.cur.pc + (o.signExtend 32 <<< 1)).toNat % 4 ≠ 0 → Completes (exec (.brnez o) s) (Trapped cMISALIGN s)) ∧
      (s.p.exec ≠ 0#32 → (s.cur.pc + (o.signExtend 32 <<< 1)).toNat % 4 = 0 → ∀ h, s.fetch (s.cur.pc + (o.signExtend 32 <<< 1)) 1 = .bytes h → h % 128 ≠ 1 → Completes (exec (.brnez o) s) (Trapped cILLEGAL s))) ∧
    (passes { rd := [.s a 1] } s = true →
      (s.readS a = 0#32 → TargetOk s (s.cur.pc + (o.signExtend 32 <<< 1)) → Completes (exec (.brzS o a) s) fun t => OnlyPlace s t ∧ StandsAt (s.cur.pc + (o.signExtend 32 <<< 1)) s t) ∧
      (¬ (s.readS a = 0#32) → Completes (exec (.brzS o a) s) (Passes s)) ∧
      (s.readS a = 0#32 → (s.cur.pc + (o.signExtend 32 <<< 1)).toNat % 4 ≠ 0 → Completes (exec (.brzS o a) s) (Trapped cMISALIGN s)) ∧
      (s.readS a = 0#32 → (s.cur.pc + (o.signExtend 32 <<< 1)).toNat % 4 = 0 → ∀ h, s.fetch (s.cur.pc + (o.signExtend 32 <<< 1)) 1 = .bytes h → h % 128 ≠ 1 → Completes (exec (.brzS o a) s) (Trapped cILLEGAL s))) ∧
    (passes { rd := [.s a 1] } s = true →
      (s.readS a ≠ 0#32 → TargetOk s (s.cur.pc + (o.signExtend 32 <<< 1)) → Completes (exec (.brnzS o a) s) fun t => OnlyPlace s t ∧ StandsAt (s.cur.pc + (o.signExtend 32 <<< 1)) s t) ∧
      (¬ (s.readS a ≠ 0#32) → Completes (exec (.brnzS o a) s) (Passes s)) ∧
      (s.readS a ≠ 0#32 → (s.cur.pc + (o.signExtend 32 <<< 1)).toNat % 4 ≠ 0 → Completes (exec (.brnzS o a) s) (Trapped cMISALIGN s)) ∧
      (s.readS a ≠ 0#32 → (s.cur.pc + (o.signExtend 32 <<< 1)).toNat % 4 = 0 → ∀ h, s.fetch (s.cur.pc + (o.signExtend 32 <<< 1)) 1 = .bytes h → h % 128 ≠ 1 → Completes (exec (.brnzS o a) s) (Trapped cILLEGAL s))) ∧
    (passes { rd := [.s a 1] } s = true →
      ((s.readS a).toInt < 0 → TargetOk s (s.cur.pc + (o.signExtend 32 <<< 1)) → Completes (exec (.brnegS o a) s) fun t => OnlyPlace s t ∧ StandsAt (s.cur.pc + (o.signExtend 32 <<< 1)) s t) ∧
      (¬ ((s.readS a).toInt < 0) → Completes (exec (.brnegS o a) s) (Passes s)) ∧
      ((s.readS a).toInt < 0 → (s.cur.pc + (o.signExtend 32 <<< 1)).toNat % 4 ≠ 0 → Completes (exec (.brnegS o a) s) (Trapped cMISALIGN s)) ∧
      ((s.readS a).toInt < 0 → (s.cur.pc + (o.signExtend 32 <<< 1)).toNat % 4 = 0 → ∀ h, s.fetch (s.cur.pc + (o.signExtend 32 <<< 1)) 1 = .bytes h → h % 128 ≠ 1 → Completes (exec (.brnegS o a) s) (Trapped cILLEGAL s))) ∧
    (passes { wr := [.s d 1] } s = true →
      (TargetOk s (s.cur.pc + (o.signExtend 32 <<< 1)) → Completes (exec (.call o d) s) fun t =>
        { t with p := s.p, g := { t.g with s := s.g.s } } = s ∧ ScalarWritten d ((s.cur.pc + 7#32) &&& 0xFFFFFFFC#32) s t ∧
        t.p.y0 = s.p.y0 ∧ t.p.y1 = s.p.y1 ∧ t.p.member = s.p.member ∧ StandsAt (s.cur.pc + (o.signExtend 32 <<< 1)) s t) ∧
      ((s.cur.pc + (o.signExtend 32 <<< 1)).toNat % 4 ≠ 0 → Completes (exec (.call o d) s) (Trapped cMISALIGN s)) ∧
      ((s.cur.pc + (o.signExtend 32 <<< 1)).toNat % 4 = 0 → ∀ h, s.fetch (s.cur.pc + (o.signExtend 32 <<< 1)) 1 = .bytes h → h % 128 ≠ 1 →
        Completes (exec (.call o d) s) (Trapped cILLEGAL s))) ∧
    (passes { rd := [.s a 1] } s = true →
      (TargetOk s (s.readS a) → Completes (exec (.ret a) s) fun t => OnlyPlace s t ∧ StandsAt (s.readS a) s t) ∧
      ((s.readS a).toNat % 4 ≠ 0 → Completes (exec (.ret a) s) (Trapped cMISALIGN s)) ∧
      ((s.readS a).toNat % 4 = 0 → ∀ h, s.fetch (s.readS a) 1 = .bytes h → h % 128 ≠ 1 → Completes (exec (.ret a) s) (Trapped cILLEGAL s))) ∧
    (passes { rd := [.s a 1] } s = true →
      (TargetOk s (s.readS a) → Completes (exec (.jmpi a) s) fun t => OnlyPlace s t ∧ StandsAt (s.readS a) s t) ∧
      ((s.readS a).toNat % 4 ≠ 0 → Completes (exec (.jmpi a) s) (Trapped cMISALIGN s)) ∧
      ((s.readS a).toNat % 4 = 0 → ∀ h, s.fetch (s.readS a) 1 = .bytes h → h % 128 ≠ 1 → Completes (exec (.jmpi a) s) (Trapped cILLEGAL s)))

/-- SPLIT suspends its split and makes one child per held path with the lanes and the target of that path. -/
def Obligations.SplitMakesOneChildPerHeldPath : Prop :=
  ∀ (s : State) (j : BitVec 2) (a b : BitVec 7), passes { rd := [.s a 1, .s b 1] } s = true →
    let paths := if s.p.exec = 0#32 then [0] else (List.range 4).filter fun p =>
      laneList.any fun l => bitOf s.p.exec l && ((if bitOf (s.readS b) l then 2 else 0) + (if bitOf (s.readS a) l then 1 else 0) == p)
    let target := fun p => s.cur.pc + ((s.cur.dword.extractLsb' (16 * p) 16).signExtend 32 <<< 1)
    (∀ p ∈ paths, TargetOk s (target p)) →
      (s.g.splits.length + paths.length ≤ 4 → s.g.sets.length < 4 →
        Completes (exec (.split j b a) s) fun t =>
          (∃ e, t.g.sets = s.g.sets ++ [e] ∧ e.num = s.nextId ∧ e.joinId = j ∧ e.parent.member = s.p.member ∧
            e.parent.pc = s.cur.pc + BitVec.ofNat 32 s.cur.len ∧ e.parent.set = s.p.set) ∧
          t.g.splits.length = s.g.splits.length + paths.length ∧ (∀ q ∈ s.g.splits, q ∈ t.g.splits) ∧
          (∀ p ∈ paths, ∃ q ∈ t.g.splits, q.set = some s.nextId ∧ q.pc = target p ∧ q.wait = .none ∧ q.inClause = false ∧
            (∀ l, l < 32 → bitOf q.exec l = (bitOf s.p.exec l &&
              ((if bitOf (s.readS b) l then 2 else 0) + (if bitOf (s.readS a) l then 1 else 0) == p))) ∧ q.member = q.exec) ∧
          t.p.live = false ∧ { t.g with splits := [], sets := [], tx := none } = { s.g with splits := [], sets := [], tx := none } ∧
          KeepsMemory s t ∧ KeepsModule s t) ∧
      (4 < s.g.splits.length + paths.length ∨ 4 ≤ s.g.sets.length →
        Completes (exec (.split j b a) s) (Trapped cSPLITLIM s))

/-- JOIN parks its split and aborts an open transaction, a set whose live children are all parked joins, JOINMIS stops a wrong JOIN; EXIT
ends its split, and the last EXIT its group. -/
def Obligations.JoinAndExit : Prop :=
  (∀ (s : State) (j : BitVec 2), passes {} s = true →
    let mine := s.p.set.bind fun n => s.g.sets.find? fun e => e.num == n
    (∀ e, mine = some e → e.joinId = j →
      (∀ q ∈ s.g.splits, q.set = some e.num → ∀ a, q.wait = .parked a → a = s.cur.pc) →
      Completes (exec (.join j) s) fun t => ∃ u : State, { u with p := s.p, g := { u.g with tx := s.g.tx } } = s ∧
        u.g.tx = Forbidden s.g.tx ∧ u.p.wait = .parked s.cur.pc ∧ u.p.pc = s.cur.pc ∧ u.p.count = s.p.count + 1 ∧
        u.p.exec = s.p.exec ∧ u.p.member = s.p.member ∧ u.p.idx = s.p.idx ∧ u.p.set = s.p.set ∧ u.p.live = s.p.live ∧
        t = u.setChanged u.p ∧ KeepsMachine s t) ∧
    ((mine = none ∨ ∃ e, mine = some e ∧ (e.joinId ≠ j ∨
        ∃ q ∈ s.g.splits, q.set = some e.num ∧ ∃ a, q.wait = .parked a ∧ a ≠ s.cur.pc)) →
      Completes (exec (.join j) s) fun t => Trapped cJOINMIS s t ∧ ∀ e r, mine = some e →
        keyFind (t.core s.g.core).traps s.g.slot = some r →
        (∃ q ∈ s.g.splits, q.set = some e.num ∧ ∃ a, q.wait = .parked a ∧ a ≠ s.cur.pc) →
          ∃ q ∈ s.g.splits, q.set = some e.num ∧ q.wait = .parked r.infoA ∧ r.infoA ≠ s.cur.pc)) ∧
  (∀ (s : State) (last : Split), s.g.live = true →
    let u := s.modGroup s.g.core s.g.slot fun g => joinSets s.clock last 5 last.set g
    (∀ g, u.group s.g.core s.g.slot = some g → ∀ q ∈ g.movers, q.wait = .none) → s.setChanged last = u) ∧
  (∀ (clock fuel num : Nat) (last : Split) (g : Group) (e : SplitSet), g.splits.length ≤ 4 →
    g.sets.find? (fun e => e.num == num) = some e →
    let t := joinSets clock last (fuel + 1) (some num) g
    let kids := g.splits.filter fun q => q.set == some num
    let sets := g.sets.filter fun e => !(e.num == num)
    let nested := ∃ f ∈ sets, f.parent.set = some num
    (∀ at_ : Word, ¬ nested → kids ≠ [] → (∀ q ∈ kids, q.wait = .parked at_) →
      t.sets = sets ∧ ∃ q ∈ t.splits, q.pc = ((at_ + 7#32) &&& 0xFFFFFFFC#32) ∧ q.live = true ∧
        q.wait = .none ∧ q.inClause = false ∧ q.y0 = [] ∧ q.y1 = [] ∧ q.member = e.parent.member ∧ q.set = e.parent.set ∧
        (∀ l, l < 32 → bitOf q.exec l = (bitOf e.parent.member l && kids.any fun k => bitOf k.exec l)) ∧
        ∀ k, k ∈ t.splits ↔ k = q ∨ (k ∈ g.splits ∧ k.set ≠ some num)) ∧
    (nested ∨ (∃ q ∈ kids, ∀ a, q.wait ≠ .parked a) → t = g) ∧
    (¬ nested → kids = [] → t = joinSets clock last fuel e.parent.set { g with sets := sets })) ∧
  (∀ s : State, passes {} s = true →
    (s.g.splits ≠ [] → Completes (exec .exit s) fun t => ∃ u : State, OnlyPlace { s with p := { s.p with live := false } } u ∧
      t = u.setChanged { u.p with live := s.p.live } ∧ KeepsMachine s t) ∧
    (s.g.splits = [] → settled s = true → s.g.live = true →
      Completes (exec .exit s) fun t => t.g.live = false ∧ t.p.live = false ∧ t.g.core = s.g.core ∧ t.g.slot = s.g.slot ∧
        t.g.v = s.g.v ∧ t.g.s = s.g.s ∧ t.g.region = {} ∧ t.g.tx = none ∧ KeepsMemory s t ∧ t.ctxs = s.ctxs ∧ t.clock = s.clock ∧
        ((∀ h ∈ s.others, h.live = true → h.team ≠ s.g.team) → Due 1 (.teamEnd s.g.team) s t)))

/-- YIELD, SLEEP, WAITP, RCOMMIT, FENCE and WAITX complete and wait exactly for what they name. -/
def Obligations.WaitsAndYields : Prop :=
  (∀ (s : State) (n : BitVec 6) (a : BitVec 7) (p : BitVec 3),
    (passes {} s = true → Completes (exec .yield s) fun t => Passes s t ∧ t.p.yielded = true ∧ t.p.readyTime = s.clock) ∧
    (passes { rd := [.s a 1] } s = true →
      ((s.readS a).toNat + n.toNat = 0 →
        Completes (exec (.sleep n a) s) fun t => Passes s t ∧ t.p.yielded = true ∧ t.p.readyTime = s.clock) ∧
      (∀ m, (s.readS a).toNat + n.toNat = m → 0 < m →
        Completes (exec (.sleep n a) s) fun t => t.p.wait = .sleep (s.clock + 1 + m) ∧ Advances s t ∧ t.g = s.g ∧
          t.agenda = s.agenda ++ [{ id := s.nextId, due := s.clock + 1 + m, ev := .sleepExpiry s.g.core s.g.slot s.p.idx }] ∧
          KeepsMemory s t ∧ KeepsModule { s with agenda := [] } { t with agenda := [] }) ∧
      (let waits := fun t : State =>
         (255 ≤ (s.readS a).toNat ∨ s.g.pathCount p.toNat ≤ (s.readS a).toNat → s.p.pushing = [] → t.p.wait = s.p.wait) ∧
         ((s.readS a).toNat < 255 → (s.readS a).toNat < s.g.pathCount p.toNat → t.p.wait = .path p.toNat (s.readS a).toNat)
       let first := s.g.region.held ≠ [] ∨ (p = 1#3 ∧ ∃ o ∈ s.g.ops, o.path = some 1 ∧ o.inRegion = true)
       (s.p.stage = 0 → ¬ first → Completes (exec (.waitp p a) s) fun t => Passes s t ∧ waits t) ∧
       (s.p.stage = 0 → first → settled s = false → exec (.waitp p a) s = .next s.txForbid.beginCommit) ∧
       (s.p.stage ≠ 0 ∨ (first ∧ settled s = true) → Completes (exec (.waitp p a) s) fun t =>
         KeepsGroupButRegion s t ∧ Advances s t ∧ KeepsMemory s t ∧ waits t)))) ∧
  (∀ (s : State) (c : BitVec 5) (m : BitVec 4) (a : BitVec 7), settled s = true →
    (passes {} s = true →
      Completes (exec .rcommit s) (fun t => KeepsGroupButRegion s t ∧ Advances s t ∧ KeepsRegisters s.committed t ∧ KeepsMemory s t ∧
        KeepsModule s t ∧ (s.p.pushing = [] → t.p.wait = s.p.wait)) ∧
      Completes (exec (.fence c) s) (fun t => KeepsGroupButRegion s t ∧ Advances s t ∧ KeepsRegisters s.committed t ∧ KeepsMemory s t ∧
        KeepsModule s t ∧ ∀ m, m = (if s.p.stage = 0 then s.myScope c else s.p.scope) →
          (s.commandsIn m ≠ [] → t.p.wait = .fence (s.commandsIn m)) ∧
          (s.commandsIn m = [] → s.p.pushing = [] → t.p.wait = s.p.wait))) ∧
    (passes { rd := [.s a 1] } s = true →
      ∃ u : State, KeepsGroupButRegion s u ∧ Advances s u ∧ u.p.wait = .waitx m.toNat (s.readS a) ∧
        exec (.waitx m a) s = .next (u.arrivals s.g.core s.g.slot)))

/-- SPLD issues a load of its own scratchpad lane by lane; SPST stores each lane, in ascending lanes, and nothing else. That work comes up after the stated number of clk is the model's choice (log 7: the typical figure where the spec gives one). -/
def Obligations.ScratchpadLoadsAndStores : Prop :=
  ∀ (s : State) (b : BitVec 7) (a d : BitVec 8) (z : BitVec 2) (off : Nat → Nat),
    let f := addrFields s.p.mods
    let n := accessSize s.p.mods z
    let regs := if f.sub = 0 then dataRegs z else 1
    let ld : Uses := { rd := [.s b 2, .v a 1], wr := [.v d regs], modx := { addr := .spLoad z, addrReg := a, flag := true } }
    let st : Uses := { rd := [.s b 2, .v a 1, .v d regs], modx := { addr := .spStore z, addrReg := a, flag := true } }
    let own := s.myTeam.core = s.g.core ∧
      ∀ l ∈ s.active, s.spPlace (s.spadAddr b a l).toNat n = some (s.g.team, off l) ∧ off l % n = 0
    (passes ld s = true → own → Completes (exec (.spld b a d z) s) (FlagIssued 18 [a]
      (s.loadWrites d regs (laneMask s.active) (s.active.map fun l =>
        (l, extendSub f.sub f.sx (readBytes (s.core s.g.core).spad (s.myTeam.spbase + off l) n)))) (vdests d regs) [] s)) ∧
    (passes st s = true → own → (∀ l m, s.p.kept ≠ some (.lanes l m)) → Completes (exec (.spst b a d z) s) fun t =>
      InFlight { id := 0, flag := s.flagTarget, path := none } s.nextId s t ∧
      Due 18 (.flagOperationComplete s.g.core s.g.slot s.nextId) s t ∧ OnlyIssues s t ∧ KeepsOthers s t ∧ KeepsGlobal s t ∧
      (t.core s.g.core).spad = s.active.foldl (fun m l => writeBytes m (s.myTeam.spbase + off l) n (s.dataOf d regs l))
        (s.core s.g.core).spad ∧
      ∀ c x, (c = s.g.core → ∀ l ∈ s.active, x < s.myTeam.spbase + off l ∨ s.myTeam.spbase + off l + n ≤ x) →
        storeRead (t.core c).spad x = storeRead (s.core c).spad x) ∧
    ((∃ l ∈ s.active, s.spPlace (s.spadAddr b a l).toNat n = none) → s.g.sys.mode.getLsbD 1 = false →
      (passes ld s = true → Completes (exec (.spld b a d z) s) (Trapped cSPBOUND s)) ∧
      (passes st s = true → (∀ l m, s.p.kept ≠ some (.lanes l m)) → Completes (exec (.spst b a d z) s) (Trapped cSPBOUND s))) ∧
    ((∀ l ∈ s.active, ∃ p, s.spPlace (s.spadAddr b a l).toNat n = some p) →
      (∃ l ∈ s.active, ∃ p, s.spPlace (s.spadAddr b a l).toNat n = some p ∧ p.2 % n ≠ 0) →
      (passes ld s = true → Completes (exec (.spld b a d z) s) (Trapped cMISALIGN s)) ∧
      (passes st s = true → (∀ l m, s.p.kept ≠ some (.lanes l m)) → Completes (exec (.spst b a d z) s) (Trapped cMISALIGN s)))

/-- Each SPAT combines its lanes with the scratchpad one after another, lowest lane first, and returns what each lane saw. That work comes up after the stated number of clk is the model's choice (log 7: the typical figure where the spec gives one). -/
def Obligations.ScratchpadAtomics : Prop :=
  ∀ (s : State) (b : BitVec 5) (a d : BitVec 8) (off : Nat → Nat),
    let f := addrFields s.p.mods
    let n := accessSize s.p.mods 0#2
    let o := if f.a64 then 2 else 1
    let r := fun (op : Nat) (out : Out) =>
      let cnt := if op = 1 then 2 else 1
      let lanes := s.active.map fun l =>
        (l, off l, (s.g.vreg (a.toNat + o) l).toNat, (s.g.vreg (a.toNat + o + 1) l).toNat)
      let res := s.spAtomics s.g.team op n lanes
      passes { rd := [.s (b.setWidth 7) 2, .v a (o + cnt)], wr := [.v d 1],
               modx := { addr := .spAtomic (decide (10 ≤ op)), addrReg := a, addrData := cnt, flag := true } } s = true →
      s.myTeam.core = s.g.core → (∀ l m, s.p.kept ≠ some (.lanes l m)) →
      (∀ l ∈ s.active, s.spPlace (s.spadAddr (b.setWidth 7) a l).toNat n = some (s.g.team, off l) ∧ off l % n = 0) →
      Completes out fun t =>
        InFlight { id := 0, flag := s.flagTarget, path := none, vdst := vdests d 1, writes := { s.loadWrites d 1 (laneMask s.active) res.2.1 with fl := res.2.2 } } s.nextId s t ∧
        Due 24 (.flagOperationComplete s.g.core s.g.slot s.nextId) s t ∧ OnlyIssues s t ∧ KeepsOthers s t ∧ KeepsGlobal s t ∧
        (∀ c, (t.core c).spad = (res.1.core c).spad) ∧
        (∀ l, s.active = [l] → ∀ old, readBytes (s.core s.g.core).spad (s.myTeam.spbase + off l) n = old →
          readBytes (t.core s.g.core).spad (s.myTeam.spbase + off l) n =
            (atomStep op (8 * n) old (s.g.vreg (a.toNat + o) l).toNat (s.g.vreg (a.toNat + o + 1) l).toNat).1 % 256 ^ n) ∧
        ∀ c x, (c = s.g.core → ∀ l ∈ s.active, x < s.myTeam.spbase + off l ∨ s.myTeam.spbase + off l + n ≤ x) →
          storeRead (t.core c).spad x = storeRead (s.core c).spad x
    r 0 (exec (.spatXchg b a d) s) ∧
    r 1 (exec (.spatCas b a d) s) ∧
    r 2 (exec (.spatIadd b a d) s) ∧
    r 3 (exec (.spatIminI b a d) s) ∧
    r 4 (exec (.spatImaxI b a d) s) ∧
    r 5 (exec (.spatIminN b a d) s) ∧
    r 6 (exec (.spatImaxN b a d) s) ∧
    r 7 (exec (.spatAnd b a d) s) ∧
    r 8 (exec (.spatOr b a d) s) ∧
    r 9 (exec (.spatXor b a d) s) ∧
    r 10 (exec (.spatFadd b a d) s) ∧
    r 11 (exec (.spatFmin b a d) s) ∧
    r 12 (exec (.spatFmax b a d) s)

/-- LD.G, LDFWD, LDS and LDS64 count on P0 with the values of the region over memory (LD.G inside a transaction with those of its lane's
record), and change no register yet. That work comes up after the stated number of clk is the model's choice (log 7: the typical figure where
the spec gives one), and so is when a load's value is read (log 58). -/
def Obligations.GlobalLoadsIssueTheirValues : Prop :=
  ∀ (s : State) (b o e : BitVec 7) (a d : BitVec 8) (z : BitVec 2),
    let f := addrFields s.p.mods
    let n := accessSize s.p.mods z
    let regs := if f.sub = 0 then dataRegs z else 1
    let addr := s.laneAddresses (s.readS64 b) a
    let rest := fun (op : Async) (clk : Nat) (t : State) =>
      (∃ id, InFlight op id s t ∧ Due clk (.globalLoadReturn s.g.core s.g.slot id) s t) ∧ OnlyIssues s t ∧ KeepsOthers s t ∧
        KeepsGlobal s t ∧ KeepsPads s t ∧ t.g.region.stores = s.g.region.stores
    let vals : Nat → List LaneAt → List (Nat × Nat) := fun n l =>
      match (s.txCap true true n l).g.tx with
      | none => l.map fun e => (e.lane, s.found n e)
      | some x => l.map fun e => (e.lane, s.foundIn x n e)
    (∀ l, passes { rd := [.s b 2, offsetRegs s.p.mods a], wr := [.v d regs], path := some 0,
                   modx := { addr := .load z, addrReg := a } } s = true →
      (PlacesOk (if s.g.tx.isSome then accTx else accR) n true addr s l → loadable n true l s = true →
        Completes (exec (.ldG b a d z) s) (rest { id := 0, flag := none, path := some 0, vdst := vdests d regs, origin := s.inFlight l, writes := s.loadWrites d regs s.p.exec ((vals n l).map fun e => (e.1, extendSub f.sub f.sx e.2)) } (if l.isEmpty then 1 else 190))) ∧
      ((∃ e ∈ addr, e.2 % n ≠ 0) → Completes (exec (.ldG b a d z) s) (Trapped cMISALIGN s))) ∧
    (∀ l, passes { rd := [.s b 2, offsetRegs s.p.mods a], wr := [.v d 1], path := some 0,
                   modx := { addr := .fwdLoad, addrReg := a } } s = true →
      (PlacesOk accR 4 false addr s l → loadable 4 false l s = true →
        Completes (exec (.ldfwd b a d) s) fun t => t.g.tx = Forbidden s.g.tx ∧
          rest { id := 0, flag := none, path := some 0, vdst := vdests d 1, origin := s.inFlight l, writes := s.loadWrites d 1 s.p.exec (l.map fun e => (e.lane, s.found 4 e)) } (if l.isEmpty then 1 else 190) t) ∧
      ((∃ e ∈ addr, e.2 % 4 ≠ 0) → Completes (exec (.ldfwd b a d) s) (Trapped cMISALIGN s))) ∧
    (∀ n out, (n = 4 ∧ out = exec (.lds o b e) s ∨ n = 8 ∧ out = exec (.lds64 o b e) s) →
      passes { rd := [.s b 2, .s o 1], wr := [.s e (n / 4)], path := some 0 } s = true →
      (∀ x, PlacesOk accR n false [(0, s.scalarVa o b)] s [x] → loadable n false [x] s = true →
        Completes out fun t => t.g.tx = Forbidden s.g.tx ∧
          rest { id := 0, flag := none, path := some 0, sdst := (List.range (n / 4)).map (e.toNat + ·), origin := s.inFlight [x], writes := { s := (List.range (n / 4)).map fun i => (e.toNat + i, BitVec.ofNat 32 (s.found n x / 2 ^ (32 * i))) } } 190 t) ∧
      (s.scalarVa o b % n ≠ 0 → Completes out (Trapped cMISALIGN s)))

/-- ST.G, STFWD, STS and STS64 put their bytes into the store buffer (ST.G inside a transaction those of its members into their records),
count on P1, and publish nothing before the commit; PREF changes no byte but the A bit of the entry its walk ends at. -/
def Obligations.GlobalStoresFillTheBuffer : Prop :=
  ∀ (s : State) (b o e : BitVec 7) (a d : BitVec 8) (z : BitVec 2),
    let f := addrFields s.p.mods
    let n := accessSize s.p.mods z
    let regs := if f.sub = 0 then dataRegs z else 1
    let addr := s.laneAddresses (s.readS64 b) a
    let rest := fun (inRegion : Bool) (l : List LaneAt) (t : State) =>
      (∃ id, InFlight { id := 0, flag := none, path := some 1, inRegion := inRegion } id s t) ∧ OnlyIssues s t ∧
        KeepsGlobal s t ∧ t.others = s.others ∧ t.ctxs = s.ctxs ∧ ((∀ x ∈ l, ∀ m w, x.place ≠ .map m w) → KeepsPads s t)
    let outside := fun (inRegion : Bool) (n : Nat) (l : List LaneAt) (val : Nat → Nat) (t : State) =>
      rest inRegion l t ∧ Buffered n l val s t ∧ t.g.tx = Forbidden s.g.tx
    ((∀ l, passes { rd := [.s b 2, offsetRegs s.p.mods a, .v d regs], path := some 1,
                     modx := { addr := .store z, addrReg := a } } s = true →
        (PlacesOk (if s.g.tx.isSome then accRW else accW) n true addr s l → s.readOnlyLanes l = [] → storable n true l s = true →
          Completes (exec (.stG b a d z) s) fun t => rest (!(placeLines l).isEmpty) l t ∧
            match (s.txCap false true n l).g.tx with
            | none => Buffered n l (s.dataOf d regs) s t ∧ t.g.tx = none
            | some x => Recorded n l (s.dataOf d regs) x s t) ∧
        ((∃ e ∈ addr, e.2 % n ≠ 0) → Completes (exec (.stG b a d z) s) (Trapped cMISALIGN s))) ∧
      (∀ l, passes { rd := [.s b 3, offsetRegs s.p.mods a, .v d 1], path := some 1, modx := { addr := .fwdStore, addrReg := a } } s = true →
        (PlacesOk accW 4 false addr s l → storable 4 false l s = true →
          Completes (exec (.stfwd b a d) s) (outside (!l.isEmpty) 4 l (s.dataOf d 1))) ∧
        ((∃ e ∈ addr, e.2 % 4 ≠ 0) → Completes (exec (.stfwd b a d) s) (Trapped cMISALIGN s))) ∧
      (passes { rd := [.s b 2, .s o 1, .s e 1], path := some 1 } s = true →
        (∀ x, PlacesOk accW 4 false [(0, s.scalarVa o b)] s [x] → storable 4 false [x] s = true →
          Completes (exec (.sts o b e) s) (outside true 4 [x] (fun _ => (s.readS e).toNat))) ∧
        (s.scalarVa o b % 4 ≠ 0 → Completes (exec (.sts o b e) s) (Trapped cMISALIGN s))) ∧
      (passes { rd := [.s b 2, .s o 1, .s e 2], path := some 1 } s = true →
        (∀ x, PlacesOk accW 8 false [(0, s.scalarVa o b)] s [x] → storable 8 false [x] s = true →
          Completes (exec (.sts64 o b e) s) (outside true 8 [x] (fun _ => (s.readS64 e).toNat))) ∧
        (s.scalarVa o b % 8 ≠ 0 → Completes (exec (.sts64 o b e) s) (Trapped cMISALIGN s)))) ∧
    (passes { rd := [.s b 2, .s o 1, .s e 1] } s = true →
      Completes (exec (.pref o b e) s) fun t => KeepsRegisters s t ∧ Advances s t ∧ KeepsPads s t ∧ t.others = s.others ∧ t.ctxs = s.ctxs ∧
        t.clock = s.clock ∧ t.agenda = s.agenda ∧
        ∀ w, storeRead t.mem w ≠ storeRead s.mem w → s.lookup (s.scalarVa o b) accR = .miss ∧
          ∃ tr, s.walk s.g.ctx (s.scalarVa o b) = .leaf tr w true ∧ tr.permits accR = true ∧
            storeRead t.mem w = storeRead s.mem w ||| 0x20#8)

/-- ATOM.G and RED.G issue once their region is settled: an operation with its lanes, on P0 or P1, on its way to the slice. That work comes up after the stated number of clk is the model's choice (log 7: the typical figure where the spec gives one). -/
def Obligations.GlobalAtomicsIssue : Prop :=
  ∀ (s : State) (b : BitVec 5) (a d : BitVec 8) (l : List LaneAt),
    let f := addrFields s.p.mods
    let o := if f.a64 then 2 else 1
    let size := accessSize s.p.mods 0#2
    let addr := s.laneAddresses (s.readS64 (b.setWidth 7)) a
    let r := fun (op path : Nat) (d : BitVec 8) (out : Out) =>
      let cnt := if op = 1 then 2 else 1
      passes { rd := [.s (b.setWidth 7) 2, .v a (o + cnt)], wr := [.v d 1], path := some path,
               modx := { addr := .atomic (decide (10 ≤ op)), addrReg := a, addrData := cnt } } s = true →
      (PlacesFound accRW size addr s l →
        (settledFor true s = true → Completes out fun t => ∃ lanes from_,
          (lanes.map fun x => (x.1, x.2.2.1, x.2.2.2)) = l.map (fun x =>
            (x.lane, (s.g.vreg (a.toNat + o) x.lane).toNat, (s.g.vreg (a.toNat + o + 1) x.lane).toNat)) ∧
          (∀ x ∈ lanes, ∃ y ∈ l, ∃ tr, y.lane = x.1 ∧ y.place = .pa x.2.1 tr) ∧
          from_.issue = s.cur ∧ from_.split.idx = s.p.idx ∧ from_.split.pc = s.p.pc ∧ from_.places = l ∧
          InFlight { id := 0, flag := none, path := some path, vdst := vdests d 1, origin := some from_, atomic := some { op := op, size := size, lanes := lanes, dst := d.toNat, mask := s.p.exec, streaming := streamingLines l, queues := if 0xF0 ≤ d.toNat then s.pushTargets (d.toNat - 0xF0) else [] } } s.nextId s t ∧
          Due 190 (.atomicCommit s.g.core s.g.slot s.nextId) s t ∧ OnlyIssues s t ∧ KeepsOthers s t ∧ KeepsGlobal s t ∧ KeepsPads s t) ∧
        (settledFor true s = false →
          out = .next ({ s with p := { s.p with kept := some (.places l), stale := false } }).txForbid.beginCommit)) ∧
      ((∃ e ∈ addr, e.2 % size ≠ 0) → (∀ m, s.p.kept ≠ some (.places m)) → Completes out (Trapped cMISALIGN s))
    (d ≠ 0xEA#8 →
      r 0 0 d (exec (.atomGXchg b a d) s) ∧
      r 1 0 d (exec (.atomGCas b a d) s) ∧
      r 2 0 d (exec (.atomGIadd b a d) s) ∧
      r 3 0 d (exec (.atomGIminI b a d) s) ∧
      r 4 0 d (exec (.atomGImaxI b a d) s) ∧
      r 5 0 d (exec (.atomGIminN b a d) s) ∧
      r 6 0 d (exec (.atomGImaxN b a d) s) ∧
      r 7 0 d (exec (.atomGAnd b a d) s) ∧
      r 8 0 d (exec (.atomGOr b a d) s) ∧
      r 9 0 d (exec (.atomGXor b a d) s) ∧
      r 10 0 d (exec (.atomGFadd b a d) s) ∧
      r 11 0 d (exec (.atomGFmin b a d) s) ∧
      r 12 0 d (exec (.atomGFmax b a d) s)) ∧
    (d = 0xEA#8 →
      r 0 1 d (exec (.atomGXchg b a d) s) ∧
      r 1 1 d (exec (.atomGCas b a d) s) ∧
      r 2 1 d (exec (.atomGIadd b a d) s) ∧
      r 3 1 d (exec (.atomGIminI b a d) s) ∧
      r 4 1 d (exec (.atomGImaxI b a d) s) ∧
      r 5 1 d (exec (.atomGIminN b a d) s) ∧
      r 6 1 d (exec (.atomGImaxN b a d) s) ∧
      r 7 1 d (exec (.atomGAnd b a d) s) ∧
      r 8 1 d (exec (.atomGOr b a d) s) ∧
      r 9 1 d (exec (.atomGXor b a d) s) ∧
      r 10 1 d (exec (.atomGFadd b a d) s) ∧
      r 11 1 d (exec (.atomGFmin b a d) s) ∧
      r 12 1 d (exec (.atomGFmax b a d) s)) ∧
    r 2 1 0xEA#8 (exec (.redGIadd b a) s) ∧
    r 3 1 0xEA#8 (exec (.redGIminI b a) s) ∧
    r 4 1 0xEA#8 (exec (.redGImaxI b a) s) ∧
    r 5 1 0xEA#8 (exec (.redGIminN b a) s) ∧
    r 6 1 0xEA#8 (exec (.redGImaxN b a) s) ∧
    r 7 1 0xEA#8 (exec (.redGAnd b a) s) ∧
    r 8 1 0xEA#8 (exec (.redGOr b a) s) ∧
    r 9 1 0xEA#8 (exec (.redGXor b a) s) ∧
    r 10 1 0xEA#8 (exec (.redGFadd b a) s) ∧
    r 11 1 0xEA#8 (exec (.redGFmin b a) s) ∧
    r 12 1 0xEA#8 (exec (.redGFmax b a) s)

/-- TXBEGIN opens a transaction on the active lanes, TXABORT aborts them, TXEND closes it and names the aborted lanes. -/
def Obligations.Transactions : Prop :=
  ∀ (s : State) (n : BitVec 6) (d : BitVec 7),
    (passes {} s = true →
      (s.g.tx ≠ none → Completes (exec .txbegin s) (Passes s)) ∧
      (s.g.tx = none → settled s = true → Completes (exec .txbegin s) fun t =>
        KeepsGroupButRegion s t ∧ Advances s t ∧ KeepsMemory s t ∧ KeepsModule s t ∧
          t.g.tx = some { num := s.nextId, lanes := s.p.exec } ∧ t.p.tx = some s.nextId) ∧
      (Completes (exec (.txabort n) s) fun t => KeepsGroupButRegion s t ∧ t.g.region = s.g.region ∧ Advances s t ∧ KeepsMemory s t ∧
        KeepsModule s t ∧ (s.g.tx = none → t.g.tx = none) ∧
        ∀ x, s.g.tx = some x → ∃ y, t.g.tx = some y ∧ y.aborted = x.aborted ||| (s.p.exec &&& x.lanes) ∧
          y.cause.extractLsb' 0 6 = n ∧ y.cause.getLsbD 11 = true ∧ y.lanes = x.lanes ∧ y.perLane = x.perLane)) ∧
    (passes { wr := [.s d (if d.toNat < 123 then 2 else 1)] } s = true → settled s = true →
      (s.g.tx = none → Completes (exec (.txend d) s) fun t => t.g.tx = none ∧ t.g.s = s.g.s ∧ t.g.v = s.g.v ∧ Advances s t ∧
        KeepsMemory s t ∧
        (d.toNat < 123 → ∃ o ∈ t.g.ops, o.writes.s = [(d.toNat, 0#32), (d.toNat + 1, 0#32)] ∧ o.sdst = [d.toNat, d.toNat + 1]) ∧
        (d = 124#7 → t.p.exec = 0#32)) ∧
      (∀ x, s.g.tx = some x → s.p.tx ≠ some x.num → Completes (exec (.txend d) s) fun t => t.g.tx = s.committed.g.tx ∧
        t.g.s = s.g.s ∧ t.g.v = s.g.v ∧ t.g.ops = s.g.ops ∧ t.p.exec = s.p.exec ∧ Advances s t ∧ KeepsMemory s t) ∧
      (∀ x, s.g.tx = some x → s.p.tx = some x.num →
        s.poisonedTx x = false → (∀ k ∈ x.perLane, ∀ e ∈ k.2.stores, s.ownedLine e.1 = false ∧ s.reservedElse s.g.core s.g.slot e.1 = false) →
        Completes (exec (.txend d) s) fun t => t.g.tx = none ∧ t.p.tx = none ∧ t.g.s = s.g.s ∧ t.g.v = s.g.v ∧ Advances s t ∧ KeepsPads s t ∧
          (∀ w, (∀ k ∈ x.perLane, (x.close s).records k.1 = true → ∀ e ∈ k.2.stores, w / 128 ≠ e.1) →
            storeRead t.mem w = storeRead s.mem w) ∧
          (d.toNat < 123 → ∃ o ∈ t.g.ops, o.sdst = [d.toNat, d.toNat + 1] ∧
            o.writes.s = [(d.toNat, (x.close s).aborted), (d.toNat + 1, (x.close s).cause)]) ∧
          (d = 124#7 → t.p.exec = (x.close s).aborted &&& s.p.member))) ∧
    (passes { wr := [.s d (if d.toNat < 123 then 2 else 1)] } s = true → ∀ x, s.g.tx = some x → s.p.tx = some x.num → s.p.stage = 0 →
      (∃ k ∈ x.perLane, (∃ e ∈ k.2.stores, e.1 ∈ s.dev.poisoned) ∨ ∃ e ∈ k.2.reads, e.1 ∈ s.dev.poisoned) →
      Completes (exec (.txend d) s) (Trapped cMEMERR s))

/-- SRD writes the value of any of the 128 system register numbers, 0 for an unassigned one; a read of sys.clock latches its high half. A supervisor's team registers read as the model chose (log 42). -/
def Obligations.SystemRegisterReads : Prop :=
  ∀ (s : State) (d : BitVec 7), passes { wr := [.s d 1] } s = true →
    let c := s.ctx s.sysCtx
    let k := s.core s.g.core
    let e := s.g.sys.scsel.toNat
    let fixed := [1#320 <<< s.g.core, s.scopeMask s.sysCtx s.g.core s.g.team 1,
      BitVec.ofNat 320 ((2 ^ 160 - 1) * 2 ^ (160 * (s.g.core / 160))), BitVec.ofNat 320 (2 ^ 320 - 1)]
    let mask := if e < 4 then fixed.getD e 0#320 else storeRead c.scopes e
    let head := k.faults.find? fun f => !f.host
    let pending := if k.trsel.toNat < 64 then (keyFind k.traps k.trsel.toNat).isSome else k.trsel = 64#7 && head.isSome
    let reads := fun (n : Nat) (x : Word) => Completes (exec (.srd (BitVec.ofNat 7 n) d) s) (ScalarResult [] d x s)
    reads 0x0 (BitVec.ofNat 32 s.g.core) ∧
    reads 0x1 (BitVec.ofNat 32 (s.g.core / 160)) ∧
    reads 0x3 (BitVec.ofNat 32 s.myTeam.index) ∧
    reads 0x4 (BitVec.ofNat 32 s.myTeam.card.teams) ∧
    reads 0x5 (s.g.role.setWidth 32) ∧
    reads 0x6 (s.g.sys.gang) ∧
    reads 0x7 (BitVec.ofNat 32 s.myTeam.spbase) ∧
    reads 0x8 (BitVec.ofNat 32 s.myTeam.spsize) ∧
    reads 0x9 (s.g.sys.faultmask) ∧
    reads 0xa (s.g.sys.mode.setWidth 32) ∧
    reads 0xb (s.g.sys.fpflags.setWidth 32) ∧
    reads 0xc (s.g.sys.fpen.setWidth 32) ∧
    reads 0xd (s.g.sys.mcap.setWidth 32) ∧
    reads 0xe (s.g.sys.rngkey0) ∧
    reads 0xf (s.g.sys.rngkey1) ∧
    reads 0x11 (s.g.sys.clockhi) ∧
    reads 0x12 (s.g.sys.scsel.setWidth 32) ∧
    reads 0x20 (BitVec.ofNat 32 s.g.ctx) ∧
    reads 0x21 (s.g.sys.privhwm) ∧
    reads 0x22 ((s.ctx s.sysCtx).lease) ∧
    reads 0x23 ((s.ctx s.sysCtx).orphan) ∧
    reads 0x24 ((s.core s.g.core).tvec) ∧
    reads 0x25 ((s.core s.g.core).preemptLimit) ∧
    reads 0x62 ((s.ctx s.sysCtx).ptroot0) ∧
    reads 0x63 ((s.ctx s.sysCtx).ptroot1.setWidth 32) ∧
    reads 0x6b ((s.core s.g.core).wdlimit) ∧
    (∀ w, s.clusterOf s.g.team = some w →
      reads 0x2 (BitVec.ofNat 32 (s.myTeam.pos % w.w + 16 * (s.myTeam.pos / w.w) + 256 * w.w + 4096 * w.h))) ∧
    (s.clusterOf s.g.team = none → reads 0x2 (0#32)) ∧
    (∀ j, j < 10 → reads (0x13 + j) (mask.extractLsb' (32 * j) 32)) ∧
    reads 0x5f (if s.isSup then s.g.sys.ctxsel.setWidth 32 else 0#32) ∧
    reads 0x60 (BitVec.ofNat 32 (k.trsel.toNat + if pending then 2 ^ 31 else 0)) ∧
    reads 0x61 (match k.oldest with | some r => BitVec.ofNat 32 (r + 2 ^ 31) | none => 0#32) ∧
    reads 0x64 (BitVec.ofNat 32 s.privBase.1) ∧
    reads 0x65 (BitVec.ofNat 32 (s.privBase.1 / 2 ^ 32)) ∧
    reads 0x66 (c.privcfg.setWidth 32) ∧
    reads 0x67 (s.dev.hmode.setWidth 32) ∧
    reads 0x68 c.fspill0 ∧
    reads 0x69 (c.fspill1.setWidth 32) ∧
    reads 0x6a c.fspcap ∧
    reads 0x6c (k.preempt.setWidth 32) ∧
    reads 0x6d k.pesave0 ∧
    reads 0x6e (k.pesave1.setWidth 32) ∧
    reads 0x6f (BitVec.ofNat 32 (s.dev.ctxstate.toNat + if s.ctxBusy then 2 ^ 31 else 0)) ∧
    (∀ j, j < 16 → reads (0x70 + j)
      (if k.trsel.toNat < 64 then ((keyFind k.traps k.trsel.toNat).map fun r => r.word s.g.core k.trsel.toNat j).getD 0#32
       else if k.trsel = 64#7 then (head.map fun f => if j < 8 then f.words.getD j 0#32 else if j = 12 then f.action else 0#32).getD 0#32
       else 0#32)) ∧
    (∀ n, (0x1D ≤ n ∧ n ≤ 0x1F) ∨ (0x26 ≤ n ∧ n ≤ 0x2F) ∨ (0x48 ≤ n ∧ n ≤ 0x5E) → reads n (0#32)) ∧
    (∀ k, k < 16 → reads (0x30 + k) ((storeRead s.g.sys.mcset k).setWidth 32)) ∧
    (∀ k, k < 8 → reads (0x40 + k) ((storeRead (s.ctx s.sysCtx).win k).setWidth 32)) ∧
    (let latched := { s with g := { s.g with sys := { s.g.sys with clockhi := BitVec.ofNat 32 (s.clock / 2 ^ 32) } } };
      Completes (exec (.srd 0x10#7 d) s) (ScalarResult [] d (BitVec.ofNat 32 s.clock) latched) ∧
      Completes (exec (.sysClockRead d) s) (ScalarResult [] d (BitVec.ofNat 32 s.clock) latched))

/-- SWR changes the one register its number names, for every number; read-only and unassigned numbers ignore it, a protected one needs supervisor mode. That a context-scoped register is new on every core at once is the model's reading (log 50). -/
def Obligations.SystemRegisterWrites : Prop :=
  ∀ (s : State) (a : BitVec 7),
    let sysIs := fun (y : GroupSys) (t : State) =>
      { t with p := s.p, g := { t.g with sys := s.g.sys } } = s ∧ t.g.sys = y ∧ KeepsRegisters { s with g := { s.g with sys := y } } t ∧ Advances s t
    let coreIs := fun (k : Core) (t : State) => { t with p := s.p, cores := s.cores } = s ∧ KeepsRegisters s t ∧ Advances s t ∧
      ∀ c, t.core c = if c = s.g.core then k else s.core c
    let ctxIs := fun (k : Ctx) (t : State) => { t with p := s.p, ctxs := s.ctxs } = s ∧ KeepsRegisters s t ∧ Advances s t ∧
      ∀ c, t.ctx c = if c = s.sysCtx then k else s.ctx c
    let x := s.readS a
    let c := s.ctx s.sysCtx
    let k := s.core s.g.core
    let swr := fun (n : Nat) => exec (.swr (BitVec.ofNat 7 n) a) s
    (passes { rd := [.s a 1] } s = true →
      Completes (swr 0x9) (sysIs { s.g.sys with faultmask := s.g.sys.faultmask &&& ~~~(s.readS a) }) ∧
      Completes (swr 0xa) (sysIs { s.g.sys with mode := (s.readS a).setWidth 2 }) ∧
      Completes (swr 0xb) (sysIs { s.g.sys with fpflags := (s.readS a).setWidth 5 }) ∧
      Completes (swr 0xc) (sysIs { s.g.sys with fpen := (s.readS a).setWidth 5 }) ∧
      Completes (swr 0xd) (sysIs { s.g.sys with mcap := (s.readS a).setWidth 16 }) ∧
      Completes (swr 0xe) (sysIs { s.g.sys with rngkey0 := s.readS a }) ∧
      Completes (swr 0xf) (sysIs { s.g.sys with rngkey1 := s.readS a }) ∧
      Completes (swr 0x12) (sysIs { s.g.sys with scsel := (s.readS a).setWidth 5 }) ∧
      (∀ j, j < 16 → Completes (swr (0x30 + j)) (sysIs { s.g.sys with mcset := storeWrite s.g.sys.mcset j (x.setWidth 16) })) ∧
      (∀ n, n ≤ 5 ∨ n = 7 ∨ n = 8 ∨ n = 0x10 ∨ n = 0x11 ∨ (0x1D ≤ n ∧ n ≤ 0x20) ∨ (0x26 ≤ n ∧ n ≤ 0x2F) ∨ (0x48 ≤ n ∧ n ≤ 0x5E) ∨ n = 0x61 ∨ n = 0x64 ∨ n = 0x65 →
        Completes (swr n) (Passes s)) ∧
      (∀ j, j < 10 → let e := s.g.sys.scsel.toNat
        (e < 4 → Completes (swr (0x13 + j)) (ctxIs c)) ∧
        (4 ≤ e → ∃ m : BitVec 320, (∀ i, i < 320 → m.getLsbD i = if 32 * j ≤ i ∧ i < 32 * j + 32 then x.getLsbD (i - 32 * j) else (storeRead c.scopes e).getLsbD i) ∧
          Completes (swr (0x13 + j)) (ctxIs { c with scopes := storeWrite c.scopes e m }))) ∧
      Completes (exec (.sysFpflagsWrite a) s) (sysIs { s.g.sys with fpflags := x.setWidth 5 }) ∧
      Completes (exec (.sysFaultmaskClear a) s) (sysIs { s.g.sys with faultmask := s.g.sys.faultmask &&& ~~~x })) ∧
    (passes { rd := [.s a 1], priv := true } s = true →
      Completes (swr 0x21) (sysIs { s.g.sys with privhwm := x }) ∧ Completes (swr 0x5F) (sysIs { s.g.sys with ctxsel := x.setWidth 16 }) ∧
      Completes (swr 0x24) (coreIs { k with tvec := x }) ∧ Completes (swr 0x25) (coreIs { k with preemptLimit := x }) ∧
      Completes (swr 0x60) (coreIs { k with trsel := x.setWidth 7 }) ∧ Completes (swr 0x6B) (coreIs { k with wdlimit := x }) ∧
      Completes (exec (.contextRegisterWrite 0x22#7 a) s) (ctxIs { c with lease := x }) ∧
      Completes (swr 0x22) (ctxIs { c with lease := x }) ∧
      Completes (swr 0x23) (ctxIs { c with orphan := BitVec.ofNat 32 (max 1 (min x.toNat 1000000)) }) ∧
      (∀ j, j < 8 → Completes (swr (0x40 + j)) (ctxIs { c with win := storeWrite c.win j (x.setWidth 16) }) ∧
        Completes (exec (.contextRegisterWrite (BitVec.ofNat 7 (0x40 + j)) a) s) (ctxIs { c with win := storeWrite c.win j (x.setWidth 16) })) ∧
      Completes (swr 0x62) (ctxIs { c with ptroot0 := x }) ∧ Completes (swr 0x63) (ctxIs { c with ptroot1 := x.setWidth 8 }) ∧
      Completes (swr 0x66) (ctxIs { c with privcfg := x.setWidth 21 }) ∧ Completes (swr 0x68) (ctxIs { c with fspill0 := x &&& 0xFFFFFF80#32 }) ∧
      Completes (swr 0x69) (ctxIs { c with fspill1 := x.setWidth 24 }) ∧ Completes (swr 0x6A) (ctxIs { c with fspcap := x }) ∧
      Completes (swr 0x67) (fun t => { t with p := s.p, dev := s.dev } = s ∧ KeepsRegisters s t ∧ Advances s t ∧ t.dev = { s.dev with hmode := x.setWidth 10 }) ∧
      Completes (swr 0x6C) (fun t => { t with p := s.p, cores := s.cores, agenda := s.agenda, nextId := s.nextId } = s ∧ KeepsRegisters s t ∧ Advances s t ∧
        (∀ i, t.core i = if i = s.g.core then { k with preempt := k.preempt ||| x.setWidth 8 } else s.core i) ∧
        Due 1 (.preemptRequest s.g.core (x.setWidth 8)) s t) ∧
      Completes (swr 0x6D) (coreIs { k with pesave0 := x &&& 0xFF000000#32 }) ∧ Completes (swr 0x6E) (coreIs { k with pesave1 := x.setWidth 24 }) ∧
      Completes (swr 0x6F) (fun t => { t with p := s.p, dev := s.dev, agenda := s.agenda, nextId := s.nextId } = s ∧ KeepsRegisters s t ∧ Advances s t ∧
        t.dev = { s.dev with ctxstate := x.setWidth 16 } ∧
        let id := x.toNat % 65536
        let op := x.toNat / 65536 % 4
        (op = 0 → t.agenda = s.agenda) ∧ (op = 1 → Due 1 (.contextSuspend id) s t) ∧ (op = 2 → Due 1 (.contextResume id) s t) ∧
          (op = 3 → Due 1 (.contextMarkFailed id) s t)) ∧
      (∀ j, j < 16 → Completes (swr (0x70 + j)) fun t => { t with p := s.p, cores := s.cores } = s ∧ KeepsRegisters s t ∧ Advances s t ∧ ∀ i,
        { t.core i with traps := [], faults := [] } = { s.core i with traps := [], faults := [] } ∧
        (∀ q, keyFind (t.core i).traps q = (keyFind (s.core i).traps q).map fun r =>
          if i = s.g.core ∧ q = k.trsel.toNat ∧ q < 64 ∧ j = 12 then { r with action := x &&& 0x107#32 }
          else if i = s.g.core ∧ q = k.trsel.toNat ∧ q < 64 ∧ j = 13 then { r with hwmval := x } else r) ∧
        (t.core i).faults = if i = s.g.core ∧ k.trsel = 64#7 ∧ j = 12 then modFirst (fun f => !f.host) (fun f => { f with action := x &&& 0x107#32 }) (s.core i).faults
          else (s.core i).faults)) ∧
    (s.isSup = false → s.g.evaluates = none → s.p.mods = {} →
      ∀ n, (0x21 ≤ n ∧ n ≤ 0x25) ∨ (0x40 ≤ n ∧ n ≤ 0x47) ∨ n = 0x5F ∨ n = 0x60 ∨ n = 0x62 ∨ n = 0x63 ∨ (0x66 ≤ n ∧ n ≤ 0x7F) →
        Completes (swr n) (Trapped cPRIV s))

/-- GANGSET and the write of sys.gang set a gang that passes the five checks of R135, and raise GANGMIS at any other. -/
def Obligations.GangWritesAreChecked : Prop :=
  ∀ (s : State) (a : BitVec 7), passes { rd := [.s a 1] } s = true →
    let m := s.readS a
    let named := laneList.filter (bitOf m)
    let ok := named ≠ [] ∧ named.length ≤ 6 ∧ bitOf m s.g.gid = true ∧ (∀ i ∈ named, i < s.myTeam.groups) ∧
      (1 < named.length → s.g.role = 1#2 ∧ ∀ i ∈ named, s.myTeam.card.roleOf i = 1#2) ∧
      (s.g.role = 1#2 ∨ s.g.role = 3#2)
    ∀ i, i = .gangset a ∨ i = .sysGangWrite a →
      (ok → Completes (exec i s) fun t => { t with p := s.p, g := { t.g with sys := s.g.sys } } = s ∧
        t.g.sys = { s.g.sys with gang := m } ∧ t.p.exec = s.p.exec ∧ t.p.y0 = s.p.y0 ∧ t.p.y1 = s.p.y1 ∧ Advances s t) ∧
      (¬ ok → Completes (exec i s) (Trapped cGANGMIS s))

/-- TRAP, BKPT and an illegal encoding take their trap: registers kept, group stopped, record queued; a supervisor trap halts its core. That work comes up after the stated number of clk is the model's choice (log 7: the typical figure where the spec gives one). -/
def Obligations.TrapsAreTakenAndRecorded : Prop :=
  (∀ (s : State) (n : BitVec 6) (w : BitVec 32),
    let told := fun (t : State) =>
      (s.isSup = true → (t.core s.g.core).halted = true ∧ ∃ r, t.dev.outbox = s.dev.outbox ++ [.trapRecord s.g.core s.g.slot r]) ∧
      (s.isSup = false → (t.core s.g.core).halted = (s.core s.g.core).halted ∧
        ((∃ r, t.dev.outbox = s.dev.outbox ++ [.trapRecord s.g.core s.g.slot r]) ∨ Due 60 (.supervisorEntry s.g.core) s t))
    (passes {} s = true →
      (∀ i c, (i = .trap n ∧ c = cTRAP) ∨ (i = .bkpt n ∧ c = cBKPT) → Completes (exec i s) fun t => Trapped c s t ∧ told t ∧
        ∃ r, keyFind (t.core s.g.core).traps s.g.slot = some r ∧ r.infoA = n.setWidth 32 ∧ r.action = 1#32)) ∧
    (s.g.evaluates = none → Completes (exec (.illegalEncoding w) s) fun t => Trapped cILLEGAL s t ∧ told t ∧
      ∃ r, keyFind (t.core s.g.core).traps s.g.slot = some r ∧ r.action = 3#32 ∧ (s.p.mods.start = none → r.infoA = w))) ∧
  (∀ s : State, passes { priv := true } s = true → Completes (exec .halt s) fun t =>
    { t with p := s.p, cores := s.cores } = s ∧ KeepsRegisters s t ∧ Advances s t ∧
      ∀ c, t.core c = if c = s.g.core then { s.core c with halted := true } else s.core c) ∧
  (∀ s : State, s.isSup = false → s.g.evaluates = none → modxOk {} s.p.mods = true → Completes (exec .halt s) (Trapped cPRIV s))

/-- A parked supervisor starts at sys.tvec with the oldest record; ERET and the host action release a record and let its group go on. That a supervisor enters with the registers, exec among them, that it left is the model's reading (log 12). -/
def Obligations.TrapRecordsAreServed : Prop :=
  (∀ (s : State) (core r : Nat), (s.core core).oldest = some r → (s.core core).halted = false →
    let f := s.focus core supSlot 0
    f.g.trapped = false → f.p.wait = .idle → Completes (exec (.supervisorEntry core) s) fun t => t.g = f.g ∧ t.others = f.others ∧
      t.p.pc = (s.core core).tvec ∧ t.p.exec = f.p.exec ∧ t.p.y0 = f.p.y0 ∧ t.p.y1 = f.p.y1 ∧ t.p.wait = .none ∧
      t.p.inClause = false ∧ t.p.count = 0 ∧ KeepsMemory s t ∧ t.clock = s.clock ∧ t.agenda = s.agenda ∧
      ∀ c, t.core c = if c = core then { s.core c with trsel := BitVec.ofNat 7 r } else s.core c) ∧
  (let goesOn := fun (s : State) (core slot : Nat) (r : TrapRec) (skip : Bool) (t : State) =>
      keyFind (t.core core).traps slot = none ∧ ∀ g, s.group core slot = some g → ∃ h, t.group core slot = some h ∧ h.trapped = false ∧
        h.v = g.v ∧ h.s = g.s ∧ h.sys = g.sys ∧ ∀ q ∈ g.splits, q.idx = r.split → ∃ p ∈ h.splits, p.idx = q.idx ∧
          p.pc = (if skip then g.skip.1 else q.pc) ∧ p.exec = q.exec;
    let parked := fun (s t : State) => t.p.wait = .idle ∧ t.p.pc = s.cur.pc + BitVec.ofNat 32 s.cur.len ∧ t.p.count = s.p.count + 1 ∧
      t.p.live = s.p.live ∧ t.p.idx = 0 ∧ t.p.set = none ∧ t.p.member = 0xFFFFFFFF#32 ∧ t.p.exec = s.p.exec ∧ t.g.splits = [] ∧ t.g.sets = [];
    (∀ s : State, passes { priv := true } s = true → s.isSup = true →
      let k := s.core s.g.core
      (k.selected = false → Completes (exec .eret s) fun t => parked s t ∧ t.g = { s.g with splits := [], sets := [] } ∧
        t.others = s.others ∧ KeepsMemory s t ∧ (∀ r, k.oldest = some r → Due 60 (.supervisorEntry s.g.core) s t)) ∧
      (∀ r, k.trsel.toNat < 64 → k.trsel.toNat ≠ supSlot → s.p.live = true → keyFind k.traps k.trsel.toNat = some r → r.aborted = false → (r.action = 0#32 ∨ r.action = 1#32) →
        (∀ e ∈ k.owed, e.1 ≠ k.trsel.toNat) →
        Completes (exec .eret s) fun t => goesOn s s.g.core k.trsel.toNat r (r.action == 1#32) t ∧ parked s t ∧
          t.g.v = s.g.v ∧ t.g.s = s.g.s ∧ t.g.sys = s.g.sys ∧ KeepsMemory s t)) ∧
    (∀ (s : State) (core slot : Nat) (hwm : BitVec 32) (r : TrapRec) (skip : Bool), slot < 64 →
      (s.g.at core slot = true → ∀ q ∈ s.g.splits, q.idx ≠ s.p.idx) → keyFind (s.core core).traps slot = some r → r.aborted = false →
      (r.host = true → (∀ e ∈ (s.core core).owed, e.1 ≠ slot) → Completes (exec (.hostTrapAction core slot (if skip then 1#32 else 0#32) hwm) s) fun t =>
        goesOn s core slot r skip t ∧ KeepsMemory s t ∧ t.ctxs = s.ctxs ∧ t.clock = s.clock) ∧
      (r.host = false → exec (.hostTrapAction core slot (if skip then 1#32 else 0#32) hwm) s = .next s)))

/-- TLBINV waits for its acknowledgement, which comes when its translations are gone and the loads that used them are back; DHARV gets its count. That work comes up after the stated number of clk is the model's choice (log 7: the typical figure where the spec gives one). That a removed translation goes at every holder in one step is the model's reading (log 9), and so are the loads and the commits that are waited for (log 33). -/
def Obligations.InvalidationAndHarvest : Prop :=
  (∀ (s : State) (a b d : BitVec 7),
    let w := s.readS64 b
    let n := (w.extractLsb' 32 32).toNat
    let waits := fun (t : State) => ∃ id, t.p.wait = .request id ∧ (keyFind t.dev.requests id).isSome = true ∧ t.p.stage = 1 ∧
      t.g.v = s.g.v ∧ t.g.s = s.g.s ∧ t.p.exec = s.p.exec ∧ KeepsMemory s t
    let asks := fun (kind : ReqKind) (clk : Nat) (t : State) => ∃ r, keyFind t.dev.requests s.nextId = some r ∧ r.kind = kind ∧
      r.removed = false ∧ r.lost = false ∧ t.p.wait = .request s.nextId ∧ Due clk (.invalidationAck s.nextId) s t
    (passes { rd := [.s a 2, .s b 2], wr := [.s d 1], priv := true } s = true →
      (s.p.stage = 0 → n = 0 → Completes (exec (.tlbinvRange b a d) s) (ScalarResult [] d 0#32 s)) ∧
      (s.p.stage = 0 → n ≠ 0 → Completes (exec (.tlbinvRange b a d) s) fun t => waits t ∧
        asks (.invalidate (w.extractLsb' 0 16).toNat (w.extractLsb' 16 16).toNat ((s.readS64 a).toNat / 65536) n)
          (3500 + 1750 * (n / 65536)) t) ∧
      (s.p.stage ≠ 0 → ∀ v, s.p.reply = some v → (d ≠ 125#7 ∨ BitVec.ofNat 32 v = 0#32) →
        Completes (exec (.tlbinvRange b a d) s) (ScalarResult [] d (BitVec.ofNat 32 v) s)) ∧
      (s.p.stage ≠ 0 → ∀ v, s.p.reply = some v → d = 125#7 → BitVec.ofNat 32 v ≠ 0#32 →
        Completes (exec (.tlbinvRange b a d) s) (Trapped cINVALFAIL s)) ∧
      (s.p.stage = 0 → Completes (exec (.dharv b a d) s) waits) ∧
      (s.p.stage ≠ 0 → ∀ v, s.p.reply = some v → Completes (exec (.dharv b a d) s) (ScalarResult [] d (BitVec.ofNat 32 v) s))) ∧
    (passes { rd := [.s a 1], wr := [.s d 1], priv := true } s = true →
      (s.p.stage = 0 → Completes (exec (.tlbinvCtx a d) s) fun t => waits t ∧
        asks (.invalidateCtx ((s.readS a).toNat % 65536) ((s.readS a).getLsbD 16)) 3500 t) ∧
      (s.p.stage ≠ 0 → ∀ v, s.p.reply = some v → (d ≠ 125#7 ∨ BitVec.ofNat 32 v = 0#32) →
        Completes (exec (.tlbinvCtx a d) s) (ScalarResult [] d (BitVec.ofNat 32 v) s)) ∧
      (s.p.stage ≠ 0 → ∀ v, s.p.reply = some v → d = 125#7 → BitVec.ofNat 32 v ≠ 0#32 →
        Completes (exec (.tlbinvCtx a d) s) (Trapped cINVALFAIL s))) ∧
    (s.isSup = false → s.g.evaluates = none → s.p.mods = {} →
      Completes (exec (.tlbinvRange b a d) s) (Trapped cPRIV s) ∧ Completes (exec (.tlbinvCtx a d) s) (Trapped cPRIV s) ∧
      Completes (exec (.dharv b a d) s) (Trapped cPRIV s))) ∧
  (∀ (s : State) (req ctx pages : Nat) (va : BitVec 80) (r : Request),
    let answered := fun (t : State) => keyFind t.dev.requests req = none ∧
      (r.core = 320 → t.dev.outbox = s.dev.outbox ++ [.shootdownStatus (if r.lost then 20 else 0)])
    let gone := fun (p : Tlb → Bool) (t : State) =>
      (∀ c, ∀ e ∈ (t.core c).tlb, p e = false) ∧ (∀ e ∈ t.dev.tlb2, ∀ x ∈ e.2, p x = false) ∧ t.dev.walkCache = []
    let ends := fun (u : State) (q : Request) (t : State) => if u.quiet q then answered t else
      Due 20 (.invalidationAck req) s t ∧ keyFind t.dev.requests req = some q
    (∀ p, keyFind s.dev.requests req = some r → r.kind.removes = some p →
      (r.removed = true → Completes (exec (.invalidationAck req) s) fun t => ends s r t ∧ KeepsMemory s t) ∧
      (r.removed = false → Completes (exec (.invalidationAck req) s) fun t => KeepsMemory s t ∧ gone p t ∧
        ends (s.removal r p).1 (s.removal r p).2 t)) ∧
    (∀ c win page n p, r.kind = .invalidate c win page n → n ≠ 0 → r.kind.removes = some p →
      ∀ e : Tlb, p e = true ↔ (e.global = true ∨ e.ctx = c) ∧ e.overlaps win page n = true) ∧
    (∀ c all p, r.kind = .invalidateCtx c all → r.kind.removes = some p →
      ∀ e : Tlb, p e = true ↔ (all = true ∨ (e.global = false ∧ e.ctx = c))) ∧
    (∀ c v n, keyFind s.dev.requests req = some r → r.kind = .harvest c v n → Completes (exec (.dirtyHarvestComplete req) s) fun t =>
      let h := s.harvest c (v / 2 ^ 64) n (v % 2 ^ 64 / 65536) n r.count
      KeepsPads s t ∧ t.ctxs = s.ctxs ∧ t.clock = s.clock ∧
        (∀ w, storeRead t.mem w ≠ storeRead s.mem w → storeRead t.mem w = storeRead s.mem w ||| 0x40#8) ∧
        (h.rest = none → keyFind t.dev.requests req = none ∧
          (r.core = 320 → t.dev.outbox = s.dev.outbox ++ [.harvestCount h.count])) ∧
        (∀ page m clk, h.rest = some (page, m, clk) → Due clk (.dirtyHarvestComplete req) s t ∧
          ∃ q, keyFind t.dev.requests req = some q ∧ q.count = h.count ∧
            q.kind = .harvest c (v / 2 ^ 64 * 2 ^ 64 + page % 2 ^ 48 * 65536) m)) ∧
    (s.dev.hmode.getLsbD 4 = false → exec (.shootdownRequest ctx va pages) s = .next s) ∧
    (s.dev.hmode.getLsbD 5 = false → exec (.harvestRequest ctx va pages) s = .next s) ∧
    (s.dev.hmode.getLsbD 4 = true → Completes (exec (.shootdownRequest ctx va pages) s) fun t => KeepsMemory s t ∧
      (∃ q, keyFind t.dev.requests s.nextId = some q ∧ q.core = 320 ∧ q.kind = .invalidate ctx (va.toNat / 2 ^ 64) (va.toNat % 2 ^ 64 / 65536) pages) ∧
      Due (3500 + 1750 * (pages / 65536)) (.invalidationAck s.nextId) s t) ∧
    (s.dev.hmode.getLsbD 5 = true → Completes (exec (.harvestRequest ctx va pages) s) fun t => KeepsMemory s t ∧
      (∃ q, keyFind t.dev.requests s.nextId = some q ∧ q.core = 320 ∧ q.kind = .harvest ctx va.toNat pages) ∧
      Due (300 * ((pages + 63) / 64) + 1) (.dirtyHarvestComplete s.nextId) s t))

/-- Contexts are suspended, resumed and marked failed; cores are halted and let go on; memory and registers stay as they are. That work comes up after the stated number of clk is the model's choice (log 7: the typical figure where the spec gives one). What a debug resume does with a supervisor's own record is the model's reading (log 13). -/
def Obligations.ContextsAndCoresChangeState : Prop :=
  ∀ (s : State) (ctx core : Nat),
    ((s.ctx ctx).suspended = false → Completes (exec (.contextSuspend ctx) s) fun t =>
      (∀ c, t.ctx c = if c = ctx then { s.ctx ctx with suspended := true } else s.ctx c) ∧ KeepsMemory s t ∧ t.others = s.others ∧
        t.g = s.g ∧ t.p = s.p ∧ t.agenda = s.agenda) ∧
    ((s.ctx ctx).suspended = true → exec (.contextSuspend ctx) s = .next s) ∧
    ((s.ctx ctx).suspended = true → Completes (exec (.contextResume ctx) s) fun t =>
      (∀ c, t.ctx c = if c = ctx then { s.ctx ctx with suspended := false } else s.ctx c) ∧ KeepsMemory s t ∧ t.others = s.others ∧
        t.g = s.g ∧ t.p = s.p ∧ Due 1 (.teamPlacement 0) s t ∧ Due 1 (.teamPlacement 1) s t) ∧
    ((s.ctx ctx).suspended = false → exec (.contextResume ctx) s = .next s) ∧
    Completes (exec (.contextMarkFailed ctx) s) (fun t => (t.ctx ctx).failed = true ∧ KeepsMemory s t) ∧
    Completes (exec (.debugHalt core) s) (fun t => { t with cores := s.cores } = s ∧
      ∀ c, t.core c = if c = core then { s.core c with halted := true } else s.core c) ∧
    (keyFind (s.core core).traps supSlot = none → Completes (exec (.debugResume core) s) fun t =>
      { t with cores := s.cores, agenda := s.agenda, nextId := s.nextId } = s ∧
      (∀ c, t.core c = if c = core then { s.core c with halted := false } else s.core c) ∧
      ((s.core core).oldest.isSome = true → Due 60 (.supervisorEntry core) s t))

/-- A pre-emption asks the cluster to stop, saves it when it has, and aborts it after the limit; the watchdog stops a team that issues nothing. That work comes up after the stated number of clk is the model's choice (log 7: the typical figure where the spec gives one). What a save waits for and which granules it keeps are the model's readings (log 53), and so is the place that WATCHDOG and PREEMPT name (log 54). -/
def Obligations.PreemptionAndWatchdog : Prop :=
  (∀ (s : State) (core tslot t : Nat) (tm : Team) (c : Cluster), tslot < 8 →
    let heard := s.dev.hmode.getLsbD 7 = true ∨ (s.core core).preempt.getLsbD tslot = true
    (¬ heard → Completes (exec (.preemptRequest core (1#8 <<< tslot)) s) fun u =>
      { u with cores := s.cores } = s ∧ ∀ c, u.core c = s.core c) ∧
    (heard → s.teamAt core tslot = none → Completes (exec (.preemptRequest core (1#8 <<< tslot)) s) fun u =>
      (u.core core).preempt.getLsbD tslot = false ∧ KeepsMemory s u ∧ u.dev = s.dev ∧ u.agenda = s.agenda) ∧
    (s.teamAt core tslot = some (t, tm) → keyFind s.dev.clusters tm.cluster = some c → c.aborted = false → tm.ending = false →
      (heard → c.preempt = none → Completes (exec (.preemptRequest core (1#8 <<< tslot)) s) fun u =>
        (∃ k, keyFind u.dev.clusters tm.cluster = some k ∧ k.preempt = some (s.clock, c.teams.map s.saveBlock) ∧ k.teams = c.teams) ∧
        (u.core core).preempt.getLsbD tslot = true ∧ Due 16 (.preemptSave core tslot) s u ∧
        Due (s.core core).preemptLimit.toNat (.preemptLimitExpiry core tslot) s u ∧ KeepsMemory s u) ∧
      (∀ since blocks gr, c.preempt = some (since, blocks) → keyFind s.dev.grids tm.grid = some gr →
        let gs := s.clusterGroups t
        let stopped := gs ≠ [] ∧ (∀ g ∈ gs, g.atSafePoint = true ∧ g.trapped = false ∧ (∀ o ∈ g.ops, o.done = true ∨ s.inBackoff o.id = true) ∧
            ∀ q ∈ g.splits, q.pushing = []) ∧
          ∀ u ∈ c.teams, s.engineBusy u = false ∧ s.slotsBusy u = false
        (¬ stopped → Completes (exec (.preemptSave core tslot) s) fun u => Due 16 (.preemptSave core tslot) s u ∧
          { u with agenda := s.agenda, nextId := s.nextId } = s) ∧
        (stopped → Completes (exec (.preemptSave core tslot) s) fun u =>
          (∃ q, keyFind u.dev.queues (dieQueue (dieOf core)) = some q ∧ ∃ e ∈ q, e.grid = tm.grid ∧ e.card = gr.task.card ∧
            e.saved.length = ((c.teams.zip blocks).filter fun x =>
              (keyFind s.dev.teams x.1).isSome && !(s.team x.1).ending).length) ∧
          ∀ a, (∀ b ∈ blocks, a < b ∨ b + 2 ^ 21 ≤ a) → storeRead u.mem a = storeRead s.mem a) ∧
        (s.clock < since + (s.core core).preemptLimit.toNat → Completes (exec (.preemptLimitExpiry core tslot) s) fun u =>
          Due (since + (s.core core).preemptLimit.toNat - s.clock) (.preemptLimitExpiry core tslot) s u ∧
          { u with agenda := s.agenda, nextId := s.nextId } = s) ∧
        (since + (s.core core).preemptLimit.toNat ≤ s.clock → (∃ g ∈ gs, g.atSafePoint = false) → s.nonRestart t = false →
          exec (.preemptLimitExpiry core tslot) s = .next ((s.abortTask t).requeue t))))) ∧
  (∀ (s : State) (team : Nat) (tm : Team), keyFind s.dev.teams team = some tm → tm.ending = false → s.paused tm = false →
    let n := (s.core tm.core).wdlimit.toNat
    0 < n →
    (s.clock < tm.lastIssue + n → Completes (exec (.watchdog team) s) fun u =>
      Due (tm.lastIssue + n - s.clock) (.watchdog team) s u ∧ { u with agenda := s.agenda, nextId := s.nextId } = s) ∧
    (tm.lastIssue + n ≤ s.clock → ∀ g h q, lowestGroup (s.teamGroups team) = some g → keyFind (s.core g.core).traps g.slot = none →
      (∀ e ∈ (s.core g.core).owed, e.1 ≠ g.slot) → s.group g.core g.slot = some h → h.movers.head?.or h.splits.head? = some q →
      Completes (exec (.watchdog team) s) fun u => (∃ r, keyFind (u.core g.core).traps g.slot = some r ∧ r.cause = cWATCHDOG ∧
        r.infoA = BitVec.ofNat 32 tm.tslot ∧ r.split = q.idx ∧ r.action = 3#32) ∧ KeepsMemory s u ∧ Due n (.watchdog team) s u))

/-- A completed operation writes its registers and is credited; promotions, sleep expiries and lapses change their one mark. That work comes up after the stated number of clk is the model's choice (log 7: the typical figure where the spec gives one). -/
def Obligations.CompletionsLand : Prop :=
  (∀ (s : State) (core slot op : Nat),
    let i := fun (flag : Bool) => if flag then Instr.flagOperationComplete core slot op else Instr.globalLoadReturn core slot op
    ((∀ g, s.group core slot = some g → g.op op = none) → (∀ e ∈ (s.core core).late, e.2.id ≠ op) → ∀ f, exec (i f) s = .next s) ∧
    (∀ g o f, s.group core slot = some g → g.op op = some o → o.returned.isSome = true → exec (i f) s = .next s) ∧
    (∀ g o f, s.group core slot = some g → g.op op = some o → o.act = none → o.returned = none → s.cardingBehind core slot op = false →
      (o.writes.q = [] → Completes (exec (i f) s) fun t => KeepsMemory s t ∧ Sees t core slot fun h =>
        h.v = (applyWrites g o.writes).v ∧ h.s = (applyWrites g o.writes).s ∧
        h.sys = { g.sys with fpflags := g.sys.fpflags ||| o.writes.fl } ∧ (∀ x ∈ h.ops, x.id = op → x.done = true) ∧
        ∀ n m st, o.writes.v = [(n, m, st)] → ∀ r l, l < 32 →
          storeRead h.v (32 * r + l) = if r = n ∧ bitOf m l = true then storeRead st l else storeRead g.v (32 * r + l)) ∧
      (o.writes.q ≠ [] → Completes (exec (i f) s) fun t => KeepsMemory s t ∧ QueuesAre t (fun c q => (s.core c).queue q) ∧
        Sees t core slot fun h => h.v = g.v ∧ h.s = g.s ∧ h.sys = g.sys ∧
          ∃ x ∈ h.ops, x.id = op ∧ x.returned = some s.clock ∧ x.done = false ∧ x.writes = o.writes)) ∧
    (∀ g o q e key, s.group core slot = some g → g.op op = some o → o.writes.q = [(q, e)] →
      let t := s.accept { key := key, core := core, slot := slot, op := some op, split := 0 }
      KeepsMemory s t ∧ QueuesAre t (fun c k => if c = core ∧ k = q ∧ ((s.core core).queue q).length < queueDepth then (s.core c).queue k ++ [e]
          else (s.core c).queue k) ∧
        (((s.core core).queue q).length < queueDepth → Sees t core slot fun h => h.v = (applyWrites g o.writes).v ∧
          h.s = (applyWrites g o.writes).s ∧ ∀ x ∈ h.ops, x.id = op → x.done = true) ∧
        (queueDepth ≤ ((s.core core).queue q).length → Sees t core slot fun h => h.v = g.v ∧ h.s = g.s ∧ h.sys = g.sys ∧
          ∃ x ∈ h.ops, x.id = op ∧ x.done = false ∧ x.returned = o.returned ∧ x.writes.q = [(q, e)])) ∧
    (∀ g o m tm r, s.group core slot = some g → g.op op = some o → o.returned = none → o.act = some (.serve m) → s.cardingBehind core slot op = false →
      o.writes.q = [] → keyFind s.dev.teams g.team = some tm → keyFind tm.maps m = some r →
      Completes (exec (i true) s) fun t => keyFind (t.team g.team).maps m = some { r with serving := !r.closing } ∧ KeepsMemory s t)) ∧
  (∀ (s : State) (core slot split line : Nat) (g : Group), s.group core slot = some g → (∀ q ∈ g.splits, q.live = true) →
    (∀ q ∈ g.splits, q.idx = split → Completes (exec (.splitPromotion core slot split) s) fun t => KeepsMemory s t ∧
      Sees t core slot fun h => h.v = g.v ∧ h.s = g.s ∧ ∃ p ∈ h.splits, p.idx = split ∧ p.promoted = true) ∧
    (∀ q ∈ g.splits, q.idx = split → (∀ p ∈ g.splits, p.idx = split → p = q) →
      Completes (exec (.sleepExpiry core slot split) s) fun t => KeepsMemory s t ∧ Sees t core slot fun h => h.v = g.v ∧ h.s = g.s ∧
        ∃ p ∈ h.splits, p.idx = split ∧ p.pc = q.pc ∧
          ((∃ c, q.wait = .sleep c ∧ c ≤ s.clock) → p.wait = .none ∧ p.readyTime = s.clock) ∧
          ((∀ c, q.wait = .sleep c → s.clock < c) → p.wait = q.wait))) ∧
  (∀ (s : State) (line : Nat), Completes (exec (.reservationLapse line) s) fun t => { t with dev := s.dev } = s ∧
    t.dev = { s.dev with reservations := s.dev.reservations.filter fun r => !(r.1 == line && decide (r.2.2.2 ≤ s.clock)) })

/-- A commit publishes its stored bytes and no others when its reads still hold, and publishes nothing when they do not. That work comes up after the stated number of clk is the model's choice (log 7: the typical figure where the spec gives one). That what must wait is looked at again after a number of clk is the model's choice (log 2, log 7). The validity of slice registers' lines is the model's reading (log 55). -/
def Obligations.CommitsPublishOrFail : Prop :=
  (∀ (s : State) (core slot idx : Nat) (g : Group) (cap : Bool), s.group core slot = some g → g.region.committing = some idx →
    g.region.acting = false →
    let i := if cap then Instr.capacityCommit core slot else Instr.regionCommit core slot
    (s.commitWaits g = true →
      Completes (exec i s) (LooksAgain 16 (if cap then .capacityCommit core slot else .regionCommit core slot) s)) ∧
    (s.commitWaits g = false → g.live = true → g.evaluates = none → (∃ q ∈ g.splits, q.idx = idx ∧ q.live = true) →
      (∃ e, (e ∈ g.region.stores ∨ e ∈ g.region.reads) ∧ e.1 ∈ s.dev.poisoned) → Completes (exec i s) fun t => KeepsMemory s t ∧
        Sees t core slot fun h => h.trapped = true ∧ h.v = g.v ∧ h.s = g.s ∧ h.region = { g.region with committing := none }) ∧
    (s.commitWaits g = false → g.region.marked = [] → (∀ q ∈ g.splits, q.stale = false) →
      (∀ e, e ∈ g.region.stores ∨ e ∈ g.region.reads → e.1 ∉ s.dev.poisoned) →
      ((∃ e ∈ g.region.reads, validLine s e = false) → Completes (exec i s) fun t => KeepsMemory s t ∧ Sees t core slot fun h =>
        h.v = g.v ∧ h.s = g.s ∧ h.sys = g.sys ∧ h.region.stores = [] ∧ h.region.reads = [] ∧ h.region.fails = g.region.fails + 1) ∧
      ((∀ e ∈ g.region.reads, validLine s e = true) → g.region.depdecs = [] → g.region.drops = [] → g.region.held = [] →
        Completes (exec i s) fun t => KeepsPads s t ∧
          (∀ a, (∀ e ∈ g.region.stores, a / 128 ≠ e.1) → storeRead t.mem a = storeRead s.mem a) ∧
          (∀ e ∈ g.region.stores, isMmio (128 * e.1) = false → (∀ f ∈ g.region.stores, f ≠ e → f.1 ≠ e.1) → ∀ j, j < 128 →
            storeRead t.mem (128 * e.1 + j) = if e.2.has j then storeRead e.2.bytes j else storeRead s.mem (128 * e.1 + j)) ∧
          Sees t core slot fun h => h.v = g.v ∧ h.s = g.s ∧ h.sys = g.sys ∧ h.region.stores = [] ∧ h.region.reads = [] ∧
            (∀ o ∈ h.ops, o.inRegion = false) ∧ h.region.acting = !cap))) ∧
  (∀ (s : State) (core slot op : Nat) (g : Group) (o : Async) (a : Atomic), s.group core slot = some g → g.op op = some o →
    o.atomic = some a →
    (∀ f, o.origin = some f → ∀ e ∈ f.places, ∀ pa b, e.place = .pa pa b → lineOf pa ∉ s.dev.poisoned) →
    let blocked := fun (e : Nat × Nat × Nat × Nat) => s.ownedLine (lineOf e.2.1) || s.reservedElse core slot (lineOf e.2.1)
    ((∃ e ∈ a.lanes, blocked e = true) → Completes (exec (.atomicCommit core slot op) s) (LooksAgain 20 (.atomicCommit core slot op) s)) ∧
    ((∀ e ∈ a.lanes, blocked e = false) → 0 < a.size → (∀ e ∈ a.lanes, e.2.1 % a.size = 0) →
      Completes (exec (.atomicCommit core slot op) s) fun t => KeepsPads s t ∧
        (∀ x, (∀ e ∈ a.lanes, x < e.2.1 ∨ e.2.1 + a.size ≤ x) → storeRead t.mem x = storeRead s.mem x) ∧
        (∀ e ∈ a.lanes, isMmio e.2.1 = false → readBytes t.mem e.2.1 a.size =
          (aggregate a.op (8 * a.size) (readBytes s.mem e.2.1 a.size)
            ((a.lanes.filter fun f => f.2.1 == e.2.1).map fun f => (f.1, f.2.2.1, f.2.2.2))).2.1 % 256 ^ a.size) ∧
        (o.path ≠ some 1 → Due 20 (.globalLoadReturn core slot op) s t)))

/-- SPMAP arms a map, SPWB and SPUNMAP begin its write-back, a line fill brings its bytes in, a peer access acts on its target only. That work comes up after the stated number of clk is the model's choice (log 7: the typical figure where the spec gives one). That what must wait is looked at again after a number of clk is the model's choice (log 2, log 7). What a bad SPMAP raises is the model's reading (log 15), and a peer access to a team that has ended takes free values (log 35). -/
def Obligations.MapsAndPeerAccesses : Prop :=
  (∀ (s : State) (size va ctl a : BitVec 7) (tm : Team), keyFind s.dev.teams s.g.team = some tm →
    let c := s.readS ctl
    let m := (c.extractLsb' 0 2).toNat
    let off := (c.extractLsb' 12 20).toNat * 4096
    let n := (s.readS size).toNat * 4096
    let armed := ((s.dev.teams.filter fun e => e.2.core == s.g.core).map fun e => e.2.maps.length).sum
    let ok := (s.readS64 va).toNat % 128 = 0 ∧ 0 < n ∧ n ≤ 64 * 4096 ∧ c.extractLsb' 7 5 = 0#5 ∧ off + n ≤ tm.spsize ∧
      (∀ e ∈ tm.tables, rangesMeet off n e.2.off e.2.size = false) ∧ (∀ e ∈ tm.maps, rangesMeet off n e.2.off e.2.size = false) ∧
      keyFind tm.maps m = none ∧ armed < 8
    (passes { rd := [.s ctl 1, .s va 2, .s size 1], modx := { flag := true } } s = true →
      (ok → Completes (exec (.spmap size va ctl) s) fun t => KeepsMemory s t ∧ OnlyIssues s t ∧
        InFlight { id := 0, flag := s.flagTarget, path := none, act := some (.serve m) } s.nextId s t ∧
        Due 16 (.flagOperationComplete s.g.core s.g.slot s.nextId) s t ∧
        keyFind (t.team s.g.team).maps m = some { off := off, size := n, ro := c.getLsbD 3, nofill := c.getLsbD 2, va := (s.win (c.extractLsb' 4 3).toNat).toNat * 2 ^ 64 + (s.readS64 va).toNat }) ∧
      (¬ ok → Completes (exec (.spmap size va ctl) s) (Trapped cSPBOUND s))) ∧
    (passes { rd := [.s a 1], modx := { flag := true } } s = true → settled s = true →
      let k := ((s.readS a).extractLsb' 0 2).toNat
      Completes (exec (.spwb a) s) (fun t => KeepsMemory s t ∧ OnlyIssues s t ∧ (∀ n, n ≠ s.g.team → t.team n = s.team n) ∧
        (∀ r, keyFind tm.maps k = some r → keyFind (t.team s.g.team).maps k = some r.startWb) ∧
        InFlight { id := 0, flag := s.flagTarget, path := none, act := some (.writeBack k false s.p.idx s.cur.pc) } s.nextId s t) ∧
      Completes (exec (.spunmap a) s) (fun t => KeepsMemory s t ∧ OnlyIssues s t ∧
        InFlight { id := 0, flag := s.flagTarget, path := none, act := some (.writeBack k true s.p.idx s.cur.pc) } s.nextId s t ∧
        ∀ r, keyFind tm.maps k = some r → keyFind (t.team s.g.team).maps k = some { r.startWb with closing := true, serving := false }))) ∧
  (∀ (s : State) (team map line : Nat) (r : MapRegion), keyFind (s.team team).maps map = some r → r.filled.contains line = false →
    let at_ := (s.team team).spbase + r.off + 128 * line
    let fills := fun (u : State) (b : Nat → Byte) (t : State) => KeepsGlobal u t ∧
      (∃ q, keyFind (t.team team).maps map = some q ∧ q.filled = line :: r.filled) ∧
      ∀ c x, storeRead (t.core c).spad x =
        if c = (s.team team).core ∧ at_ ≤ x ∧ x < at_ + 128 then b (x - at_) else storeRead (u.core c).spad x
    (r.nofill = true → Completes (exec (.lineFill team map line) s) (fills s fun _ => 0#8)) ∧
    (r.nofill = false → ∀ u pa, s.engineAt (s.team team).core (s.team team).ctx (r.va + 128 * line) accR (fun _ => false) = .ok u pa →
      keyFind (u.team team).maps map = some r → Completes (exec (.lineFill team map line) s) (fills u fun j => u.phys (pa + j)))) ∧
  (∀ (s : State) (msg : Nat) (m : PeerAccess), keyFind s.dev.peers msg = some m →
    let earlier := s.dev.peers.any fun e => decide (e.1 < msg) && e.2.core == m.core && e.2.slot == m.slot && e.2.team == m.team
    (earlier = true → Completes (exec (.peerScratchpadAccess msg) s) (LooksAgain 1 (.peerScratchpadAccess msg) s)) ∧
    (earlier = false → Completes (exec (.peerScratchpadAccess msg) s) fun t => KeepsGlobal s t ∧ keyFind t.dev.peers msg = none ∧
      (m.kind = 1 ∨ keyFind s.dev.teams m.team = none → KeepsPads s t) ∧
      (∀ l, m.kind = 0 → (keyFind s.dev.teams m.team).isSome = true → m.lanes = [l] → ∀ c x, storeRead (t.core c).spad x =
        storeRead (if c = (s.team m.team).core then writeBytes (s.core c).spad ((s.team m.team).spbase + l.2.1) m.size l.2.2.1
          else (s.core c).spad) x) ∧
      ((∀ e ∈ s.dev.peers, e.1 ≠ msg → ¬ (e.2.op = m.op ∧ e.2.core = m.core ∧ e.2.slot = m.slot)) →
        ∃ clk, Due clk (.flagOperationComplete m.core m.slot m.op) s t)))

/-- The carding instructions issue the statuses and values of their lanes, and stop where a table, a run or an offset is wrong. That work comes up after the stated number of clk is the model's choice (log 7: the typical figure where the spec gives one). -/
def Obligations.CardingInstructions : Prop :=
  (∀ (s : State) (f2 t : BitVec 2) (f1 : BitVec 1) (a d : BitVec 8),
    let free := s.cardingHeld s.g.core = false ∨ (s.core s.g.core).carding = some (s.g.slot, s.p.idx)
    let table := (s.table s.g.team t.toNat).filter CardTable.claimed
    let card := fun (op : Nat) (opt nv : Bool) (out : Out) => passes { modx := { flag := true } } s = true →
      (table = none → Completes out (Trapped cSPBOUND s)) ∧
      (∀ c, table = some c →
        let kn := c.keyBytes / 4
        let vn := c.valBytes / 4
        let regs := if nv then [vn] else List.range (vn + 1)
        ((cardRun a kn (kn == 2) && cardRun d (vn + 1) (vn == 2)) = false → Completes out (Trapped cILLEGAL s)) ∧
        ((cardRun a kn (kn == 2) && cardRun d (vn + 1) (vn == 2)) = true →
          passes { rd := [.v a kn], wr := [.v d (vn + 1)], modx := { flag := true } } s = true → free →
          ∀ l u, s.cardLanes op s.g.team t.toNat opt (s.dataOf a kn) (s.dataOf d vn) s.active s.active = .ok l u →
            Completes out fun w => ∃ o, w.g.ops = u.g.ops ++ [o] ∧ o.flag = u.flagTarget ∧ o.vdst = regs.map (d.toNat + ·) ∧
              w.g.v = u.g.v ∧ w.g.s = u.g.s ∧ w.mem = u.mem ∧ (∀ c, (w.core c).spad = (u.core c).spad) ∧
              o.writes.v.map (fun e => (e.1, e.2.1)) = regs.map (fun r => (d.toNat + r, u.p.exec)) ∧
              ∀ e ∈ o.writes.v, ∀ x, l = [x] → storeRead e.2.2 x.1 =
                if e.1 = d.toNat + vn then BitVec.ofNat 32 x.2.status else BitVec.ofNat 32 (x.2.out / 2 ^ (32 * (e.1 - d.toNat)))))
    card 0 (f2.getLsbD 1) (f2.getLsbD 0) (exec (.ctins f2 t a d) s) ∧ card 1 (false) (f1.getLsbD 0) (exec (.ctprb f1 t a d) s) ∧
    card 2 (false) (f1.getLsbD 0) (exec (.ctdel f1 t a d) s) ∧ card 3 (f2.getLsbD 1) (f2.getLsbD 0) (exec (.ctacc f2 t a d) s)) ∧
  (∀ (s : State) (a b c d : BitVec 7), s.cardingHeld s.g.core = false → 
    let issues := fun (clk : Nat) (w : List (Nat × Word)) (sdst : List Nat) (t : State) =>
      (∃ o, t.g.ops = s.g.ops ++ [o] ∧ o.flag = s.flagTarget ∧ o.writes.s = w ∧ o.sdst = sdst ∧ o.writes.v = []) ∧
        Due clk (.flagOperationComplete s.g.core s.g.slot s.nextId) s t ∧ KeepsGlobal s t ∧ OnlyIssues s t
    (passes { rd := [.s a 1], wr := [.s d 1], modx := { flag := true } } s = true →
      (s.ownBounds (s.readS a).toNat 32 = false → Completes (exec (.ctinit d a) s) (Trapped cSPBOUND s)) ∧
      (s.ownBounds (s.readS a).toNat 32 = true → (s.readS a).toNat % 32 ≠ 0 → Completes (exec (.ctinit d a) s) (Trapped cMISALIGN s)) ∧
      (s.ownBounds (s.readS a).toNat 32 = true → (s.readS a).toNat % 32 = 0 → d.toNat < 124 →
        ∀ st x, s.cardClaim (s.teamRead s.g.team (s.readS a).toNat 32) = (st, x) →
          Completes (exec (.ctinit d a) s) fun t => (∃ clk, issues clk [(d.toNat, BitVec.ofNat 32 st)] [d.toNat] t) ∧ KeepsPads s t ∧
            (x = none → t.dev = s.dev) ∧ (∀ k y tm, x = some (k, y) → keyFind s.dev.teams s.g.team = some tm →
              keyFind (t.team s.g.team).tables k = some y))) ∧
    (passes { rd := [.s a 1], modx := { flag := true } } s = true → Completes (exec (.ctfree a) s) fun t => issues 12 [] [] t ∧
      KeepsPads s t ∧ ∀ tm, keyFind s.dev.teams s.g.team = some tm →
        ((s.table s.g.team ((s.readS a).extractLsb' 0 2).toNat).filter CardTable.claimed).isSome = true →
        keyFind (t.team s.g.team).tables ((s.readS a).extractLsb' 0 2).toNat = none) ∧
    (passes { rd := [.s a 1], wr := [.s d 3], modx := { flag := true } } s = true → s.p.carded = {} →
      let x := (s.table s.g.team ((s.readS a).extractLsb' 0 2).toNat).filter CardTable.claimed
      let is := fun (n m k : Nat) (t : State) => KeepsPads s t ∧ ∃ clk, issues clk
        [(d.toNat, BitVec.ofNat 32 n), (d.toNat + 1, BitVec.ofNat 32 m), (d.toNat + 2, BitVec.ofNat 32 k)]
        [d.toNat, d.toNat + 1, d.toNat + 2] t
      (x = none → Completes (exec (.ctstat d a) s) (is 0 0 0)) ∧
      (∀ y, x = some y → y.count = 0 → Completes (exec (.ctstat d a) s)
        (is (y.slots.filter fun e => e.2 == 1#8).length 0 (y.slots.filter fun e => e.2 == 2#8).length))) ∧
    (passes { rd := [.s c 1, .s b 1, .s d 1], wr := [.s d 1], modx := { flag := true } } s = true → s.p.carded = {} →
      let n := ((s.readS c).extractLsb' 16 16).toNat
      let off := (s.readS b).toNat
      (s.ownBounds off (16 * n) = false → Completes (exec (.ctdrain d b c) s) (Trapped cSPBOUND s)) ∧
      (s.ownBounds off (16 * n) = true → off % 16 = 0 →
        ((s.readS d).getLsbD 31 = true → Completes (exec (.ctdrain d b c) s) fun t => KeepsPads s t ∧
          issues 30 [(d.toNat, s.readS d)] [d.toNat] t) ∧
        ((s.readS d).getLsbD 31 = false → (s.table s.g.team ((s.readS c).extractLsb' 0 2).toNat).filter CardTable.claimed = none →
          Completes (exec (.ctdrain d b c) s) fun t => KeepsPads s t ∧
            issues 30 [(d.toNat, s.readS d ||| 0x80000000#32)] [d.toNat] t) ∧
        ((s.readS d).getLsbD 31 = false → ∀ y, (s.table s.g.team ((s.readS c).extractLsb' 0 2).toNat).filter CardTable.claimed = some y →
          y.count = 0 → Completes (exec (.ctdrain d b c) s) fun t =>
            let all := drainSort (s.fullSlots s.g.team y)
            let l := (all.drop (s.readS d).toNat).take n
            let next := (s.readS d).toNat + l.length
            let at_ := s.myTeam.spbase + off
            issues (30 + 2 * l.length) [(d.toNat, BitVec.ofNat 32 (next % 2 ^ 31) |||
              if all.length ≤ next then 0x80000000#32 else 0#32)] [d.toNat] t ∧
            (∀ i e, l[i]? = some e → readBytes (t.core s.myTeam.core).spad (at_ + 16 * i) 8 = e.2.1 % 256 ^ 8 ∧
              readBytes (t.core s.myTeam.core).spad (at_ + 16 * i + 8) 8 = e.2.2 % 256 ^ 8) ∧
            ∀ k x, (k = s.myTeam.core → x < at_ ∨ at_ + 16 * l.length ≤ x) →
              storeRead (t.core k).spad x = storeRead (s.core k).spad x)))) ∧
  (∀ l : List (Nat × Nat × Nat), (drainSort l).Perm l ∧
    (drainSort l).Pairwise fun x y => x.1 < y.1 ∨ (x.1 = y.1 ∧ x.2.1 ≤ y.2.1)) ∧
  (∀ (s : State) (team table : Nat) (base : BitVec 64) (no : Bool) (tm : Team) (c : CardTable), keyFind s.dev.teams team = some tm →
    keyFind tm.tables table = some c → Completes (exec (.cardingSpillAllocation team table base no) s) fun t => KeepsMemory s t ∧
      t.dev.asked = s.dev.asked.filter (· != .cardingSpill team table) ∧
      keyFind (t.team team).tables table = some (if c.spillBase ≠ 0 then c else if no then { c with refused := true }
        else { c with spillBase := base.toNat }))

/-- A copy command that passes its checks is accepted with its descriptor, counts on P2, and copies nothing before it starts (one with a
global destination counts when its commit has succeeded); CP.CANCEL stops what it names and takes a place of its own. That work comes up after the stated number of clk is the model's choice (log 7: the typical figure where the spec gives one). Which lines a command owns at its receipt is the model's reading (log 45). -/
def Obligations.CopyCommandsAreAccepted : Prop :=
  (∀ (s : State) (m : BitVec 7),
    let off := (s.readS m).toNat
    let accepted := fun (kind d id op : Nat) (inRegion : Bool) (t : State) => OnlyIssues s t ∧ KeepsMemory s t ∧
      InFlight { id := 0, flag := none, path := some 2, inRegion := inRegion, command := some s.g.core } op s t ∧
      ∃ c, keyFind (t.core s.g.core).copies id = some c ∧ c.desc = d ∧ c.kind = kind ∧ c.team = s.g.team ∧ c.slot = s.g.slot ∧
        c.row = 0 ∧ c.ctx = s.g.ctx ∧ c.op = op ∧ c.posting = false ∧ c.held = inRegion ∧
        ∀ e ∈ c.lines, ∀ l, e.line = some l → (l, s.g.core, id) ∈ t.dev.owned
    let ended := fun (id op : Nat) (t : State) => keyFind (t.core s.g.core).copies id = none ∧ KeepsMemory s t ∧
      t.g.v = s.g.v ∧ t.g.s = s.g.s ∧ (s.p.live = true → Advances s t) ∧
      (s.g.live = true → ∀ o ∈ t.g.ops, o.id = op → o.done = true)
    let cp := fun (kind : Nat) (out : Out) =>
      (passes { rd := [.s m 1], roles := 9#4, path := some 2 } s = true → s.p.stage = 0 →
        copyMax ≤ (s.core s.g.core).copies.length → out = .next (s.stall .copyPlace)) ∧
      (passes { rd := [.s m 1], roles := 9#4, path := some 2, copy := true } s = true →
        (s.p.stage = 0 →
          let d := leNat (s.teamBytes s.g.team off 256)
          let sk := (boxOf d).sk
          let dk := (boxOf d).dk
          (s.copyChecks kind off d = false → Completes out (Trapped cSPBOUND s)) ∧
          (s.copyChecks kind off d = true → copyAligned d = false → Completes out (Trapped cMISALIGN s)) ∧
          (s.copyChecks kind off d = true → copyAligned d = true →
            (dk ≠ 3 → (sk = 0 ∨ (boxOf d).rows ≠ 0) → Completes out (accepted kind d s.nextId (s.nextId + 1) (sk == 0))) ∧
            (dk ≠ 3 → sk ≠ 0 → (boxOf d).rows = 0 → Completes out (ended s.nextId (s.nextId + 1))) ∧
            (dk = 3 → settled s = true → (boxOf d).rows ≠ 0 → Completes out (accepted kind d s.nextId (s.nextId + 1) false)) ∧
            (dk = 3 → settled s = true → (boxOf d).rows = 0 → Completes out (ended s.nextId (s.nextId + 1))) ∧
            (dk = 3 → settled s = false → Completes out fun t => KeepsMemory s t ∧ t.g.ops = s.g.ops ∧ t.p.pc = s.p.pc ∧
              t.p.stage = 1 ∧ t.p.reply = some s.nextId ∧ t.g.region.committing = some s.p.idx ∧
              Due 190 (.regionCommit s.g.core s.g.slot) s t ∧
              ∃ c, keyFind (t.core s.g.core).copies s.nextId = some c ∧ c.desc = d ∧ c.kind = kind ∧ c.posting = true ∧ c.held = true))) ∧
        (s.p.stage ≠ 0 → ∀ id c, s.p.reply = some id → keyFind (s.core s.g.core).copies id = some c → c.kind = kind →
          c.team = s.g.team → c.slot = s.g.slot → c.row = 0 → c.ctx = s.g.ctx → c.lines = [] →
          ((boxOf c.desc).rows ≠ 0 → Completes out (accepted kind c.desc id s.nextId false)) ∧
          ((boxOf c.desc).rows = 0 → Completes out (ended id s.nextId))))
    cp 0 (exec (.cpTensor m) s) ∧
    cp 1 (exec (.cpGather m) s) ∧
    cp 2 (exec (.cpScatter m) s) ∧
    cp 3 (exec (.cpMcast m) s) ∧
    cp 4 (exec (.cpPack m) s) ∧
    cp 5 (exec (.cpUnpack m) s) ∧
    cp 6 (exec (.cpFill m) s)) ∧
  (∀ (s : State) (b : BitVec 7), passes { rd := [.s b 1], roles := 9#4, path := some 2, copy := true } s = true →
    Completes (exec (.cpCancel b) s) fun t => KeepsGlobal s t ∧ t.g.v = s.g.v ∧ t.g.s = s.g.s ∧ (s.p.live = true → Advances s t) ∧
      Due 1 (.copyCommandStart s.g.core s.nextId) s t ∧
      (∃ c, keyFind (t.core s.g.core).copies s.nextId = some c ∧ c.kind = 7 ∧ c.op = s.nextId ∧ c.slot = s.g.slot) ∧
      ∀ id c, keyFind (t.core s.g.core).copies id = some c → c.team = s.g.team → descNobar c.desc = false →
        descBar c.desc = (s.readS b).toNat → c.cancelled = true) ∧
  (∀ (s : State) (core id : Nat) (c : CopyCmd),
    let b := boxOf c.desc
    let l := b.elems c.kind c.row 0
    let tm := s.team c.team
    -- what each element reads: its place in the team's allocation, or the pattern of CP.FILL
    let value := fun (e : Nat × Nat) =>
      if c.kind = 6 then descField c.desc 32 16 % 256 ^ b.z else readBytes (s.core tm.core).spad (tm.spbase + e.1 % 2 ^ 20) b.z
    let wrote := fun (at_ : Nat → Nat) (m m' : Memory) =>
      (∀ (i : Nat) e, l[i]? = some e → (∀ (j : Nat) f, i < j → l[j]? = some f → at_ f.2 + b.z ≤ at_ e.2 ∨ at_ e.2 + b.z ≤ at_ f.2) →
        readBytes m' (at_ e.2) b.z = value e) ∧
      ∀ x, (∀ e ∈ l, x < at_ e.2 ∨ at_ e.2 + b.z ≤ x) → storeRead m' x = storeRead m x
    (c.kind = 0 ∧ b.sk = 1 ∨ c.kind = 6 ∧ b.sk = 2) → keyFind s.dev.teams c.team = some tm →
      (b.sk = 1 → ∀ e ∈ l, s.peerOf c.team (e.1 / 2 ^ 20) = some c.team ∧ e.1 % 2 ^ 20 + b.z ≤ tm.spsize) →
      (∀ e ∈ (s.core core).copyLog, e.2 ≤ id) →
    (b.dk = 0 → (∀ e ∈ l, e.2 < 2 ^ 24 ∧ s.peerOf c.team (e.2 / 2 ^ 20) = some c.team ∧ s.deliverable c.team (e.2 % 2 ^ 20) b.z = true) →
      ∃ t, s.plainRow core id c b = .done t c [c.row] ∧ t.g = s.g ∧ t.p = s.p ∧ t.mem = s.mem ∧ t.dev = s.dev ∧
        (∀ k, k ≠ tm.core → (t.core k).spad = (s.core k).spad) ∧
        wrote (fun a => tm.spbase + a % 2 ^ 20) (s.core tm.core).spad (t.core tm.core).spad) ∧
    (∀ u d o, b.dk = 1 → b.bfp = false → (∀ e ∈ l, e.2 + b.z ≤ 16384) → s.slotTurn core (descTarget c.desc) c = .now u d →
      keyFind (u.core core).slots (descTarget c.desc) = some o → (∀ e ∈ (u.core core).copyLog, e.2 ≤ id) →
      ∃ t m, s.plainRow core id c b = .done t d [c.row] ∧ t.g = u.g ∧ t.p = u.p ∧ KeepsMemory u t ∧
        keyFind (t.core core).slots (descTarget c.desc) = some { o with data := m } ∧ wrote (fun a => a) o.data m ∧
        ∀ n, n ≠ descTarget c.desc → keyFind (t.core core).slots n = keyFind (u.core core).slots n))

/-- BARINIT, BAREXP, BARTEST and BARWAIT act on the barrier object at their offset, and only on its 16 bytes. -/
def Obligations.BarrierObjects : Prop :=
  ∀ (s : State) (e o d p : BitVec 7),
    let off := (s.readS o).toNat
    let word := fun (u : State) (i : Nat) => u.teamWord s.g.team (off + 4 * i)
    let inObj := fun (c x : Nat) => c = s.myTeam.core ∧ s.myTeam.spbase + off ≤ x ∧ x < s.myTeam.spbase + off + 16
    let here := fun (t : State) => KeepsGlobal s t ∧ KeepsRegisters s t ∧ Advances s t ∧
      ∀ c x, ¬ inObj c x → storeRead (t.core c).spad x = storeRead (s.core c).spad x
    let ok := s.ownBounds off 16 = true ∧ off % 16 = 0
    let wrong := fun (out : Out) => (s.ownBounds off 16 = false → Completes out (Trapped cSPBOUND s)) ∧
      (s.ownBounds off 16 = true → off % 16 ≠ 0 → Completes out (Trapped cMISALIGN s))
    (passes { rd := [.s o 1, .s e 1], roles := 9#4 } s = true →
      wrong (exec (.barinit e o) s) ∧ wrong (exec (.barexp e o) s) ∧
      (ok → Completes (exec (.barinit e o) s) (fun t => here t ∧ word t 0 = s.readS e ∧ word t 1 = 0#32 ∧ word t 2 = 0#32 ∧
          word t 3 = 0#32) ∧
        Completes (exec (.barexp e o) s) (fun t => here t ∧
          let x := word s 0 + s.readS e
          if x ≠ 0#32 ∧ x ≤ word s 1 then word t 0 = 0#32 ∧ word t 1 = word s 1 - x ∧ word t 2 = word s 2 + 1#32 ∧ word t 3 = word s 3
          else word t 0 = x ∧ word t 1 = word s 1 ∧ word t 2 = word s 2 ∧ word t 3 = word s 3))) ∧
    (passes { rd := [.s o 1], wr := [.s d 2] } s = true → wrong (exec (.bartest o d) s) ∧
      (ok → Completes (exec (.bartest o d) s) (ScalarResult64 d (pair32 (word s 2) (word s 3)) s))) ∧
    (passes { rd := [.s o 1, .s p 1], wr := [.s d 2] } s = true → (s.p.stage = 0 → (∀ x y, s.p.kept ≠ some (.bar x y)) → wrong (exec (.barwait p o d) s)) ∧
      (s.p.stage = 0 → (∀ x y, s.p.kept ≠ some (.bar x y)) → ok →
        (s.g.region.held ≠ [] → exec (.barwait p o d) s = .next ({ s with p := { s.p with reply := some off } }).txForbid.beginCommit) ∧
        (s.g.region.held = [] →
          (word s 2 ≠ s.readS p ∨ word s 3 ≠ 0#32 → Completes (exec (.barwait p o d) s) (ScalarResult64 d (pair32 (word s 2) (word s 3)) s)) ∧
          (word s 2 = s.readS p → word s 3 = 0#32 → Completes (exec (.barwait p o d) s) fun t => { t with p := s.p } = s ∧
            t.p.wait = .barObject s.myTeam.core (s.myTeam.spbase + off) (s.readS p).toNat ∧ t.p.pc = s.p.pc ∧ t.p.stage = 1))) ∧
      (s.p.stage ≠ 0 → (∀ x y, s.p.kept ≠ some (.bar x y)) → s.p.reply = some off →
        (word s 2 ≠ s.readS p ∨ word s 3 ≠ 0#32 →
          Completes (exec (.barwait p o d) s) (ScalarResult64 d (pair32 (word s 2) (word s 3)) s.committed)) ∧
        (word s 2 = s.readS p → word s 3 = 0#32 → Completes (exec (.barwait p o d) s) fun t =>
          t.p.wait = .barObject s.myTeam.core (s.myTeam.spbase + off) (s.readS p).toNat ∧ t.p.pc = s.p.pc ∧ t.g.v = s.g.v ∧
            t.g.s = s.g.s ∧ KeepsMemory s t)) ∧
      (∀ x y, s.p.kept = some (.bar x y) → Completes (exec (.barwait p o d) s) (ScalarResult64 d (pair32 x y) s)))

/-- A started command goes on row by row; a plain row writes its elements only; a fault suspends or ends it; a restart goes on, a termination ends it. That work comes up after the stated number of clk is the model's choice (log 7: the typical figure where the spec gives one). That what must wait is looked at again after a number of clk is the model's choice (log 2, log 7). That a row is read and written in one step is the model's reading (log 45). -/
def Obligations.CopyCommandsRun : Prop :=
  ∀ (s : State) (core cmd : Nat) (c : CopyCmd), keyFind (s.core core).copies cmd = some c →
    let b := boxOf c.desc
    let gone := fun (t : State) => keyFind (t.core core).copies cmd = none
    let goesOn := fun (out : Out) => c.suspended = true → Completes out fun t =>
      keyFind (t.core core).copies cmd = some { c with suspended := false } ∧ Due 1 (.copyRowComplete core cmd) s t ∧ KeepsMemory s t
    (c.kind ≠ 7 → Completes (exec (.copyCommandStart core cmd) s) (LooksAgain 4 (.copyRowComplete core cmd) s)) ∧
    (c.kind = 7 →
      let stopped := ∀ id ∈ c.cancels, keyFind (s.core core).copies id = none
      (stopped → Completes (exec (.copyCommandStart core cmd) s) fun t => gone t ∧ KeepsMemory s t) ∧
      (¬ stopped → Completes (exec (.copyCommandStart core cmd) s) (LooksAgain 2 (.copyCommandStart core cmd) s))) ∧
    (c.suspended = true ∨ c.fault.isSome = true → exec (.copyRowComplete core cmd) s = .next s) ∧
    (c.suspended = false → c.fault = none →
      let claimed := s.claimLines core cmd c
      let row := claimed.1.copyRow core cmd claimed.2 b
      let out := exec (.copyRowComplete core cmd) s
      let stands := fun (k : CopyCmd) (t : State) => keyFind (t.core core).copies cmd = some k
      (∀ u k, row = .again u k → Completes out (LooksAgain 16 (.copyRowComplete core cmd) (u.putCopy core cmd k))) ∧
      (∀ u k credits, row = .done u k credits →
        let last := k.row + 1 = b.rows ∨ (k.kind = 3 ∧ (k.receivers.all fun t => k.failed.contains t) = true)
        (k.cancelled = false → last → Completes out gone) ∧
        (k.cancelled = false → ¬ last → Completes out fun t => stands { k with row := k.row + 1 } t ∧
          Due (b.rowBytes / 128 + 1) (.copyRowComplete core cmd) u t) ∧
        (k.cancelled = true → Completes out fun t => stands { k with row := k.row + 1 } t ∧ Due 1 (.copyRowComplete core cmd) u t)) ∧
      (∀ u k credits f, row = .fault u k credits f → Completes out fun t => stands { k with fault := some f, turn := none } t ∧
        Due 1 (.copyFault core cmd) u t ∧ KeepsGlobal u t) ∧
      (∀ u k credits st, row = .stop u k credits st → Completes out fun t => gone t ∧ KeepsGlobal u t)) ∧
    (∀ f, c.fault = some f →
      (s.faultRoom core = false → Completes (exec (.copyFault core cmd) s) (LooksAgain 1 (.copyFault core cmd) s)) ∧
      (s.faultRoom core = true → Completes (exec (.copyFault core cmd) s) fun t =>
        (∃ r, (t.core core).faults = (s.core core).faults ++ [r] ∧ r.op = cmd ∧ r.agent = 0 ∧
          r.words = faultWords f.va c.ctx core c.number ((if f.write then 1 else 0) + (if f.fatal then 2 else 0)) c.row f.byte) ∧
        (f.fatal = true ∨ c.cancelled = true → gone t ∧ KeepsGlobal s t) ∧
        (f.fatal = false → c.cancelled = false → keyFind (t.core core).copies cmd = some { c with suspended := true, fault := none } ∧ KeepsMemory s t))) ∧
    goesOn (exec (.copyRestart core cmd) s) ∧ goesOn (exec (.copyResume core cmd false) s) ∧
    Completes (exec (.copyResume core cmd true) s) (fun t => gone t ∧ KeepsGlobal s t)

/-- OCLAIM and ACLAIM claim what is free and begin its zeroing, ORELEASE and ARELEASE wait for their turn in its order and free the own claim, ZEROING_COMPLETE ends the zeroing. That work comes up after the stated number of clk is the model's choice (log 7: the typical figure where the spec gives one). That a group whose release has its place in the order issues nothing until it acts is the model's reading (log 46). What an instruction does whose claim has been released while it waited is the model's choice (log 68). -/
def Obligations.SlotsAndTilesAreClaimed : Prop :=
  (∀ (s : State) (d : BitVec 7) (i : BitVec 4),
    (passes { wr := [.s d 1], roles := 10#4 } s = true →
      (s.opSlot s.g.core i.toNat = none → Completes (exec (.oclaim d i) s) fun t => ScalarWritten d 0#32 s t ∧ Advances s t ∧ KeepsMemory s t ∧
        t.opSlot s.g.core i.toNat = some { owner := s.g.slot, team := s.g.team, claim := s.nextId, zeroing := true } ∧
        Due 64 (.zeroingComplete s.g.core (i.toNat)) s t) ∧
      (∀ o, s.opSlot s.g.core i.toNat = some o →
        let mine := o.owner = s.g.slot ∧ o.team = s.g.team ∧ o.releasing = false
        (mine → Completes (exec (.oclaim d i) s) (ScalarResult [] d 2#32 s)) ∧
        (¬ mine → Completes (exec (.oclaim d i) s) (ScalarResult [] d 1#32 s)))) ∧
    (passes { roles := 10#4 } s = true →
      ((∀ o, s.opSlot s.g.core i.toNat = some o → ¬ (o.owner = s.g.slot ∧ o.team = s.g.team)) → Completes (exec (.orelease i) s) (Passes s)) ∧
      (∀ o, s.opSlot s.g.core i.toNat = some o → o.owner = s.g.slot ∧ o.team = s.g.team → s.claimLost o.claim = false →
        ActsInOrder [i.toNat] s (exec (.orelease i) s) (Completes (exec (.orelease i) s) fun t =>
          KeepsMemory s t ∧ KeepsRegisters s t ∧ Advances s t ∧ t.opSlot s.g.core i.toNat = none)))) ∧
  (∀ (s : State) (d : BitVec 7) (i : BitVec 3),
    (passes { wr := [.s d 1], roles := 10#4 } s = true →
      (s.tile s.g.core i.toNat = none → Completes (exec (.aclaim d i) s) fun t => ScalarWritten d 0#32 s t ∧ Advances s t ∧ KeepsMemory s t ∧
        t.tile s.g.core i.toNat = some { owner := s.g.slot, team := s.g.team, claim := s.nextId, zeroing := true } ∧
        Due 64 (.zeroingComplete s.g.core (16 + i.toNat)) s t) ∧
      (∀ o, s.tile s.g.core i.toNat = some o →
        let mine := o.owner = s.g.slot ∧ o.team = s.g.team ∧ o.releasing = false
        (mine → Completes (exec (.aclaim d i) s) (ScalarResult [] d 2#32 s)) ∧
        (¬ mine → Completes (exec (.aclaim d i) s) (ScalarResult [] d 1#32 s)))) ∧
    (passes { roles := 10#4 } s = true →
      ((∀ o, s.tile s.g.core i.toNat = some o → ¬ (o.owner = s.g.slot ∧ o.team = s.g.team)) → Completes (exec (.arelease i) s) (Passes s)) ∧
      (∀ o, s.tile s.g.core i.toNat = some o → o.owner = s.g.slot ∧ o.team = s.g.team → s.claimLost o.claim = false →
        ActsInOrder [16 + i.toNat] s (exec (.arelease i) s) (Completes (exec (.arelease i) s) fun t =>
          KeepsMemory s t ∧ KeepsRegisters s t ∧ Advances s t ∧ t.tile s.g.core i.toNat = none)))) ∧
  (∀ (s : State) (core n : Nat),
    (n < 16 → ∀ o, s.opSlot core n = some o → Completes (exec (.zeroingComplete core n) s) fun t => KeepsMemory s t ∧ t.g = s.g ∧ t.p = s.p ∧
      t.opSlot core n = if o.releasing && o.order.isEmpty then none else some { o with data := [], record := 0#64, zeroing := false }) ∧
    (∀ o, s.tile core n = some o → Completes (exec (.zeroingComplete core (16 + n)) s) fun t => KeepsMemory s t ∧ t.g = s.g ∧ t.p = s.p ∧
      t.tile core n = if o.releasing && o.order.isEmpty then none else some { o with data := [], status := 0#32, zeroing := false }))

/-- OSETFMT, OFILL, OREAD, OREAD.REC and QBFP act on an owned slot in its order, on their own bytes only; a bad slot or offset traps. That work comes up after the stated number of clk is the model's choice (log 7: the typical figure where the spec gives one). That what must wait is looked at again after a number of clk is the model's choice (log 2, log 7). What an instruction does whose claim has been released while it waited is the model's choice (log 68), and so is the record by which QBFP writes (log 68). -/
def Obligations.SlotAccesses : Prop :=
  (∀ (s : State) (r : BitVec 7) (i : BitVec 4) (d : BitVec 8) (o : OpSlot), s.opSlot s.g.core i.toNat = some o →
    let n := i.toNat
    let own := s.ownsSlot n = true
    let may := own ∨ s.p.turn.isSome = true
    let lost := s.claimLost o.claim = true
    let slotIs := fun (x : OpSlot) (t : State) => (¬ lost → t.opSlot s.g.core n = x.left s.p.turn) ∧ (lost → t.opSlot s.g.core n = o.left s.p.turn) ∧
      KeepsMemory s t ∧ KeepsRegisters s t ∧ Advances s t
    let readsAt := fun (names : List Nat) (out : Out) (f : Lanes) => ActsInOrder names s out
      ((¬ lost → Completes out (VectorResult [] d f 0#5 (s.turnOver names))) ∧
        (lost → Completes out fun t => t.opSlot s.g.core n = o.left s.p.turn ∧ KeepsMemory s t ∧ Advances s t ∧ t.g.s = s.g.s ∧
          ∃ g, LanesWritten s.p.exec d.toNat g s.g.v t.g.v))
    let off := (s.readS r).toNat
    let inOff := fun (out : Out) => (¬ may → Completes out (Trapped cSPBOUND s)) ∧ (may → off % 128 ≠ 0 → Completes out (Trapped cMISALIGN s)) ∧
      (may → off % 128 = 0 → 16384 ≤ off → Completes out (Trapped cSPBOUND s))
    (passes { rd := [.s r 2], roles := 10#4 } s = true →
      (may → recordOk (s.readS64 r) = true → ActsInOrder [n] s (exec (.osetfmt r i) s)
        (Completes (exec (.osetfmt r i) s) (slotIs { o with record := s.readS64 r }))) ∧
      (¬ may ∨ recordOk (s.readS64 r) = false → Completes (exec (.osetfmt r i) s) (Trapped cSPBOUND s))) ∧
    (passes { rd := [.s r 1, .v d 1], roles := 10#4 } s = true → inOff (exec (.ofill r i d) s) ∧
      (may → off % 128 = 0 → off < 16384 → (s.p.turn ≠ none → s.toPop [d] = []) → ActsInOrder [n] s (exec (.ofill r i d) s) (Completes (exec (.ofill r i d) s) fun t =>
        (∃ x, slotIs { o with data := x } t ∧ (∀ a, a < off ∨ off + 128 ≤ a → storeRead x a = storeRead o.data a) ∧
          ∀ l, l < 32 → readBytes x (off + 4 * l) 4 =
            if bitOf s.p.exec l then (s.vsource d l).toNat else readBytes o.data (off + 4 * l) 4) ∧ QueuesAre t (s.afterPops [d])))) ∧
    (passes { rd := [.s r 1], wr := [.v d 1], roles := 10#4 } s = true → inOff (exec (.oread r i d) s) ∧
      (may → off % 128 = 0 → off < 16384 → readsAt [n] (exec (.oread r i d) s) fun l => BitVec.ofNat 32 (readBytes o.data (off + 4 * l) 4))) ∧
    (passes { wr := [.v d 1], roles := 10#4 } s = true → (¬ may → Completes (exec (.oreadRec i d) s) (Trapped cSPBOUND s)) ∧
      (may → readsAt [n] (exec (.oreadRec i d) s) fun l => if l = 0 then lo32 o.record else if l = 1 then hi32 o.record else 0#32)) ∧
    (passes { rd := [.s r 1, .v d 1], modx := { flag := true }, roles := 10#4 } s = true →
      let ctl := s.readS r
      let row := (ctl.extractLsb' 4 6).toNat
      let half := (ctl.extractLsb' 10 1).toNat
      let delta := (ctl.extractLsb' 0 4).toNat
      let m := fmtBits (recFmt o.record)
      let fits := fmtBfp (recFmt o.record) = true ∧ recBMO o.record + 8 * row + 8 ≤ 16384 ∧ recEXO o.record + 16 * row + 16 ≤ 16384 ∧
        recDO o.record + 8 * m * row + 4 * m * half + 4 * m ≤ 16384
      (¬ own ∨ ¬ fits → Completes (exec (.qbfp r i d) s) (Trapped cSPBOUND s)) ∧
      (own → fits → o.zeroing = true → exec (.qbfp r i d) s = .next (s.stall (.slotOrder n))) ∧
      (own → fits → o.zeroing = false → Completes (exec (.qbfp r i d) s) fun t => OnlyIssues s t ∧ KeepsMemory s t ∧
        QueuesAre t (s.afterPops [d]) ∧ t.opSlot s.g.core n = some { o with order := o.order ++ [s.nextId] } ∧
        Due 20 (.flagOperationComplete s.g.core s.g.slot s.nextId) s t ∧
        ∃ src, (∀ l, l < 32 → storeRead src l = s.vsource d l) ∧
          InFlight { id := 0, flag := s.flagTarget, path := none, act := some (.qbfp n m row half delta src), writes := { fl := (quantise m delta (laneList.map fun l => unpack f32 (s.vsource d l).toNat)).2.2.2 } } s.nextId s t))) ∧
  (∀ (s : State) (core slot op n m row half delta : Nat) (src : Store 32) (g : Group) (o : Async) (k : OpSlot),
    s.group core slot = some g → g.op op = some o → o.returned = none → s.cardingBehind core slot op = false → n < 16 → half < 2 →
    o.act = some (.qbfp n m row half delta src) → s.opSlot core n = some k →
    let out := exec (.flagOperationComplete core slot op) s
    (s.atTurn core n op = false → Completes out (LooksAgain 2 (.flagOperationComplete core slot op) s)) ∧
    (s.atTurn core n op = true → k.releasing = false →
      let q := quantise m delta (laneList.map fun l => unpack f32 (storeRead src l).toNat)
      let bm := recBMO k.record + 8 * row
      let ex := recEXO k.record + 16 * row
      let dm := recDO k.record + 8 * m * row + 4 * m * half
      let outside := fun (x len a : Nat) => a < x ∨ x + len ≤ a
      let apart := fun (x len y len' : Nat) => x + len ≤ y ∨ y + len' ≤ x
      let first := if half = 0 then 0 else ((List.range 32).filter fun i => i == 0 || (readBytes k.data bm 4).testBit i).length
      Completes out fun t => KeepsMemory s t ∧
        (Sees t core slot fun h => h.v = g.v ∧ h.s = g.s ∧ h.sys = { g.sys with fpflags := g.sys.fpflags ||| q.2.2.2 } ∧
          ∀ x ∈ h.ops, x.id = op → x.done = true) ∧
        (∀ j, j ≠ n → t.opSlot core j = s.opSlot core j) ∧ (∀ j, t.tile core j = s.tile core j) ∧
        ∃ y, t.opSlot core n = some { k with data := y, order := k.order.filter (· != op) } ∧
          (op < k.claim → y = k.data) ∧
          (∀ a, outside bm 8 a → outside ex 16 a → outside dm (4 * m) a → storeRead y a = storeRead k.data a) ∧
          (k.claim ≤ op → apart bm 8 ex 16 → apart bm 8 dm (4 * m) → apart ex 16 dm (4 * m) →
            (∀ i, i < 64 → (readBytes y bm 8).testBit i =
              if half = 0 ∨ 32 ≤ i then decide (i - 32 * half ∈ q.1) else (readBytes k.data bm 8).testBit i) ∧
            (∀ i, i < 16 → (storeRead y (ex + i)).toNat =
              if i < first then (storeRead k.data (ex + i)).toNat else q.2.1.getD (i - first) 0) ∧
            ∀ i, i < 32 → readBytes y dm (4 * m) / 2 ^ (m * i) % 2 ^ m = (q.2.2.1.getD i 0 % (2 ^ m : Int)).toNat)))

/-- AINIT fills an owned tile, ALD and AST issue in the order of the tile and take effect at their turn; a tile in use by an MMA is ACCBUSY. That work comes up after the stated number of clk is the model's choice (log 7: the typical figure where the spec gives one). That what must wait is looked at again after a number of clk is the model's choice (log 2, log 7). The place of ALD in the order of a tile is the model's reading (log 46). What an instruction does whose claim has been released while it waited is the model's choice (log 68). -/
def Obligations.TileAccesses : Prop :=
  (∀ (s : State) (r : BitVec 7) (i : BitVec 3) (d : BitVec 8) (o : AccTile), s.tile s.g.core i.toNat = some o →
    let n := i.toNat
    let own := s.ownsTile n = true
    let idle := (∀ m ∈ (s.core s.g.core).mmas, m.names n = false)
    let may := s.p.turn.isSome = true ∨ (own ∧ idle)
    let lost := s.claimLost o.claim = true
    let busyOr := fun (out : Out) => s.p.turn = none →
      (¬ own → Completes out (Trapped cSPBOUND s)) ∧ (own → ¬ idle → Completes out (Trapped cACCBUSY s))
    let filled := fun (names : List Nat) (out : Out) (f : Nat → Word) => ActsInOrder names s out (Completes out fun t =>
      KeepsMemory s t ∧ KeepsRegisters s t ∧ Advances s t ∧ (lost → t.tile s.g.core n = o.left s.p.turn) ∧
        (¬ lost → ∃ y, t.tile s.g.core n = ({ o with data := y, status := 0#32 } : AccTile).left s.p.turn ∧ ∀ e, e < 4096 → storeRead y e = f e))
    let issued := fun (clk : Nat) (act : OpAct) (vdst : List Nat) (t : State) => OnlyIssues s t ∧ KeepsMemory s t ∧
      InFlight { id := 0, flag := s.flagTarget, path := none, vdst := vdst, act := some act } s.nextId s t ∧
      Due clk (.flagOperationComplete s.g.core s.g.slot s.nextId) s t ∧
      t.tile s.g.core n = some { o with order := o.order ++ [s.nextId] }
    (passes { roles := 10#4 } s = true → busyOr (exec (.ainit i) s) ∧
      (may → filled [16 + n] (exec (.ainit i) s) fun _ => 0#32)) ∧
    (passes { rd := [.s r 1], roles := 10#4 } s = true → busyOr (exec (.ainitSet r i) s) ∧ busyOr (exec (.ainitSlot r i) s) ∧
      (may → filled [16 + n] (exec (.ainitSet r i) s) fun _ => s.readS r) ∧
      (may → (let m := (s.readS r).toNat % 16;
        (s.p.turn = none → s.ownsSlot m = false → Completes (exec (.ainitSlot r i) s) (Trapped cSPBOUND s)) ∧
        (s.p.turn.isSome = true ∨ s.ownsSlot m = true → ∀ x, s.opSlot s.g.core m = some x →
          (s.claimLost x.claim = false → filled [16 + n, m] (exec (.ainitSlot r i) s) fun e => BitVec.ofNat 32 (readBytes x.data (4 * e) 4)) ∧
          (s.claimLost x.claim = true → ∃ f, filled [16 + n, m] (exec (.ainitSlot r i) s) f))))) ∧
    (passes (tileUses [.s r 1] [.v d 2]) s = true → busyOr (exec (.ald r i d) s) ∧
      (own → idle → o.zeroing = true → exec (.ald r i d) s = .next (s.stall (.slotOrder (16 + n)))) ∧
      (own → idle → o.zeroing = false → Completes (exec (.ald r i d) s) (issued 12 (.ald n false ((s.readS r).toNat % 64) d.toNat s.p.exec) [d.toNat, d.toNat + 1]))) ∧
    (passes (tileUses [.s r 1] [.v d 2]) s = true → busyOr (exec (.aldCol r i d) s) ∧
      (own → idle → o.zeroing = true → exec (.aldCol r i d) s = .next (s.stall (.slotOrder (16 + n)))) ∧
      (own → idle → o.zeroing = false → Completes (exec (.aldCol r i d) s) (issued 12 (.ald n true ((s.readS r).toNat % 64) d.toNat s.p.exec) [d.toNat, d.toNat + 1]))) ∧
    (passes (tileUses [] [.v d 1]) s = true → busyOr (exec (.aldStat i d) s) ∧
      (own → idle → o.zeroing = true → exec (.aldStat i d) s = .next (s.stall (.slotOrder (16 + n)))) ∧
      (own → idle → o.zeroing = false → Completes (exec (.aldStat i d) s) (issued 6 (.aldStat n d.toNat s.p.exec) [d.toNat]))) ∧
    (passes (tileUses [.s r 1, .v d 2] []) s = true → busyOr (exec (.ast r i d) s) ∧
      (own → idle → o.zeroing = true → exec (.ast r i d) s = .next (s.stall (.slotOrder (16 + n)))) ∧
      (own → idle → o.zeroing = false → Completes (exec (.ast r i d) s) (issued 12 (.ast n false ((s.readS r).toNat % 64) (s.g.vstore d.toNat) (s.g.vstore (d.toNat + 1)) s.p.exec) []))) ∧
    (passes (tileUses [.s r 1, .v d 2] []) s = true → busyOr (exec (.astCol r i d) s) ∧
      (own → idle → o.zeroing = true → exec (.astCol r i d) s = .next (s.stall (.slotOrder (16 + n)))) ∧
      (own → idle → o.zeroing = false → Completes (exec (.astCol r i d) s) (issued 12 (.ast n true ((s.readS r).toNat % 64) (s.g.vstore d.toNat) (s.g.vstore (d.toNat + 1)) s.p.exec) [])))) ∧
  (∀ (s : State) (core slot op n x : Nat) (col : Bool) (mask : Word) (lo hi : Store 32) (dst : Nat) (g : Group) (o : Async) (k : AccTile),
    s.group core slot = some g → g.op op = some o → s.cardingBehind core slot op = false → s.tile core n = some k → k.releasing = false →
    o.returned = none →
    (s.atTurn core (16 + n) op = false → o.act = some (.ald n col x dst mask) →
      Completes (exec (.flagOperationComplete core slot op) s) (LooksAgain 2 (.flagOperationComplete core slot op) s)) ∧
    (s.atTurn core (16 + n) op = true → x < 64 →
      (o.act = some (.ald n col x dst mask) → Completes (exec (.flagOperationComplete core slot op) s) fun t => KeepsMemory s t ∧
        Sees t core slot fun h => h.s = g.s ∧ ∀ q l, l < 32 → storeRead h.v (32 * q + l) =
          if bitOf mask l = true ∧ (q = dst ∨ q = dst + 1) then
            (if op < k.claim then storeRead h.v (32 * q + l) else storeRead k.data (tileAt col x (if q = dst then l else 32 + l)))
          else storeRead g.v (32 * q + l)) ∧
      (o.act = some (.ast n col x lo hi mask) → Completes (exec (.flagOperationComplete core slot op) s) fun t => KeepsMemory s t ∧
        (Sees t core slot fun h => h.v = g.v ∧ h.s = g.s) ∧ ∃ y, t.tile core n = some y ∧ ∀ e, e < 4096 → storeRead y.data e =
          let l := if col then e / 64 else e % 64
          if k.claim ≤ op ∧ (if col then e % 64 else e / 64) = x ∧ bitOf mask (l % 32) = true then storeRead (if l < 32 then lo else hi) (l % 32)
          else storeRead k.data e)))

/-- MMA waits at the latch for its gang; the last member's arrival releases every one of it (R136, R316); the array reads its slots at its start, writes its tiles at its end and ORs its flags into the members' sys.fpflags (R317, R318). That work comes up after the stated number of clk is the model's choice (log 7: the typical figure where the spec gives one). That what must wait is looked at again after a number of clk is the model's choice (log 2, log 7). The order in which MMAs enter the array and that the old tile is read at the end are the model's readings (log 46). What an MMA does with a tile claimed anew since its release is the model's choice (log 68). -/
def Obligations.MatrixMultiplies : Prop :=
  (∀ (s : State) (p : BitVec 5) (t o : BitVec 1) (c : BitVec 3) (b a : BitVec 4) (k : BitVec 3) (tm : Team),
    passes { roles := 10#4, path := some 6 } s = true → s.g.live = true → s.p.live = true → keyFind s.dev.teams s.g.team = some tm →
    let word := mmaWord p t o c b a k
    let m := s.g.sys.gang
    let out := exec (.mma p t o c b a k) s
    let same := fun (h : Held32) => h.mask == m && h.word == word
    (∀ h ∈ tm.latch, h.slot ≠ s.g.slot) →
      ((∃ h ∈ tm.latch, bitOf m (s.latchGid s.g.core h) = true ∧ same h = false) → Completes out (Trapped cGANGMIS s)) ∧
      ((∀ h ∈ tm.latch, bitOf m (s.latchGid s.g.core h) = true → same h = true) →
        ((∃ g, g < 32 ∧ bitOf m g = true ∧ g ≠ s.g.gid ∧ ∀ h ∈ tm.latch, same h = true → s.latchGid s.g.core h ≠ g) →
          Completes out fun u => KeepsRegisters s u ∧ KeepsMemory s u ∧ u.p.wait = .latch ∧ u.p.pc = s.p.pc ∧
            (u.team s.g.team).latch = tm.latch ++ [{ slot := s.g.slot, split := s.p.idx, mask := m, word := word }]) ∧
        ((∀ g, g < 32 → bitOf m g = (g == s.g.gid)) → tm.latch = [] →
          let claimed := fun (team owner : Nat) (rel : Bool) => team = s.g.team ∧ owner = s.g.slot ∧ rel = false
          (∀ n ∈ [a.toNat, b.toNat], ∃ x, s.opSlot s.g.core n = some x ∧ claimed x.team x.owner x.releasing) →
          (∀ n ∈ (if pairTwo p.toNat then [c.toNat, c.toNat + 1] else [c.toNat]),
            ∃ x, s.tile s.g.core n = some x ∧ claimed x.team x.owner x.releasing) → s.g.gid < 32 →
          Completes out fun u => u.p.pc = s.p.pc + 4#32 ∧ u.p.wait = .none ∧ u.g.v = s.g.v ∧ u.g.s = s.g.s ∧ u.g.sys = s.g.sys ∧
            KeepsMemory s u ∧ (∃ id, u.g.ops = s.g.ops ++ [{ id := id, flag := none, path := some 6, command := some s.g.core }]) ∧
            (u.core s.g.core).mmaCount = (s.core s.g.core).mmaCount + 1#16 ∧
            ∃ e, (u.core s.g.core).mmas = (s.core s.g.core).mmas ++ [e] ∧ e.seq = (s.core s.g.core).mmaCount.toNat ∧ e.pair = p.toNat ∧
              e.acc = c.toNat ∧ e.sla = a.toNat ∧ e.slb = b.toNat ∧ e.k = 8 * (k.toNat + 1) ∧ e.tb = (t == 1#1) ∧ e.ovw = (o == 1#1) ∧
              e.started = false ∧ Due (max 1 ((s.core s.g.core).arrayFree - s.clock)) (.mmaStart s.g.core e.id) s u) ∧
        ((∀ g, g < 32 → bitOf m g = true → g = s.g.gid ∨ ∃ h ∈ tm.latch, same h = true ∧ s.latchGid s.g.core h = g) →
          let claimed := fun (team owner : Nat) (rel : Bool) => team = s.g.team ∧ rel = false ∧
            ∃ q, s.group s.g.core owner = some q ∧ q.team = s.g.team ∧ bitOf m q.gid = true
          let stands := fun (x y : Split) => y.idx = x.idx ∧ y.pc = x.pc + 4#32 ∧ y.wait = .none ∧ y.exec = x.exec
          let given := fun (id : Nat) => ({ id := id, flag := none, path := some 6, command := some s.g.core } : Async)
          (∀ n ∈ [a.toNat, b.toNat], ∃ x, s.opSlot s.g.core n = some x ∧ claimed x.team x.owner x.releasing) →
          (∀ n ∈ (if pairTwo p.toNat then [c.toNat, c.toNat + 1] else [c.toNat]),
            ∃ x, s.tile s.g.core n = some x ∧ claimed x.team x.owner x.releasing) →
          Completes out fun u => stands s.p u.p ∧ u.g.v = s.g.v ∧ u.g.s = s.g.s ∧ u.g.sys = s.g.sys ∧ KeepsMemory s u ∧
            (u.team s.g.team).latch = (tm.latch.filter fun h => !same h) ∧
            (u.core s.g.core).mmaCount = (s.core s.g.core).mmaCount + 1#16 ∧
            ∃ e, (u.core s.g.core).mmas = (s.core s.g.core).mmas ++ [e] ∧ e.seq = (s.core s.g.core).mmaCount.toNat ∧ e.pair = p.toNat ∧
              e.acc = c.toNat ∧ e.sla = a.toNat ∧ e.slb = b.toNat ∧ e.k = 8 * (k.toNat + 1) ∧ e.tb = (t == 1#1) ∧ e.ovw = (o == 1#1) ∧
              e.started = false ∧ Due (max 1 ((s.core s.g.core).arrayFree - s.clock)) (.mmaStart s.g.core e.id) s u ∧
              e.members.map Prod.fst = s.g.slot :: ((tm.latch.filter same).map Held32.slot) ∧
              (∃ id, (s.g.slot, id) ∈ e.members ∧ u.g.ops = s.g.ops ++ [given id]) ∧
              ∀ h ∈ tm.latch, same h = true → (tm.latch.filter fun j => j.slot == h.slot) = [h] → ∀ q, s.group s.g.core h.slot = some q →
                Sees u s.g.core h.slot fun j => j.v = q.v ∧ j.s = q.s ∧ (∃ id, (h.slot, id) ∈ e.members ∧ j.ops = q.ops ++ [given id]) ∧
                  ∀ x ∈ q.splits, x.idx = h.split → ∃ y ∈ j.splits, stands x y))) ∧
  (∀ (s : State) (core mma : Nat) (m : Mma),
    ((s.core core).mmas.find? (fun e => e.id == mma && !e.started) = some m →
      (s.mmaReady core m = false → Completes (exec (.mmaStart core mma) s) (LooksAgain 2 (.mmaStart core mma) s)) ∧
      (s.mmaReady core m = true → ∀ x y, s.opSlot core m.sla = some x → s.opSlot core m.slb = some y → x.claim ≤ m.id → y.claim ≤ m.id →
        let ok := mmaFormatOk m x.record y.record
        let busy := if ok then occupancy m.pair (recFmt x.record) (recFmt y.record) m.k else 2
        Completes (exec (.mmaStart core mma) s) fun t => KeepsMemory s t ∧ t.g = s.g ∧ t.p = s.p ∧
          (t.core core).arrayFree = s.clock + busy ∧ Due (if ok then busy + 24 else busy) (.mmaComplete core mma) s t ∧
          { m with started := true, fmtErr := !ok, recA := x.record, recB := y.record, a := x.data, b := y.data } ∈ (t.core core).mmas)) ∧
    ((s.core core).mmas.find? (fun e => e.id == mma && e.started) = some m →
      ((∃ e ∈ (s.core core).mmas, e.id < mma) → Completes (exec (.mmaComplete core mma) s) (LooksAgain 1 (.mmaComplete core mma) s)) ∧
      ((∀ e ∈ (s.core core).mmas, mma ≤ e.id) → Completes (exec (.mmaComplete core mma) s) fun t => KeepsMemory s t ∧
        (t.core core).mmas = ((s.core core).mmas.filter fun e => e.id != mma) ∧
        let old := fun (n i : Nat) => if m.ovw then 0 else (((s.tile core n).map fun y => storeRead y.data i).getD 0#32).toNat
        let r := mmaCompute m.pair m.tb m.k m.a m.b m.recA m.recB (old m.acc) (old (m.acc + 1))
        let written := fun (n : Nat) (l : List Nat) => ∀ x, s.tile core n = some x → x.releasing = false → ∃ y, t.tile core n = some y ∧
          (mma < x.claim → y.data = x.data ∧ y.status = x.status) ∧
          (x.claim ≤ mma → m.fmtErr = true → y.data = x.data ∧ y.status = x.status ||| 8#32) ∧
          (x.claim ≤ mma → m.fmtErr = false → y.status = x.status ||| BitVec.ofNat 32 r.status ∧
            ∀ e, e < 4096 → storeRead y.data e = BitVec.ofNat 32 (l.getD e 0))
        (∀ e ∈ m.members, ∀ g, s.group core e.1 = some g → Sees t core e.1 fun h => h.v = g.v ∧ h.s = g.s ∧
          (∀ x ∈ h.ops, x.id = e.2 → x.done = true) ∧
          ((m.members.map Prod.fst).Nodup → h.sys =
            if (g.op e.2).isSome && !m.fmtErr then { g.sys with fpflags := g.sys.fpflags ||| r.fl } else g.sys)) ∧
        written m.acc r.lo ∧ (pairTwo m.pair = true → written (m.acc + 1) r.hi))))

/-- The ray, light-tree and texture instructions, REUSE and BRIMX read their descriptor and operands at issue and are held for the commit. -/
def Obligations.UnitInstructionsAreHeld : Prop :=
  (∀ (s : State) (c : BitVec 4) (a d : BitVec 8),
    let core := s.g.core
    let off := (s.readS (c.setWidth 7)).toNat
    let heldBy := fun (agent path : Nat) (vd : List Nat) (t : State) => OnlyIssues s t ∧ KeepsMemory s t ∧
      InFlight { id := 0, flag := none, path := some path, vdst := vd, inRegion := true, command := some core } s.nextId s t ∧
      t.g.region.held = s.g.region.held ++ [{ agent := agent, id := s.nextId, path := some path }]
    let unit := fun (kind n : Nat) (out : Out) =>
      passes { rd := [.s (c.setWidth 7) 1, .v a n], wr := [.v d (rayDest kind)], roles := 8#4, path := some 3 } s = true →
      (s.unitFree core (unitOf kind) = false → out = .next (s.stall (.unitRoom (unitOf kind)))) ∧
      (s.unitFree core (unitOf kind) = true →
        (s.p.exec ≠ 0#32 → off % 32 ≠ 0 → Completes out (Trapped cMISALIGN s)) ∧
        (s.p.exec ≠ 0#32 → off % 32 = 0 → s.ownBounds off 32 = false → Completes out (Trapped cSPBOUND s)) ∧
        (s.p.exec = 0#32 ∨ (off % 32 = 0 ∧ s.ownBounds off 32 = true) → Completes out fun t =>
          heldBy 1 3 (vdests d (rayDest kind)) t ∧ ∃ o, keyFind (t.core core).rays s.nextId = some o ∧ o.held = true ∧ o.kind = kind ∧
            o.desc = leNat (s.teamBytes s.g.team off 32) ∧ o.dst = d.toNat ∧ o.job = none ∧ o.ctx = s.g.ctx ∧
            o.lanes = s.active.map fun l => (l, { args := s.runOf a n l })))
    unit 0 8 (exec (.rtrace c a d) s) ∧
    unit 1 8 (exec (.rtany c a d) s) ∧
    unit 2 2 (exec (.rtqry c a d) s) ∧
    unit 3 7 (exec (.ltwalk c a d) s) ∧
    unit 4 7 (exec (.ltpdf c a d) s) ∧
    unit 5 3 (exec (.texld c a d) s) ∧
    unit 6 6 (exec (.texg c a d) s) ∧
    (passes { rd := [.s (c.setWidth 7) 1], roles := 8#4, path := some 4 } s = true →
      (16 ≤ (s.core core).jobs.length → exec (.reuse c) s = .next (s.stall .jobRoom)) ∧
      ((s.core core).jobs.length < 16 →
        let dd := leNat (s.teamBytes s.g.team off 128)
        (off % 128 ≠ 0 → Completes (exec (.reuse c) s) (Trapped cMISALIGN s)) ∧
        (off % 128 = 0 → (s.ownBounds off 128 && s.reuseChecks dd) = false → Completes (exec (.reuse c) s) (Trapped cSPBOUND s)) ∧
        (off % 128 = 0 → (s.ownBounds off 128 && s.reuseChecks dd) = true → Completes (exec (.reuse c) s) fun t =>
          heldBy 2 4 [] t ∧ ∃ j, keyFind (t.core core).jobs s.nextId = some j ∧ j.held = true ∧ j.started = false ∧ j.desc = dd ∧
            j.team = s.g.team ∧ j.ctx = s.g.ctx ∧ j.pix = 0 ∧ j.code = 0))) ∧
    (passes { rd := [.s (c.setWidth 7) 1], roles := 8#4, path := some 7 } s = true →
      let dd := leNat (s.teamBytes s.g.team off 32)
      (off % 32 ≠ 0 → Completes (exec (.brimx c) s) (Trapped cMISALIGN s)) ∧
      (off % 32 = 0 → s.brimChecks off dd = false → Completes (exec (.brimx c) s) (Trapped cSPBOUND s)) ∧
      (off % 32 = 0 → s.brimChecks off dd = true → Completes (exec (.brimx c) s) fun t =>
        heldBy 3 7 [] t ∧ keyFind (t.core core).brims s.nextId =
          some { team := s.g.team, slot := s.g.slot, op := s.nextId, ctx := s.g.ctx, launch := s.myTeam.launch, desc := dd, held := true })))

/-- A released instruction of a unit writes its run when its lanes are done, a miss or a fault result where nothing is read; a reuse job goes from candidates to batches, to the records it merges, to its status word and credit; a brim exchange copies its records with BRIM set, reports and lowers P7. That work comes up after the stated number of clk is the model's choice (log 7: the typical figure where the spec gives one). That what must wait is looked at again after a number of clk is the model's choice (log 2, log 7). When a job reads its candidates and what a fault at its start does are the model's readings (log 49), and so are some of the checks that make a descriptor bad (log 48). -/
def Obligations.UnitsAndJobsRun : Prop :=
  (∀ (s : State) (core op lane : Nat),
    ((∀ o, keyFind (s.core core).rays op = some o → o.held = true) → exec (.rayUnitComplete core op) s = .next s) ∧
    (∀ o u lanes again, keyFind (s.core core).rays op = some o → o.held = false → s.workLanes core op o o.lanes = (u, lanes, again) →
      let all := ∀ e ∈ lanes, e.2.result.isSome = true
      (all → o.job = none → Completes (exec (.rayUnitComplete core op) s) fun t => keyFind (t.core core).rays op = none ∧ t.mem = u.mem ∧
        (∀ e ∈ t.dev.owned, ¬ (e.2.1 = core ∧ e.2.2 = op)) ∧ ∀ g, u.group core o.slot = some g → Sees t core o.slot fun h =>
          h.v = (applyWrites g { o with lanes := lanes }.writes).v ∧ h.s = g.s ∧ ∀ x ∈ h.ops, x.id = op → x.done = true) ∧
      (all → ∀ j, o.job = some j → Completes (exec (.rayUnitComplete core op) s) fun t => Due 1 (.reuseBatch core j) u t) ∧
      (¬ all → Completes (exec (.rayUnitComplete core op) s) fun t => t.mem = u.mem ∧ t.g = u.g ∧
        keyFind (t.core core).rays op = some { o with lanes := lanes } ∧ (again = true → Due 16 (.rayUnitComplete core op) u t))) ∧
    (∀ o (w : Nat → List Word), keyFind (s.core core).rays op = some o → o.held = false → o.job = none →
      (∀ e ∈ o.lanes, e.2.result = none ∧ e.2.suspended = false ∧ e.2.killed = false ∧ KnownRun o.kind o.desc e.2.args (w e.1)) →
      Completes (exec (.rayUnitComplete core op) s) fun t => KeepsMemory s t ∧ keyFind (t.core core).rays op = none ∧
        ∀ g, s.group core o.slot = some g → Sees t core o.slot fun h => h.s = g.s ∧ (∀ x ∈ h.ops, x.id = op → x.done = true) ∧
          ∀ r l, l < 32 → storeRead h.v (32 * r + l) =
            if o.dst ≤ r ∧ r < o.dst + rayDest o.kind ∧ (o.lanes.any fun e => e.1 == l) = true then wordAt (w l) (r - o.dst)
            else storeRead g.v (32 * r + l)) ∧
    (∀ o l, keyFind (s.core core).rays op = some o → keyFind o.lanes lane = some l →
      (l.suspended = false → exec (.rayLaneRestart core op lane) s = .next s) ∧
      (l.suspended = true → Completes (exec (.rayLaneRestart core op lane) s) fun t => Due 1 (.rayUnitComplete core op) s t ∧
        KeepsMemory s t ∧ t.g = s.g ∧ ∃ q, keyFind (t.core core).rays op = some q ∧
          keyFind q.lanes lane = some { l with suspended := false, trav := none }))) ∧
  (∀ (s : State) (core job : Nat) (j : ReuseJob), keyFind (s.core core).jobs job = some j →
    let jobIs := fun (x : ReuseJob) (t : State) => keyFind (t.core core).jobs job = some x
    (j.held = true → exec (.reuseJobStart core job) s = .next s ∧ exec (.reuseBatch core job) s = .next s ∧
      exec (.reuseMerge core job) s = .next s ∧ exec (.reuseJobComplete core job) s = .next s) ∧
    (j.held = false → j.code = 0 →
      (j.started = false → (∀ u l, s.allCands core job j 0 j.pixels = .ok u l → keyFind (u.core core).jobs job = some j →
          Completes (exec (.reuseJobStart core job) s) fun t => jobIs { j with started := true, cands := l } t ∧ Due 1 (.reuseBatch core job) u t) ∧
        (∀ u, s.allCands core job j 0 j.pixels = .again u → Completes (exec (.reuseJobStart core job) s) (LooksAgain 16 (.reuseJobStart core job) u))) ∧
      (j.started = true →
        Completes (exec (.reuseJobStart core job) s) (fun t => jobIs { j with batch := [], count := 0 } t ∧ Due 1 (.reuseBatch core job) s t) ∧
        (j.batch = [] → j.nextBatch = [] → Completes (exec (.reuseBatch core job) s) (LooksAgain 1 (.reuseMerge core job) s)) ∧
        (j.batch = [] → j.nextBatch ≠ [] →
          ((∃ g ∈ s.groups, g.at core evalSlot = true) →
            Completes (exec (.reuseBatch core job) s) (LooksAgain 16 (.reuseBatch core job) s)) ∧
          ((∀ g ∈ s.groups, g.at core evalSlot = false) → Completes (exec (.reuseBatch core job) s) fun t => KeepsMemory s t ∧ t.g = s.g ∧
            jobIs { j with batch := j.nextBatch, count := 0 } t ∧ t.others = s.others ++ [j.evaluator core job s.clock j.nextBatch])) ∧
        (j.pixels.length ≤ j.pix → Completes (exec (.reuseMerge core job) s) (LooksAgain 1 (.reuseJobComplete core job) s)) ∧
        (j.pix < j.pixels.length → j.pixelReady j.pix = false →
          Completes (exec (.reuseMerge core job) s) (LooksAgain 1 (.reuseBatch core job) s)) ∧
        (j.pix < j.pixels.length → j.pixelReady j.pix = true →
          s.firstOwner core job (s.outLine j (dieOf core) (j.pixels.getD j.pix (0, 0))) = true →
          Completes (exec (.reuseMerge core job) s) fun t => jobIs { j with pix := j.pix + 1 } t ∧ Due 1 (.reuseMerge core job) s t ∧
            KeepsPads s t ∧ ((s.ctx j.ctx).failed = true → KeepsGlobal s t) ∧
            (let e := j.pixels.getD j.pix (0, 0)
             (s.ctx j.ctx).failed = false →
              (t.readRecord (s.jobLaunch j) (dieOf core) (rdOut j.desc) e.1 e.2).2 = j.output j.pix ∧
              ((∀ c ∈ j.cands, c.pix = j.pix → c.dropped = true) → j.output j.pix = List.replicate 8 0#32))))) ∧
    (j.held = false → (j.code ≠ 0 ∨ j.pixels.length ≤ j.pix) → Completes (exec (.reuseJobComplete core job) s) fun t => KeepsGlobal s t ∧
      keyFind (t.core core).jobs job = none ∧ (∀ e ∈ t.dev.owned, ¬ (e.2.1 = core ∧ e.2.2 = job)) ∧
      (let stat := j.off + 124
       let bar := rdBarrier j.desc
       let fits := s.deliverable j.team stat 4 = true
       let st := if j.code = 0 ∧ fits then 0#32 else 2#32
       let w := fun (u : State) (i : Nat) => u.teamWord j.team (bar + 4 * i)
       let met := w s 0 ≠ 0#32 ∧ w s 0 ≤ w s 1 + 1#32
       (bar + 16 ≤ stat ∨ stat + 4 ≤ bar) →
        (fits → t.teamWord j.team stat = BitVec.ofNat 32 (j.code + 256 * j.rayEnd)) ∧
        (s.deliverable j.team bar 16 = true →
          w t 0 = (if met then 0#32 else w s 0) ∧ w t 1 = (if met then w s 1 + 1#32 - w s 0 else w s 1 + 1#32) ∧
          w t 2 = (if met then w s 2 + 1#32 else w s 2) ∧ w t 3 = (if w s 3 = 0#32 then st else w s 3)) ∧
        (¬ fits → s.deliverable j.team bar 16 = false → KeepsPads s t)) ∧
      ∀ g, s.group core j.slot = some g → j.slot ≠ evalSlot →
        Sees t core j.slot fun h => h.v = g.v ∧ h.s = g.s ∧ ∀ x ∈ h.ops, x.id = job → x.done = true)) ∧
  (∀ (s : State) (core op : Nat) (b : BrimOp), keyFind (s.core core).brims op = some b →
    let l := (keyFind s.dev.launches b.launch).getD { ctx := 0 }
    let r := brimDesc b.desc
    let free := ∀ e ∈ b.pixels l (dieOf core), ∀ d ∈ [dieOf core, 1 - dieOf core],
      s.firstOwner core op (rsvLine (l.recordPa d r.plane e.1 e.2)) = true
    (b.held = true → exec (.brimArrival core op) s = .next s) ∧
    (b.held = false → ¬ free → Completes (exec (.brimArrival core op) s) (LooksAgain 16 (.brimArrival core op) s)) ∧
    (b.held = false → free → Completes (exec (.brimArrival core op) s) fun t => keyFind (t.core core).brims op = none ∧
      (∀ e ∈ t.dev.owned, ¬ (e.2.1 = core ∧ e.2.2 = op)) ∧ (b.pixels l (dieOf core) = [] → KeepsGlobal s t) ∧
      (let src := fun (e : Nat × Nat) => l.recordPa (dieOf core) r.plane e.1 e.2
       let dst := fun (e : Nat × Nat) => l.recordPa (1 - dieOf core) r.plane e.1 e.2
       let marked := fun (x : List Word) => x.set 5 (wordAt x 5 ||| 0x800000#32)
       let px := b.pixels l (dieOf core)
       (∀ e, px = [e] → (t.readRecord l (1 - dieOf core) r.plane e.1 e.2).2 = marked (s.readRecord l (dieOf core) r.plane e.1 e.2).2) ∧
       (s.dev.rsvWays = 0 → s.dev.rsv = [] → (∀ a, (∀ e ∈ px, a < dst e ∨ dst e + 32 ≤ a) → storeRead t.mem a = storeRead s.mem a) ∧
        ((∀ e ∈ px, ∀ f ∈ px, (src e + 32 ≤ dst f ∨ dst f + 32 ≤ src e) ∧ (e ≠ f → dst e + 32 ≤ dst f ∨ dst f + 32 ≤ dst e)) → px.Nodup →
          ∀ e ∈ px, recordOf t.mem (dst e) = marked (recordOf s.mem (src e))))) ∧
      (∀ g, s.group core b.slot = some g → Sees t core b.slot fun h => ∀ x ∈ h.ops, x.id = op → x.done = true) ∧
      (r.box = true → storeRead (t.ctx b.ctx).boxes (16 * (1 - dieOf core) + r.target % 16) = BitVec.ofNat 32 r.where_))) ∧
  (∀ (s : State) (a d : BitVec 8),
    let u : Uses := { rd := [.v a 1, .v d 8], roles := 8#4 }
    (passes u s = true → Completes (exec (.tgtret a d) s) (Trapped cILLEGAL s)) ∧
    (∀ job j, s.g.evaluates = some job → (∀ r ∈ u.regs, callableReg r = true ∧ hazard s r = none) → precheck u s = none →
      mcsetBound u s = none → notReady u s = none → keyFind (s.core s.g.core).jobs job = some j →
      Completes (exec (.tgtret a d) s) fun t => t.g.live = false ∧ KeepsMemory s t ∧
        (∃ k, keyFind (t.core s.g.core).jobs job = some k ∧ k.pix = j.pix ∧
          ∀ p x, j.batch = [p] → j.cands[p]? = some x → k.cands[p]? = some { x with phat := some (s.g.vreg a.toNat 0) }) ∧
        (rdVis j.desc = 0 → Due 1 (.reuseMerge s.g.core job) s t) ∧
        (rdVis j.desc ≠ 0 → Due 200 (.rayUnitComplete s.g.core s.nextId) s t ∧
          ∃ o, keyFind (t.core s.g.core).rays s.nextId = some o ∧ o.job = some job ∧ o.kind = 1)))

/-- R356. The frame beside it follows R46 and R352. -/
def Obligations.RsvinitClearsItsRun : Prop :=
  ∀ (s : State) (d : BitVec 8), passes { wr := [.v d 8] } s = true →
    Completes (exec (.rsvinit d) s) fun t => RunResult d 8 (fun _ => List.replicate 8 0#32) 0#5 s t ∧
      ∀ l, l < 32 → bitOf s.p.exec l = true →
        (∀ i, i < 8 → t.g.vreg (d.toNat + i) l = 0#32) ∧ resValid ((List.range 8).map fun i => t.g.vreg (d.toNat + i) l) = false

/-- RNGCTR, RNGF, RSVUPD, RSVMRG and RSVNORM write their run in every active lane and OR the flags of their float operations. -/
def Obligations.ReservoirArithmetic : Prop :=
  ∀ (s : State) (a d : BitVec 8),
    (passes { rd := [.v a 4], wr := [.v d 4] } s = true → Completes (exec (.rngctr a d) s) (RunResult d 4 (fun l =>
      let r := rngctr (s.g.vreg a.toNat l) (s.g.vreg (a.toNat + 1) l) (s.g.vreg (a.toNat + 2) l) (s.g.vreg (a.toNat + 3) l)
        s.g.sys.rngkey0 s.g.sys.rngkey1
      [r.1, r.2.1, r.2.2.1, r.2.2.2]) 0#5 s)) ∧
    (passes { rd := [.v a 1], wr := [.v d 1] } s = true →
      Completes (exec (.rngf a d) s) (VectorResult [a] d (fun l => rngf (s.vsource a l)) 0#5 s) ∧
      ∀ n : Word, (n.toNat < 256 → rngf n = 0#32) ∧ ∃ m e, unpack f32 (rngf n).toNat = .fin false m e ∧
        (m : Rat) * 2 ^ e = ((n.toNat / 256 : Nat) : Rat) / 2 ^ 24) ∧
    (passes { rd := [.v a 7], wr := [.v d 8] } s = true → enabledLanes s.p.exec s.g.sys.fpen (fun l => (rsvUpdate s.g.sys.mcap.toNat (s.runOf d 8 l) (s.runOf a 7 l)).2) = 0#32 →
      Completes (exec (.rsvupd a d) s) (RunResult d 8 (fun l => (rsvUpdate s.g.sys.mcap.toNat (s.runOf d 8 l) (s.runOf a 7 l)).1) (orFlags s.p.exec fun l => (rsvUpdate s.g.sys.mcap.toNat (s.runOf d 8 l) (s.runOf a 7 l)).2) s)) ∧
    (passes { rd := [.v a 10], wr := [.v d 8] } s = true → enabledLanes s.p.exec s.g.sys.fpen (fun l => (let o := rsvMerge s.g.sys.mcap.toNat (s.runOf d 8 l) (s.runOf a 10 l) (s.g.vreg (a.toNat + 8) l) (s.g.vreg (a.toNat + 9) l); (o.1, o.2.1)).2) = 0#32 →
      Completes (exec (.rsvmrg a d) s) (RunResult d 8 (fun l => (let o := rsvMerge s.g.sys.mcap.toNat (s.runOf d 8 l) (s.runOf a 10 l) (s.g.vreg (a.toNat + 8) l) (s.g.vreg (a.toNat + 9) l); (o.1, o.2.1)).1) (orFlags s.p.exec fun l => (let o := rsvMerge s.g.sys.mcap.toNat (s.runOf d 8 l) (s.runOf a 10 l) (s.g.vreg (a.toNat + 8) l) (s.g.vreg (a.toNat + 9) l); (o.1, o.2.1)).2) s)) ∧
    (passes { wr := [.v d 8] } s = true → enabledLanes s.p.exec s.g.sys.fpen (fun l => (rsvNorm (s.runOf d 8 l)).2) = 0#32 →
      Completes (exec (.rsvnorm d) s) (RunResult d 8 (fun l => (rsvNorm (s.runOf d 8 l)).1) (orFlags s.p.exec fun l => (rsvNorm (s.runOf d 8 l)).2) s)) ∧
    (passes { wr := [.v d 8] } s = true → enabledLanes s.p.exec s.g.sys.fpen (fun l => (rsvNorm (s.runOf d 8 l)).2) ≠ 0#32 →
      Completes (exec (.rsvnorm d) s) fun t => t.g.trapped = true ∧ t.g.v = s.g.v ∧ t.g.s = s.g.s ∧ t.p.y0 = s.p.y0 ∧
        ∃ r, keyFind (t.core s.g.core).traps s.g.slot = some r ∧ r.cause = cFPEXC ∧
          r.lanes = enabledLanes s.p.exec s.g.sys.fpen (fun l => (rsvNorm (s.runOf d 8 l)).2))

/-- RSVLD reads the records of its active lanes, RSVST writes them, each record of 32 bytes alone; a pixel outside the image is 0 or nothing; both wait for the group's atomics in flight. The set of a reservoir line within its slice is the model's reading (log 17). -/
def Obligations.ReservoirStoreAccesses : Prop :=
  ∀ (s : State) (c : BitVec 4) (a d : BitVec 8),
    let ctl := s.readS (c.setWidth 7)
    let plane := (ctl.extractLsb' 0 2).toNat
    let l := s.launchOf s.g.team
    let px := s.pixels l plane a
    let die := fun (e : Nat × Nat × Nat) => if ctl.getLsbD 2 then dieOf s.g.core else l.ownerDie e.2.1 e.2.2
    let owner := fun (e : Nat × Nat × Nat) => l.ownerDie e.2.1 e.2.2
    let pa := fun (f : Nat × Nat × Nat → Nat) (e : Nat × Nat × Nat) => l.recordPa (f e) plane e.2.1 e.2.2
    let ready := fun (f : Nat × Nat × Nat → Nat) =>
      ∀ e ∈ px, s.ownedLine (rsvLine (pa f e)) = false ∧ lineOf (pa f e) ∉ s.dev.poisoned
    (passes { rd := [.s (c.setWidth 7) 1, .v a 2], wr := [.v d 8] } s = true → s.g.atomicsInFlight = false →
      (ready die → Completes (exec (.rsvld c a d) s) fun t => Advances s t ∧ t.g.s = s.g.s ∧ t.p.exec = s.p.exec ∧ KeepsPads s t ∧
        ∃ f : Nat → List Word, (∀ r k, k < 32 → storeRead t.g.v (32 * r + k) =
            if d.toNat ≤ r ∧ r < d.toNat + 8 ∧ bitOf s.p.exec k = true then wordAt (f k) (r - d.toNat) else storeRead s.g.v (32 * r + k)) ∧
          LastResult s.p.exec (fun k => wordAt (f k) 0) t.p.y0 ∧ LastResult s.p.exec (fun k => wordAt (f k) 1) t.p.y1 ∧
          (∀ k, (∀ e ∈ px, e.1 ≠ k) → f k = []) ∧ ∀ e, px = [e] → f e.1 = (s.readRecord l (die e) plane e.2.1 e.2.2).2 ∧
            (s.dev.rsvWays = 0 → f e.1 = recordOf s.mem (pa die e) ∧ KeepsGlobal s t)) ∧
      ((∃ e ∈ px, s.ownedLine (rsvLine (pa die e)) = true) → Completes (exec (.rsvld c a d) s) fun t => ∃ w, t = s.stall w) ∧
      ((∀ e ∈ px, s.ownedLine (rsvLine (pa die e)) = false) → (∃ e ∈ px, lineOf (pa die e) ∈ s.dev.poisoned) →
        Completes (exec (.rsvld c a d) s) (Trapped cMEMERR s))) ∧
    (s.g.atomicsInFlight = true →
      (passes { rd := [.s (c.setWidth 7) 1, .v a 2], wr := [.v d 8] } s = true → exec (.rsvld c a d) s = .next (s.stall .atomics)) ∧
      (passes { rd := [.s (c.setWidth 7) 1, .v a 2, .v d 8] } s = true → exec (.rsvst c a d) s = .next (s.stall .atomics))) ∧
    (passes { rd := [.s (c.setWidth 7) 1, .v a 2, .v d 8] } s = true → s.g.atomicsInFlight = false →
      (ready owner → Completes (exec (.rsvst c a d) s) fun t => KeepsRegisters s t ∧ Advances s t ∧ KeepsPads s t ∧
        (px = [] → KeepsGlobal s t) ∧ ∀ e, px = [e] → s.dev.rsvWays = 0 → ∀ x, storeRead t.mem x =
          if pa owner e ≤ x ∧ x < pa owner e + 32 then
            BitVec.ofNat 8 ((wordAt (s.runOf d 8 e.1) ((x - pa owner e) / 4)).toNat / 256 ^ ((x - pa owner e) % 4))
          else storeRead s.mem x) ∧
      ((∃ e ∈ px, s.ownedLine (rsvLine (pa owner e)) = true) → Completes (exec (.rsvst c a d) s) fun t => ∃ w, t = s.stall w) ∧
      ((∀ e ∈ px, s.ownedLine (rsvLine (pa owner e)) = false) → (∃ e ∈ px, lineOf (pa owner e) ∈ s.dev.poisoned) →
        Completes (exec (.rsvst c a d) s) (Trapped cMEMERR s)))

/-- TAGALLOC, TAGFREE, TAGQRY and TAGPURGE wait for the tag table, which allocates, frees, reports and purges as R251 to R255 say. That work comes up after the stated number of clk is the model's choice (log 7: the typical figure where the spec gives one). The order of the failure codes is the model's reading (log 44), the bits of a far tag's status that the spec does not state are free (log 37), and what a node of another module holds of a tag is the model's reading (log 47). -/
def Obligations.TagInstructionsAskAndAreAnswered : Prop :=
  (∀ (s : State) (c n t a d : BitVec 7),
    let asks := fun (k : ReqKind) (clk : Nat) (u : State) => u.p.wait = .request s.nextId ∧ u.p.stage = 1 ∧ u.p.pc = s.p.pc ∧
      keyFind u.dev.requests s.nextId = some { core := s.g.core, slot := s.g.slot, split := s.p.idx, kind := k } ∧
      Due clk (.tagNodeAcknowledgement s.nextId) s u ∧ KeepsRegisters s u ∧ KeepsMemory s u
    (passes { rd := [.s c 1], wr := [.s d 1], roles := 9#4 } s = true →
      (s.p.stage = 0 → Completes (exec (.tagalloc c d) s) (asks (.tagAlloc s.g.ctx (s.readS c).toNat (s.scopeMask s.g.ctx s.g.core s.g.team ((s.readS c).extractLsb' 2 5).toNat).toNat) 300)) ∧
      (s.p.stage ≠ 0 → ∀ v, s.p.reply = some v → Completes (exec (.tagalloc c d) s) (ScalarResult [] d (BitVec.ofNat 32 v) s))) ∧
    (passes { rd := [.s c 1, .s n 1], wr := [.s d 1], roles := 9#4 } s = true →
      (s.p.stage = 0 → Completes (exec (.tagallocTree n c d) s) (asks (.tagAlloc s.g.ctx ((s.readS c).toNat + 2 ^ 32 * ((s.readS n).toNat + 1)) (s.scopeMask s.g.ctx s.g.core s.g.team ((s.readS c).extractLsb' 2 5).toNat).toNat) (300 + (s.readS n).toNat / 16))) ∧
      (s.p.stage ≠ 0 → ∀ v, s.p.reply = some v → Completes (exec (.tagallocTree n c d) s) (ScalarResult [] d (BitVec.ofNat 32 v) s))) ∧
    (passes { rd := [.s t 1], roles := 9#4 } s = true →
      (s.p.stage = 0 → Completes (exec (.tagfree t) s) (asks (.tagFree s.g.ctx (s.readS t).toNat) 300)) ∧
      (s.p.stage ≠ 0 → ∀ v, s.p.reply = some v → Completes (exec (.tagfree t) s) (Passes s))) ∧
    (passes { rd := [.s t 1], wr := [.s d 1], roles := 9#4 } s = true →
      (s.p.stage = 0 → Completes (exec (.tagqry t d) s) (asks (.tagQuery s.g.ctx (s.readS t).toNat) (40 + fullingTime s.g.core (nodeOf (s.readS t).toNat) 0))) ∧
      (s.p.stage ≠ 0 → ∀ v, s.p.reply = some v → Completes (exec (.tagqry t d) s) (ScalarResult [] d (BitVec.ofNat 32 v) s))) ∧
    (passes { rd := [.s a 1], priv := true } s = true →
      (s.p.stage = 0 → Completes (exec (.tagpurge a) s) (asks (.tagPurge ((s.readS a).extractLsb' 0 16).toNat) (4 * clkPerUs))) ∧
      (s.p.stage ≠ 0 → ∀ v, s.p.reply = some v → Completes (exec (.tagpurge a) s) (Passes s)))) ∧
  (∀ (s : State) (req : Nat) (r : Request), keyFind s.dev.requests req = some r →
    let ack := exec (.tagNodeAcknowledgement req) s
    let told := fun (v : Nat) (t : State) => keyFind t.dev.requests req = none ∧ KeepsMemory s t ∧ ∀ g q, r.core ≠ 320 →
      s.group r.core r.slot = some g → q ∈ g.splits → q.idx = r.split → q.wait = .request req → (∀ x ∈ g.splits, x.live = true) → (∀ x ∈ g.splits, x.idx = q.idx → x = q) →
      Sees t r.core r.slot fun h => h.v = g.v ∧ h.s = g.s ∧ ∃ p ∈ h.splits, p.idx = q.idx ∧ p.reply = some v ∧ p.wait = .none
    (∀ ctx cls sc, r.kind = .tagAlloc ctx cls sc →
      let w := cls % 2 ^ 32
      let tree := 2 ^ 32 ≤ cls
      let n := cls / 2 ^ 32 - 1
      let kind := w % 4
      let home := w / 128 % 16
      let scope := BitVec.ofNat 320 sc
      let badClass := kind = 3 ∨ w / 2048 ≠ 0 ∨ (kind = 0 ∧ (scope = 0#320 ∨ (scope.extractLsb' 0 160 ≠ 0#160 ∧ scope.extractLsb' 160 160 ≠ 0#160))) ∨
        (kind < 2 ∧ home ≠ 0) ∨ (kind = 2 ∧ 8 < home)
      let badRanks := tree ∧ (n < 2 ∨ 4096 < n)
      let shut := kind = 2 ∧ home < 8 ∧ s.portOpen ctx home = false
      let count := if tree then n - 1 else 1
      (badClass → Completes ack fun t => told 0x30002 t ∧ t.dev.tags = s.dev.tags) ∧
      (¬ badClass → badRanks → Completes ack fun t => told 0x30003 t ∧ t.dev.tags = s.dev.tags) ∧
      (¬ badClass → ¬ badRanks → shut → Completes ack fun t => told 0x30004 t ∧ t.dev.tags = s.dev.tags) ∧
      (¬ badClass → ¬ badRanks → ¬ shut →
        (freeRun count 0 (s.usedTags ctx) = none → Completes ack fun t => told 0x30001 t ∧ t.dev.tags = s.dev.tags) ∧
        (∀ base, freeRun count 0 (s.usedTags ctx) = some base →
          let word := fun (i : Nat) => tagWord (storeRead s.dev.tagGens (tagKey ctx i)).toNat
            (tagPlace ctx kind (w / 4 % 32) (tagNodes kind home scope) i) kind i
          Completes ack fun t => told (word base) t ∧ (∀ k, keyFind t.dev.tags k =
            if tagKey ctx base ≤ k ∧ k < tagKey ctx base + count then
              some { word := word (k - tagKey ctx 0), base := base, ranks := if tree then n else 0 }
            else keyFind s.dev.tags k) ∧
            (r.core ≠ 320 → t.dev.outbox = s.dev.outbox ++ (List.range count).filterMap fun j =>
              match nodePort (nodeOf (word (base + j))) with
              | some port => if s.portOpen ctx port then some (.peerTag port ctx (word (base + j)) base (if tree then n else 0) .allocated) else none
              | none => none)))) ∧
    (∀ port ctx w base ranks news, r.kind = .nodeTag port ctx w base ranks news → Completes ack fun t =>
      keyFind t.dev.requests req = none ∧ KeepsMemory s t ∧
      (s.homeCtx port ctx = none → t.dev.tags = s.dev.tags) ∧
      ∀ c, s.homeCtx port ctx = some c →
        let own := s.tagAt c (homeWord w)
        let at_ := keyFind t.dev.tags (tagKey c (tagIndex w))
        (∀ k, k ≠ tagKey c (tagIndex w) → keyFind t.dev.tags k = keyFind s.dev.tags k) ∧
        (news = .allocated → at_ = match keyFind s.dev.tags (tagKey c (tagIndex w)) with
          | some x => some x
          | none => some { word := homeWord w, base := base, ranks := ranks }) ∧
        (news ≠ .allocated → at_ = if own.isSome then none else keyFind s.dev.tags (tagKey c (tagIndex w)))) ∧
    (∀ ctx w, r.kind = .tagFree ctx w → Completes ack fun t => told 0 t ∧
      ∀ x, tagKind w ≠ 3 → s.tagByGen ctx w = some x → x.base = tagIndex w → x.ranks = 0 →
        keyFind t.dev.tags (tagKey ctx (tagIndex w)) = none ∧
        storeRead t.dev.tagGens (tagKey ctx (tagIndex w)) = storeRead s.dev.tagGens (tagKey ctx (tagIndex w)) + 1#5) ∧
    (∀ ctx w, r.kind = .tagQuery ctx w → Completes ack fun t => told (s.tagStatus ctx w) t ∧ (r.core ≠ 320 → t.dev = { s.dev with requests := t.dev.requests })) ∧
    (∀ ctx, r.kind = .tagPurge ctx → Completes ack fun t => told 0 t ∧ (∀ i, i < 65536 → keyFind t.dev.tags (tagKey ctx i) = none) ∧
      ∀ e ∈ t.dev.msgs, e.2.ctx = ctx → e.2.place ≠ .store ∧ e.2.place ≠ .ring ∧ e.2.place ≠ .held ∧ e.2.place ≠ .heldRing)) ∧
  (∀ (s : State) (m o : BitVec 7), passes { rd := [.s o 1, .s m 1], roles := 9#4, path := some 5 } s = true →
    let off := (s.readS m).toNat
    let tile := (s.readS o).toNat
    let d := leNat (s.teamBytes s.g.team off 32)
    let ok := off % 16 = 0 ∧ tile % 128 = 0 ∧ s.ownBounds off 32 = true ∧ s.ownBounds tile (fdLen d) = true ∧ fdOk d = true
    let r := if s.p.stage = 0 then d + 2 ^ 256 * leNat (s.teamBytes s.g.team tile (fdLen d)) else s.p.reply.getD 0
    let msg := s.fullingMsg (r % 2 ^ 256) (putBytes [] 0 (leBytes (fdLen (r % 2 ^ 256)) (r / 2 ^ 256)))
    (s.p.stage = 0 → ¬ ok → Completes (exec (.fsend m o) s) (Trapped cSPBOUND s)) ∧
    ((s.p.stage = 0 → ok) → settled s = true → Completes (exec (.fsend m o) s) fun t => OnlyIssues s t ∧ KeepsMemory s t ∧
      InFlight { id := 0, flag := none, path := some 5, command := some (if nodeOf msg.tag < 320 then nodeOf msg.tag else 320) } s.nextId s t ∧
      keyFind t.dev.msgs (s.nextId + 1) = some { msg with sender := some (s.g.core, s.g.slot, s.nextId), inPort := inPort s.g.core (nodeOf msg.tag) } ∧
      Due (fullingTime s.g.core (nodeOf msg.tag) (msg.len / 128)) (.fullingOperandArrival (s.nextId + 1)) s t))

/-- A node stores, combines, drops or refuses an operand; orphans, retries and overflows follow their clocks; a delivery writes its bytes. That work comes up after the stated number of clk is the model's choice (log 7: the typical figure where the spec gives one). That what must wait is looked at again after a number of clk is the model's choice (log 2, log 7). When two operands agree, the destination of a final one, and what an operand that no binding of its port maps does, are the model's readings (log 19, log 47), and so are the places in a spill ring (log 18). -/
def Obligations.OperandsMeetAndAreDelivered : Prop :=
  (∀ (s : State) (msg : Nat) (m : FMsg), keyFind s.dev.msgs msg = some m → msg < s.nextId →
    let gone := fun (t : State) => keyFind t.dev.msgs msg = none
    let delivered := fun (x : FMsg) (t : State) =>
      let y := { x with place := .delivery, sender := none }
      match x.peer with
      | none => ∃ id clk, keyFind t.dev.msgs id = some y ∧ Due clk (.fullingDelivery id) s t
      | some port => t.dev.outbox = s.dev.outbox ++
          (if s.portOpen x.ctx port then [.peerOperand port y] else [])
    let credited := fun (t : State) => ∀ core slot op g, m.sender = some (core, slot, op) → s.group core slot = some g → (g.op op).isSome = true →
      (∀ h ∈ s.groups, (h.op op).isSome = true → h = g) → Sees t core slot fun h => h.v = g.v ∧ h.s = g.s ∧ ∀ x ∈ h.ops, x.id = op → x.done = true
    let u := s.dropMsg msg
    let arrives := fun (m : FMsg) (out : Out) =>
      let since := if m.place = .backoff then m.since else s.startOf m.ctx
      (s.tagAt m.ctx m.tag = none → Completes out fun t => gone t ∧ delivered { m with since := since, status := 2, from_ := none } t ∧ credited t ∧ KeepsMemory s t) ∧
      (∀ x, s.tagAt m.ctx m.tag = some x →
        (x.cause ≠ 0 → Completes out fun t => gone t ∧ credited t ∧ KeepsMemory s t ∧ t.tagAt m.ctx m.tag = some x.dropped) ∧
        (x.cause = 0 → m.status = 0 → u.waiting m.ctx m.tag (1 - m.leg) = none → u.waiting m.ctx m.tag m.leg = none →
          (u.storeUse m.node + m.len + 128 ≤ storeCap m.node → Completes out fun t => credited t ∧ KeepsMemory s t ∧
            keyFind t.dev.msgs msg = some { m with place := .store, sender := none, since := since, came := s.clock } ∧
            Due (max 1 (since + s.orphanClk m.ctx - s.clock)) (.orphanExpiry msg) s t) ∧
          (storeCap m.node < u.storeUse m.node + m.len + 128 → u.ringRoom m.ctx m.len = true → Completes out fun t => credited t ∧ KeepsPads s t ∧
            keyFind t.dev.msgs msg = some { m with place := .ring, sender := none, since := since, came := s.clock, ringAt := s.ringPlace m.ctx (128 + m.len) } ∧
            ∃ a ∈ t.agenda, a.ev = .spillSweep m.node ∧ a.due ≤ s.clock + max 1 (s.orphanClk m.ctx / 8)) ∧
          (storeCap m.node < u.storeUse m.node + m.len + 128 → u.ringRoom m.ctx m.len = false → Completes out fun t => KeepsMemory s t ∧
            keyFind t.dev.msgs msg = some { m with place := .backoff, since := since, tries := m.tries + 1 } ∧
            Due (clkPerUs * min 64 (2 ^ m.tries)) (.fsendRetry msg) s t)) ∧
        (x.cause = 0 → m.status = 0 → ∀ k y, u.waiting m.ctx m.tag (1 - m.leg) = some (k, y) → y.ctx = m.ctx → y.tag = m.tag → k < s.nextId →
          let l := if m.leg = 0 then m else y
          let r := if m.leg = 0 then y else m
          let c := combinePair l.op l.mcap l.tag l.ctx l.len l.data r.data
          (s.agree l r = true → s.onward l = none → Completes out fun t => gone t ∧ keyFind t.dev.msgs k = none ∧ credited t ∧ KeepsMemory s t ∧
            delivered { l with data := c.1, since := s.startOf l.ctx, status := 0, from_ := some l.tag } t ∧
            t.tagAt m.ctx m.tag = some { x with flags := x.flags ||| c.2, combines := min (x.combines + 1) 255 }) ∧
          (s.agree l r = false → Completes out fun t => gone t ∧ keyFind t.dev.msgs k = none ∧ credited t ∧
            (t.tagAt m.ctx m.tag).map Tag.cause = some 5)))
    (m.place ≠ .flight → (∀ k f, m.place ≠ .port k f) → exec (.fullingOperandArrival msg) s = .next s) ∧
    (m.place ≠ .backoff → exec (.fsendRetry msg) s = .next s) ∧
    (m.place = .flight → nodePort m.node = none → arrives m (exec (.fullingOperandArrival msg) s)) ∧
    (m.place = .backoff → arrives m (exec (.fsendRetry msg) s)) ∧
    (m.place = .flight → ∀ port, nodePort m.node = some port → Completes (exec (.fullingOperandArrival msg) s) fun t => gone t ∧ credited t ∧
      (s.portOpen m.ctx port = true → t.dev.outbox = s.dev.outbox ++ [.peerOperand port { m with sender := none }]) ∧
      (s.portOpen m.ctx port = false → m.sender.isSome = true → delivered { m with status := 2, from_ := none } t) ∧
      (s.portOpen m.ctx port = false → m.sender = none → t.dev = u.dev)) ∧
    (∀ port final, m.place = .port port final →
      let out := exec (.fullingOperandArrival msg) s
      let bound := s.dev.bindings.find? fun b => b.2.2.1 == port && b.2.2.2 == m.ctx
      (bound = none → Completes out fun t => gone t ∧ KeepsMemory s t) ∧
      ∀ b, bound = some b →
        (final = true → Completes out fun t => gone t ∧ delivered { m with ctx := b.2.1, peer := none, from_ := none, since := s.startOf b.2.1 } t) ∧
        (final = false → m.tree = none →
          arrives { m with ctx := b.2.1, tag := homeWord m.tag, node := 384 + tagNode m.tag % 8, inPort := 5, place := .flight, peer := some port } out)) ∧
    ((s.ctx m.ctx).suspended = false →
      let late := s.expired m = true
      let quiet := s.arrivesNow m.node = false
      let laterIf := fun (p : Prop) (ev : Event) => p → ¬ late →
        Completes (exec (eventInstr ev) s) (LooksAgain (max 1 (m.since + s.orphanClk m.ctx - s.clock)) ev s)
      let firstArrivals := fun (p : Prop) (ev : Event) => p → late → ¬ quiet → Completes (exec (eventInstr ev) s) (LooksAgain 0 ev s)
      let poisoned := fun (n : Nat) (t : State) => ∀ x, s.tagAt m.ctx m.tag = some x →
        t.tagAt m.ctx m.tag = some { x with cause := if x.cause = 0 then n else x.cause }
      laterIf (m.place = .backoff) (.fsendOverflow msg) ∧ laterIf (m.place = .store) (.orphanExpiry msg) ∧
      laterIf (m.place = .held ∧ s.destOf m = .waits) (.heldDeliveryExpiry msg) ∧
      firstArrivals (m.place = .backoff) (.fsendOverflow msg) ∧ firstArrivals (m.place = .store) (.orphanExpiry msg) ∧
      (m.place = .backoff → late → quiet → (∀ x, s.tagAt m.ctx m.tag = some x → x.cause = 0) → s.onward m = none →
        Completes (exec (.fsendOverflow msg) s) fun t => gone t ∧ credited t ∧ delivered { m with status := 3, from_ := some m.tag } t ∧
          KeepsMemory s t ∧ ((s.tagAt m.ctx m.tag).isSome = true → (t.tagAt m.ctx m.tag).map Tag.cause = some 3 ∧
            ∀ e ∈ t.dev.msgs, e.2.ctx = m.ctx → e.2.tag = m.tag → e.2.place ≠ .store ∧ e.2.place ≠ .ring)) ∧
      (m.place = .store → late → quiet → s.onward m = none →
        Completes (exec (.orphanExpiry msg) s) fun t => gone t ∧ poisoned 1 t ∧ delivered { m with status := 1, from_ := some m.tag } t ∧
          KeepsMemory s t) ∧
      (m.place = .ring → quiet → s.onward m = none → s.dev.msgs.filter (fun e => e.2.node == m.node && e.2.spilled && s.expired e.2) = [(msg, m)] →
        Completes (exec (.spillSweep m.node) s) fun t => gone t ∧ poisoned 1 t ∧ delivered { m with status := 1, from_ := some m.tag } t ∧
          KeepsMemory s t) ∧
      (m.place = .held → s.destOf m = .waits → late → Completes (exec (.heldDeliveryExpiry msg) s) fun t => gone t ∧ KeepsMemory s t)) ∧
    (m.place = .delivery ∨ m.place = .held ∨ m.place = .heldRing →
      (s.destOf m = .gone → Completes (exec (.fullingDelivery msg) s) fun t => gone t ∧ KeepsMemory s t) ∧
      (∀ k, s.destOf m = .runs k → Completes (exec (.fullingDelivery msg) s) fun t => gone t ∧ KeepsGlobal s t ∧
        let at_ := (s.team k).spbase + m.offset
        let bar := (s.team k).spbase + m.barrier
        ∀ c x, ¬ (c = (s.team k).core ∧ bar ≤ x ∧ x < bar + 16) → storeRead (t.core c).spad x =
          if c = (s.team k).core ∧ at_ ≤ x ∧ x < at_ + m.len ∧ s.deliverable k m.offset m.len = true then storeRead m.data (x - at_)
          else storeRead (s.core c).spad x))) ∧
  (∀ (s : State) (node ctx : Nat) (cap : BitVec 32),
    let quiet := s.arrivesNow node = false
    (¬ quiet → Completes (exec (.spillSweep node) s) (LooksAgain 0 (.spillSweep node) s)) ∧
    ((∀ e ∈ s.dev.msgs, ¬ (e.2.node = node ∧ e.2.spilled = true)) →
      (quiet → exec (.spillSweep node) s = .next s) ∧ exec (.fullingReload node) s = .next s) ∧
    (quiet → (∃ e ∈ s.dev.msgs, e.2.node = node ∧ e.2.spilled = true) →
      (∀ e ∈ s.dev.msgs, e.2.node = node → e.2.spilled = true → s.expired e.2 = false) →
      Completes (exec (.spillSweep node) s) fun t => { t with agenda := s.agenda, nextId := s.nextId } = s ∧
        ∃ a ∈ t.agenda, a.ev = .spillSweep node ∧
          ∀ e ∈ s.dev.msgs, e.2.node = node → e.2.spilled = true → a.due ≤ s.clock + max 1 (s.orphanClk e.2.ctx / 8)) ∧
    (storeCap node / 2 ≤ s.storeUse node → exec (.fullingReload node) s = .next s) ∧
    (s.storeUse node < storeCap node / 2 → ∀ id m, (id, m) ∈ s.dev.msgs → m.node = node → (m.place = .ring ∨ m.place = .heldRing) →
      (s.ctx m.ctx).suspended = false →
      (∀ e ∈ s.dev.msgs, e.2.node = node → e.2.spilled = true → (s.ctx e.2.ctx).suspended = false → e ≠ (id, m) → m.came < e.2.came) →
      Completes (exec (.fullingReload node) s) fun t => KeepsMemory s t ∧ Due 1 (.fullingReload node) s t ∧
        keyFind t.dev.msgs id = some { m with place := if m.place = .heldRing then .held else .store }) ∧
    Completes (exec (.fullingSpillRefill ctx cap) s) (fun t => t.ctx ctx = { s.ctx ctx with fspcap := cap } ∧ KeepsMemory s t ∧
      (∀ c, c ≠ ctx → t.ctx c = s.ctx c) ∧
      let low := (t.ctx ctx).ringLow (s.ringUse ctx) = true
      t.dev.outbox = s.dev.outbox ++ (if low ∧ s.dev.hmode.getLsbD 2 = true then [.spillRefill ctx] else []) ∧
      (SupAsk.spillRefill ctx ∈ t.dev.asked ↔ low ∧ s.dev.hmode.getLsbD 2 = false)))

/-- POST takes a card whose count is 0 to its queue and lets any other wait, on P7; DEPDEC adds its card to the open region. That work comes up after the stated number of clk is the model's choice (log 7: the typical figure where the spec gives one). That what must wait is looked at again after a number of clk is the model's choice (log 2, log 7). When an entry of a full pending table counts is the model's reading (log 51). -/
def Obligations.CardsArePostedAndDecremented : Prop :=
  (∀ (s : State) (arg card target : BitVec 7), passes { rd := [.s target 1, .s card 2, .s arg 2], path := some 7 } s = true →
    let out := exec (.post arg card target) s
    let va := (s.win 0).toNat * 2 ^ 64 + (s.readS64 card).toNat
    let tgt := (s.readS target).toNat
    (7 < tgt → Completes out (Trapped cSPBOUND s)) ∧
    let fresh := ∀ p v x, s.p.kept ≠ some (.card p v x)
    (tgt ≤ 7 → va % 64 ≠ 0 → Completes out (Trapped cMISALIGN s)) ∧
    (tgt ≤ 7 → va % 64 = 0 → fresh → s.lookup va accR = .miss → Completes out fun t => t.p.wait = .walk (va / 65536) accR ∧
      Due 40 (.pageWalk s.g.core s.g.ctx (BitVec.ofNat 80 va) accR) s t ∧ t.g = s.g ∧ KeepsMemory s t) ∧
    (tgt ≤ 7 → va % 64 = 0 → fresh → ∀ pa x, s.lookup va accR = .hit pa x → lineOf pa ∈ s.dev.poisoned → Completes out (Trapped cMEMERR s)) ∧
    (tgt ≤ 7 → va % 64 = 0 → ∀ pa, ((∃ v x, s.p.kept = some (.card pa v x) ∧ s.p.stale = false) ∨
        (fresh ∧ (∃ x, s.lookup va accR = .hit pa x) ∧ lineOf pa ∉ s.dev.poisoned)) → settled s = true →
      let op := s.p.reply.getD s.nextId
      let raised := if s.p.reply = none then [{ id := op, flag := none, path := some 7 }] else ([] : List Async)
      let new := if s.p.reply = none then s.nextId + 1 else s.nextId
      let task := s.postTask pa va tgt (if arg = 125#7 then none else some (s.readS64 arg).toNat) op
      let issues := fun (t : State) => OnlyIssues s t ∧ KeepsMemory s t ∧ t.g.ops = s.g.ops ++ raised
      (s.ownedLine (lineOf pa) = true → Completes out fun t => KeepsMemory s t ∧ t.p.wait = .owned (lineOf pa) ∧ t.p.pc = s.p.pc ∧
        t.p.reply = some op ∧ (∃ v x, t.p.kept = some (.card pa v x)) ∧ t.g.ops = s.g.ops ++ raised ∧ t.g.v = s.g.v ∧ t.g.s = s.g.s) ∧
      (s.ownedLine (lineOf pa) = false → lineOf pa ∈ s.dev.poisoned → Completes out fun t => KeepsMemory s t ∧ t.g.trapped = true ∧ t.g.v = s.g.v ∧
        t.g.s = s.g.s ∧ ∃ r, keyFind (t.core s.g.core).traps s.g.slot = some r ∧ r.cause = cMEMERR) ∧
      (s.ownedLine (lineOf pa) = false → lineOf pa ∉ s.dev.poisoned →
        (depOf s.mem pa = 0 → ∀ k, s.takeCard task = (k, none) → Completes out fun t => issues t ∧
          t.dev.posted = s.dev.posted ++ [{ k with id := new }] ∧ Due (acceptTime tgt) (.taskQueueAcceptance new) s t) ∧
        (depOf s.mem pa = 0 → ∀ k n, s.takeCard task = (k, some n) → s.p.live = true → Completes out fun t => KeepsMemory s t ∧ Advances s t ∧ t.g.v = s.g.v ∧
          t.g.s = s.g.s ∧ ∃ id g, keyFind t.dev.grids id = some g ∧ g.refused = some n ∧ Due 1 (.gridEnd id) s t) ∧
        (depOf s.mem pa ≠ 0 → Completes out fun t => issues t ∧
          t.dev.pendingCards = s.dev.pendingCards ++ [{ task with id := new }] ∧ t.dev.posted = s.dev.posted)))) ∧
  (∀ (s : State) (b : BitVec 7), passes { rd := [.s b 2] } s = true →
    let va := (s.win 0).toNat * 2 ^ 64 + (s.readS64 b).toNat
    ∀ pa x, s.lookup va accW = .hit pa x →
      (lineOf pa ∈ s.dev.poisoned → Completes (exec (.depdec b) s) (Trapped cMEMERR s)) ∧
      (lineOf pa ∉ s.dev.poisoned → overfull 64 s.g.region.writeLines [lineOf pa] = false →
      Completes (exec (.depdec b) s) fun t => OnlyIssues s t ∧ KeepsMemory s t ∧ t.g.ops = s.g.ops ∧ t.dev = s.dev ∧
        t.g.region.depdecs = s.g.region.depdecs ++ [pa] ∧ ∃ e, keyFind t.g.region.stores (lineOf pa) = some e ∧ e.va = va / 128 ∧
          (∀ l, l ≠ lineOf pa → keyFind t.g.region.stores l = keyFind s.g.region.stores l))) ∧
  (∀ (s : State) (msg : Nat),
    let out := exec (.taskQueueAcceptance msg) s
    let lowered := fun (k : Task) (t : State) => ∀ core slot op g, k.poster = some (core, slot, op) → s.group core slot = some g →
      Sees t core slot fun h => h.v = g.v ∧ h.s = g.s ∧ ∀ x ∈ h.ops, x.id = op → x.done = true
    (∀ k, s.dev.posted.find? (fun t => t.id == msg) = some k →
      let key := queueKey k.core k.target
      (queueCap key ≤ (s.taskQueue key).length → Completes out (LooksAgain 1 (.taskQueueAcceptance msg) s)) ∧
      ((s.taskQueue key).length < queueCap key → (s.ctx k.ctx).failed = false → Completes out fun t => lowered k t ∧ KeepsMemory s t ∧
        t.dev.posted = (s.dev.posted.filter fun x => x.id != msg) ∧
        (∃ id, t.taskQueue key = s.taskQueue key ++ [{ k with id := id, grid := id, poster := none }] ∧ (keyFind t.dev.grids id).isSome = true) ∧
        Due 1 (.teamPlacement 0) s t ∧ Due 1 (.teamPlacement 1) s t)) ∧
    ((∀ k ∈ s.dev.posted, k.id ≠ msg) → ∀ k, s.dev.pendingCards.find? (fun t => t.id == msg) = some k →
      ((s.dev.pendingCards.takeWhile fun t => t.id != msg).length < pendingSize → Completes out fun t => lowered k t ∧ KeepsMemory s t ∧
        t.dev.pendingCards = s.dev.pendingCards.map fun x => if x.id = msg then { x with poster := none } else x) ∧
      (pendingSize ≤ (s.dev.pendingCards.takeWhile fun t => t.id != msg).length →
        Completes out (LooksAgain 16 (.taskQueueAcceptance msg) s))) ∧
    ((∀ k ∈ s.dev.posted, k.id ≠ msg) → (∀ k ∈ s.dev.pendingCards, k.id ≠ msg) → out = .next s))

/-- The first head that fits places its team with its groups; a team and a grid end when nothing is left of them; a launch is checked, then queued. That work comes up after the stated number of clk is the model's choice (log 7: the typical figure where the spec gives one). That what must wait is looked at again after a number of clk is the model's choice (log 2, log 7). The lowest free slots, granules, queues and core are the model's choice (log 23). -/
def Obligations.TeamsStartAndEnd : Prop :=
  (∀ (s : State) (die : Nat),
    let found := (s.heads die).findSome? fun e => (s.findPlace e.2 (topsOf die e.1)).map fun p => (e, p)
    let out := exec (.teamPlacement die) s
    (found = none → out = .next s) ∧
    (∀ key k top fits, found = some ((key, k), top, fits) → Completes out fun t => KeepsGlobal s t ∧ Due 1 (.teamPlacement die) s t) ∧
    (∀ key k top f gr, found = some ((key, k), top, [some f]) → k.card.w = 1 → k.card.h = 1 → k.again = [] → k.saved = [] →
      keyFind s.dev.grids k.grid = some gr → gr.credits = [] → gr.ticket < k.card.teams →
      Completes out fun t => let num := s.nextId + 1
        t.g = s.g ∧ t.p = s.p ∧
        (∃ tm, keyFind t.dev.teams num = some tm ∧ tm.core = top ∧ tm.tslot = f.tslot ∧ tm.index = gr.ticket ∧ tm.grid = k.grid ∧
          tm.ctx = k.ctx ∧ tm.spbase = f.spb ∧ tm.spsize = k.card.spad ∧ tm.groups = k.card.groups) ∧
        (keyFind t.dev.grids k.grid).map Grid.ticket = some (gr.ticket + 1) ∧
        (keyFind t.dev.queues key) = (keyFind s.dev.queues key).map (fun l => if k.card.teams ≤ gr.ticket + 1 then l.tail else l) ∧
        t.others = s.others ++ (f.slots.map fun e => newGroup k num top gr.ticket e.1 e.2 (s.clock + 220)) ∧
        (∀ x, storeRead (t.core top).spad x = if f.spb ≤ x ∧ x < f.spb + k.card.spad then 0#8 else storeRead (s.core top).spad x) ∧
        ∀ e ∈ f.slots, ∃ g ∈ t.others, g.core = top ∧ g.slot = e.2 ∧ g.gid = e.1 ∧ g.team = num ∧ g.role = k.card.roleOf e.1 ∧
          storeRead g.s 0 = BitVec.ofNat 32 k.card.arg ∧ storeRead g.s 1 = BitVec.ofNat 32 (k.card.arg / 2 ^ 32) ∧
          storeRead g.s 2 = BitVec.ofNat 32 gr.ticket ∧ storeRead g.s 3 = BitVec.ofNat 32 k.card.groups ∧
          (∀ r, 4 ≤ r → storeRead g.s r = 0#32) ∧ (∀ a, storeRead g.v a = 0#32) ∧ g.sys.gang = 1#32 <<< e.1)) ∧
  (∀ (s : State) (team : Nat),
    ((∀ tm, keyFind s.dev.teams team = some tm → tm.released = true ∨ tm.ending = false) → exec (.teamEnd team) s = .next s) ∧
    (∀ tm, keyFind s.dev.teams team = some tm → tm.released = false → tm.ending = true →
      (∀ e ∈ s.cores, ∀ c ∈ e.2.copies, ¬ (c.2.team = team ∧ c.2.suspended = true)) →
      (s.engineBusy team = true ∨ s.slotsHeld team = true → Completes (exec (.teamEnd team) s) (LooksAgain 16 (.teamEnd team) s)) ∧
      (s.engineBusy team = false → s.slotsHeld team = false → tm.maps = [] → ((keyFind s.dev.clusters tm.cluster).map Cluster.aborted).getD false = false →
        Completes (exec (.teamEnd team) s) fun t => KeepsMemory s t ∧ keyFind t.dev.teams team = none ∧
          (∀ e ∈ (t.core tm.core).slots, e.2.team ≠ team) ∧ (∀ e ∈ (t.core tm.core).tiles, e.2.team ≠ team) ∧
          tm.region ∉ (t.ctx tm.ctx).regions ∧ ∀ gr, keyFind s.dev.grids tm.grid = some gr →
            keyFind t.dev.grids tm.grid = some { gr with ended := gr.ended ++ [tm.index], faultmask := gr.faultmask ||| tm.faultmask }))) ∧
  (∀ (s : State) (grid : Nat) (g : Grid), keyFind s.dev.grids grid = some g →
    let isOver := g.refused.isSome || g.failed || decide (g.task.card.teams ≤ g.ended.length)
    let status := if g.refused.isSome then 1 else if g.failed then 2 else 0
    let out := exec (.gridEnd grid) s
    (isOver = false → out = .next s) ∧
    (isOver = true → (∃ e ∈ s.dev.teams, e.2.grid = grid) → Completes out (LooksAgain 16 (.gridEnd grid) s)) ∧
    (isOver = true → (∀ e ∈ s.dev.teams, e.2.grid ≠ grid) → g.task.card.successor = 0 →
      let win := match g.wins with | some l => l.getD g.task.card.win 0 | none => (storeRead (s.ctx g.task.ctx).win g.task.card.win).toNat
      let told := fun (u t : State) => g.task.launched = true →
        t.dev.outbox = u.dev.outbox ++ [.completion g.task.ctx g.task.cardVa status (g.refused.getD 0) g.faultmask g.ended.length]
      (g.task.card.completion = 0 → Completes out fun t => keyFind t.dev.grids grid = none ∧ told s t) ∧
      (∀ u, s.reach g.task.ctx win g.task.card.completion = (u, .again) → Completes out (LooksAgain 438 (.gridEnd grid) u)) ∧
      (∀ u pa, s.reach g.task.ctx win g.task.card.completion = (u, .pa pa) → keyFind u.dev.launches g.task.launch = none →
        Completes out fun t => keyFind t.dev.grids grid = none ∧ told u t ∧
          readBytes t.mem pa 4 = status ∧ readBytes t.mem (pa + 4) 4 = (g.refused.getD 0) % 2 ^ 32 ∧
          readBytes t.mem (pa + 8) 4 = g.faultmask.toNat ∧ readBytes t.mem (pa + 12) 4 = g.ended.length % 2 ^ 32 ∧
          ∀ x, x < pa ∨ pa + 16 ≤ x → storeRead t.mem x = storeRead u.mem x))) ∧
  (∀ (s : State) (block : Nat),
    (keyFind s.dev.inbox block = none → exec (.launchMessage block) s = .next s) ∧
    (∀ bytes, keyFind s.dev.inbox block = some bytes →
      let b := leNat (bytes.take 256)
      let c := b % 2 ^ 512
      let k := cardOf c
      let ctx := b / 2 ^ 1536 % 65536
      let mask := if k.scope < 3 then 0 else (s.scopeMask ctx 0 0 k.scope).toNat
      let reason := firstFail (cardChecks c (scopeFits mask k.w k.h) true ++ blockChecks b)
      let noMap := b / 2 ^ 520 % 8 = 0
      (∀ r, reason = some r → (r ≤ 72 ∨ noMap) → Completes (exec (.launchMessage block) s) fun t => KeepsMemory s t ∧
        keyFind t.dev.inbox block = none ∧ ∃ id g, keyFind t.dev.grids id = some g ∧ g.refused = some r ∧ g.task.launched = true ∧
          Due 1 (.gridEnd id) s t) ∧
      (reason = none → noMap → b / 2 ^ 1792 % 65536 = 0 → (s.taskQueue deviceQueue).length < queueCap deviceQueue →
        (s.ctx ctx).failed = false → Completes (exec (.launchMessage block) s) fun t => keyFind t.dev.inbox block = none ∧
          (∃ x, t.taskQueue deviceQueue = s.taskQueue deviceQueue ++ [x] ∧ x.card = k ∧ x.ctx = ctx ∧ x.launched = true ∧ x.scopeMask = mask) ∧
          (∀ w, w < 8 → storeRead (t.ctx ctx).win w = BitVec.ofNat 16 (blockWin b w)) ∧
          Due 393 (.teamPlacement 0) s t ∧ Due 393 (.teamPlacement 1) s t)))

/-- RINGARR and RINGWAIT act on the phase of a stage, MBOXSEND on a mailbox; a barrier takes its groups in and releases them with the last. That work comes up after the stated number of clk is the model's choice (log 7: the typical figure where the spec gives one). -/
def Obligations.RingsMailboxesAndBarriers : Prop :=
  (∀ (s : State) (r p m v : BitVec 7),
    let x := s.readS r
    let ring := s.myTeam.rbase + x.toNat % 16
    let stage := x.toNat / 16 % 8
    let inside := x.toNat % 16 < s.myTeam.card.rings ∧ stage < s.myTeam.card.stages
    (passes { rd := [.s r 1], path := some 7 } s = true →
      (inside → Completes (exec (.ringarr r) s) fun t => OnlyIssues s t ∧ KeepsMemory s t ∧
        InFlight { id := 0, flag := none, path := some 7 } s.nextId s t ∧ Due 4 (.globalLoadReturn s.g.core s.g.slot s.nextId) s t ∧
        ∀ c n, storeRead (t.core c).phases n = if c = s.g.core ∧ n = 8 * ring + stage then ~~~(storeRead (s.core c).phases n)
          else storeRead (s.core c).phases n) ∧
      (¬ inside → Completes (exec (.ringarr r) s) (Trapped cREGBOUND s))) ∧
    (passes { rd := [.s r 1, .s p 1] } s = true → (¬ inside → Completes (exec (.ringwait p r) s) (Trapped cREGBOUND s)) ∧
      (inside → s.g.region.held = [] → s.p.stage = 0 →
        let ph := (storeRead (s.core s.g.core).phases (8 * ring + stage)).toNat
        (ph = (s.readS p).toNat % 2 → Completes (exec (.ringwait p r) s) (Passes s)) ∧
        (ph ≠ (s.readS p).toNat % 2 → Completes (exec (.ringwait p r) s) fun t => Passes s t ∧
          t.p.wait = .ring s.g.core ring stage ((s.readS p).toNat % 2)))) ∧
    (passes { rd := [.s v 1, .s m 1], path := some 7 } s = true → settled s = true →
      let box := (s.readS m).toNat % 16
      let die := (s.readS m).toNat / 16 % 2
      Completes (exec (.mboxsend m v) s) fun t => OnlyIssues s t ∧ KeepsMemory s t ∧
        InFlight { id := 0, flag := none, path := some 7 } s.nextId s t ∧
        Due (if die = dieOf s.g.core then 150 else 400) (.signalStore { ctx := s.g.ctx, core := s.g.core, op := s.nextId } die box (s.readS v)) s t)) ∧
  (∀ (s : State) (ctx die box core op : Nat) (v : BitVec 32), Completes (exec (.signalStore { ctx := ctx, core := core, op := op } die box v) s) fun t => KeepsMemory s t ∧
    (∀ n, storeRead (t.ctx ctx).boxes n = if n = 16 * die + box then v else storeRead (s.ctx ctx).boxes n) ∧
    (∀ c, c ≠ ctx → t.ctx c = s.ctx c) ∧ ∀ g, s.groups.find? (fun g => g.core == core && (g.op op).isSome) = some g →
      s.group core g.slot = some g → Sees t core g.slot fun h => h.v = g.v ∧ h.s = g.s ∧ ∀ x ∈ h.ops, x.id = op → x.done = true) ∧
  (∀ (s : State) (b : BitVec 4) (b2 : BitVec 2) (c : BitVec 5) (k a : BitVec 7),
    let n := (s.readS a).toNat
    let opened := fun (cap : Nat) (o : Option Barrier) => o.getD { expected := min n cap, auto := n == 0, arrived := [] }
    let id := (s.g.ctx, dieOf s.g.core, c.toNat, (s.readS k).toNat)
    let mask := if s.p.stage = 0 then s.myScope c else s.p.scope
    let cmds := s.commandsIn mask
    let members := if n = 0 then s.scopeLive s.myTeam.grid (dieOf s.g.core) mask else []
    (passes { rd := [.s a 1] } s = true → settled s = true → ∃ u : State, KeepsGroupButRegion s u ∧ Advances s u ∧ u.p.wait = .barTeam b.toNat ∧
      KeepsMemory s u ∧ ∀ tm, keyFind s.dev.teams s.g.team = some tm →
        keyFind (u.team s.g.team).bars b.toNat = some (opened tm.groups (keyFind tm.bars b.toNat)) ∧ exec (.barTeam b a) s = .next (u.arrivals s.g.core s.g.slot)) ∧
    (passes { rd := [.s a 1] } s = true → settled s = true → ∃ u : State, KeepsGroupButRegion s u ∧ Advances s u ∧ u.p.wait = .barClu b2.toNat ∧
      KeepsMemory s u ∧ ∀ e, keyFind s.dev.clusters s.myTeam.cluster = some e →
        (keyFind u.dev.clusters s.myTeam.cluster).bind (fun e => keyFind e.bars b2.toNat) =
          some (opened (e.teams.length * s.myTeam.groups) (keyFind e.bars b2.toNat)) ∧ exec (.barClu b2 a) s = .next (u.arrivals s.g.core s.g.slot)) ∧
    (cmds = [] ∨ s.p.stage = 2 → (passes { rd := [.s a 1, .s k 1] } s = true → settled s = true → ∃ u : State, KeepsGroupButRegion s u ∧ Advances s u ∧ u.p.wait = .barScope c.toNat (s.readS k).toNat ∧
      KeepsMemory s u ∧ (u.dev.scopeBars.find? fun e => e.1 == id).map Prod.snd =
        some (((s.dev.scopeBars.find? fun e => e.1 == id).map Prod.snd).getD { newBarrier n n with members := members }) ∧ exec (.barScope c k a) s = .next (u.arrivals s.g.core s.g.slot))) ∧
    (passes { rd := [.s a 1, .s k 1] } s = true → settled s = true → cmds ≠ [] → s.p.stage < 2 → Completes (exec (.barScope c k a) s) fun t =>
      t.p.wait = .fence cmds ∧ t.p.stage = 2 ∧ t.p.pc = s.p.pc ∧ KeepsGroupButRegion s t ∧ KeepsMemory s t) ∧
    (settled s = false → (passes { rd := [.s a 1] } s = true → ∀ i ∈ [Instr.barTeam b a, .barClu b2 a, .waitx b a],
        exec i s = .next s.txForbid.beginCommit) ∧
      (passes { rd := [.s a 1, .s k 1] } s = true → exec (.barScope c k a) s = .next (s.noteScope c).txForbid.beginCommit) ∧
      (passes { rd := [.s a 1, .s k 1], path := some 7 } s = true → exec (.mboxsend k a) s = .next s.txForbid.beginCommit) ∧
      (passes {} s = true → exec .rcommit s = .next s.txForbid.beginCommit ∧ exec (.fence c) s = .next (s.noteScope c).txForbid.beginCommit))) ∧
  (∀ (u : State) (core slot b n key : Nat) (g : Group) (tm : Team) (x : Barrier), u.group core slot = some g → g.isThread = true →
    g.movers ≠ [] → keyFind u.dev.teams g.team = some tm →
    let y := if (core, slot) ∈ x.arrived then x else { x with arrived := x.arrived ++ [(core, slot)] }
    let needed := fun (live : Nat) => if y.auto then live else y.expected
    let t := u.arrivals core slot
    let freed := fun (sel : Group → Prop) (w : Wait) => ∀ h ∈ t.groups, sel h → h.isThread = true → ∀ q ∈ h.splits, q.wait ≠ w
    ((∀ q ∈ g.movers, q.wait = .barTeam b) → keyFind tm.bars b = some x → keySorted tm.bars = true →
      KeepsMemory u t ∧ (y.arrived.length < needed (u.teamGroups g.team).length → keyFind (t.team g.team).bars b = some y) ∧
      (needed (u.teamGroups g.team).length ≤ y.arrived.length → keyFind (t.team g.team).bars b = none ∧
        freed (fun h => h.team = g.team) (.barTeam b))) ∧
    (∀ e, (∀ q ∈ g.movers, q.wait = .barClu b) → keyFind u.dev.clusters tm.cluster = some e → keyFind e.bars b = some x →
      keySorted e.bars = true →
      let live := (e.teams.map fun k => (u.teamGroups k).length).sum
      let bar := (keyFind t.dev.clusters tm.cluster).bind fun e => keyFind e.bars b
      KeepsMemory u t ∧ (y.arrived.length < needed live → bar = some y) ∧
      (needed live ≤ y.arrived.length → bar = none ∧ freed (fun h => h.team ∈ e.teams) (.barClu b))) ∧
    (let id := (g.ctx, dieOf core, n, key)
     (∀ q ∈ g.movers, q.wait = .barScope n key) → (id, x) ∈ u.dev.scopeBars → (∀ e ∈ u.dev.scopeBars, e.1 = id → e.2 = x) →
      KeepsMemory u t ∧ (y.arrived.length < needed y.members.length → (id, y) ∈ t.dev.scopeBars) ∧
      (needed y.members.length ≤ y.arrived.length → (∀ e ∈ t.dev.scopeBars, e.1 ≠ id) ∧
        freed (fun h => h.ctx = g.ctx ∧ dieOf h.core = dieOf core) (.barScope n key))))

/-- Walks, links, lost flits, power, heat, boot, slice registers, outside accesses and scrubbing do what R401 and chapter 17 say, and no more. That work comes up after the stated number of clk is the model's choice (log 7: the typical figure where the spec gives one). That what must wait is looked at again after a number of clk is the model's choice (log 2, log 7). The bytes and registers that no write of the spec's has set (log 3, log 4), what stands in DRAM below a dirty line (log 11), the boot's constants (log 28), how a measurement is extended (log 29), what housekeeping sends (log 30), where a trap that no instruction raises goes (log 54), and what a store to a slice register without all of its bytes does (log 55) are the model's. -/
def Obligations.ModuleEvents : Prop :=
  (∀ (s : State) (core ctx kind : Nat) (va : BitVec 80), ∀ i ∈ [Instr.pageWalk core ctx va kind, .migratingRetry core ctx va kind],
    let page := va.toNat / 65536
    let key := (core, ctx, page)
    let waiter := fun (u t : State) (f : Split → Split → Prop) => ∀ slot g q, u.group core slot = some g → g.ctx = ctx → q ∈ g.splits →
      q.wait = .walk page kind → (∀ x ∈ g.splits, x.live = true) → (∀ x ∈ g.splits, x.idx = q.idx → x = q) →
      Sees t core slot fun h => h.v = g.v ∧ h.s = g.s ∧ ∃ p ∈ h.splits, p.idx = q.idx ∧ p.wait = .none ∧ f q p
    let hit := fun (u : State) (e : Tlb) (t : State) => t.mem = u.mem ∧ KeepsPads u t ∧ e ∈ (t.core core).tlb ∧
      waiter u t fun q p => p.xlat = q.xlat ++ [e]
    let failed := fun (u : State) (f : XFault) (t : State) => t.mem = u.mem ∧ KeepsPads u t ∧ waiter u t fun _ p =>
      p.walkFault = some { page := page, acc := kind, cause := f.cause, kind := f.kind, level := f.level }
    (∀ e, s.level2 core ctx va.toNat = some e → (s.tlbFault e kind = none → Completes (exec i s) (hit s e)) ∧
      ∀ f, s.tlbFault e kind = some f → Completes (exec i s) (failed s f)) ∧
    (s.level2 core ctx va.toNat = none → ∀ u, (∀ e p a, s.walkFor ctx va.toNat kind = (u, .leaf e p a) → Completes (exec i s) (hit u e)) ∧
      (∀ f, s.walkFor ctx va.toNat kind = (u, .fault f) → Completes (exec i s) (failed u f)) ∧
      (s.walkFor ctx va.toNat kind = (u, .waits) → Completes (exec i s) (LooksAgain 16 (.migratingRetry core ctx va kind) u)) ∧
      (∀ n, s.walkFor ctx va.toNat kind = (u, .migrating n) →
        (u.dev.retries.find? (fun e => e.1 == key) = none → Completes (exec i s) fun t => t.dev.retries = u.dev.retries ++ [(key, u.clock)] ∧
          Due 438 (.migratingRetry core ctx va kind) u t) ∧
        (∀ c, u.dev.retries.find? (fun e => e.1 == key) = some (key, c) →
          (u.clock < c + 7000 → Completes (exec i s) (LooksAgain 438 (.migratingRetry core ctx va kind) u)) ∧
          (c + 7000 ≤ u.clock → Completes (exec i s) (failed u { cause := cWALKBUSY, kind := 0, level := n })))))) ∧
  (∀ (s : State) (port : Nat),
    let down := fun (t : State) => port ∈ t.dev.peerDown ∧ (∀ q ∈ s.dev.peerDown, q ∈ t.dev.peerDown) ∧
      t.dev.bindings = (s.dev.bindings.filter fun e => e.2.2.1 != port) ∧ ∀ c, ∀ e ∈ (t.core c).tlb, e.ofPeer port = false
    let crosses := fun (o : Async) => ∃ f, o.origin = some f ∧ o.done = false ∧ o.returned = none ∧ f.places.any (LaneAt.ofPeer port) = true
    (∀ g ∈ s.groups, g.region.storesTo port = false ∧ g.evaluates = none) →
      (∀ e ∈ s.dev.msgs, e.2.place = .flight → nodePort e.2.node ≠ some port) →
      ((∀ g ∈ s.groups, ∀ o ∈ g.ops, ¬ crosses o) → s.p.live = true → Completes (exec (.peerLinkDown port) s) fun t =>
        KeepsMemory s t ∧ KeepsRegisters s t ∧ down t) ∧
      ∀ core slot g, s.group core slot = some g → g.isThread = true → g.trapped = false → (∃ o ∈ g.ops, crosses o) →
        Completes (exec (.peerLinkDown port) s) fun t => KeepsMemory s t ∧ down t ∧
          (∃ r, keyFind (t.core core).traps slot = some r ∧ r.cause = cPEERDOWN ∧ r.infoA = BitVec.ofNat 32 port) ∧
          Sees t core slot fun h => h.trapped = true ∧ h.v = g.v ∧ h.s = g.s ∧ ∀ o ∈ h.ops, ¬ crosses o) ∧
  (∀ (s : State) (port : Nat), Completes (exec (.peerLinkUp port) s) fun t => { t with dev := s.dev } = s ∧
    t.dev = { s.dev with peerDown := s.dev.peerDown.filter fun p => p != port }) ∧
  (∀ (s : State) (n : Nat), ∀ i ∈ [Instr.flitReplay n, .moduleLaneFailure n, .dramScrub n, .ucieRetraining n, .gddr7Retraining n, .agingMonitor,
      .flashWearLevelling], exec i s = .next s) ∧
  (∀ (s : State) (link line core slot : Nat), 8 ≤ link →
    let lost := fun (line : Nat) (t : State) => ∀ x, storeRead t.mem x = if x / 128 = line then
      (((s.dev.dirty.find? fun d => d.1 == line).map fun d => storeRead d.2 (x % 128)).getD (storeRead s.mem x)) else storeRead s.mem x
    (s.group core slot = none → exec (.uncorrectableFlit link line core slot false) s = .next s ∧
      (slicedLine line = true → Completes (exec (.uncorrectableFlit link line core slot true) s) fun t => { t with dev := s.dev, mem := s.mem } = s ∧
        line ∈ t.dev.poisoned ∧ (∀ l, l ≠ line → (l ∈ t.dev.poisoned ↔ l ∈ s.dev.poisoned)) ∧
        (line ∉ s.dev.poisoned → lost line t) ∧ (line ∈ s.dev.poisoned → KeepsGlobal s t))) ∧
    (∀ g, s.group core slot = some g →
      let waits := fun (o : Async) => ∃ f, o.origin = some f ∧ o.done = false ∧ o.returned = none ∧ f.places.any (LaneAt.inLine line) = true
      ((∀ o ∈ g.ops, ¬ waits o) → exec (.uncorrectableFlit link line core slot false) s = .next s) ∧
      (g.isThread = true → g.trapped = false → (∃ o ∈ g.ops, waits o) →
        Completes (exec (.uncorrectableFlit link line core slot false) s) fun t =>
          KeepsMemory s t ∧ (∃ r, keyFind (t.core core).traps slot = some r ∧ r.cause = cMEMERR) ∧
          Sees t core slot fun h => h.trapped = true ∧ h.v = g.v ∧ h.s = g.s ∧ ∀ o ∈ h.ops, ¬ waits o) ∧
      (g.isThread = true → slicedLine line = true → Completes (exec (.uncorrectableFlit link line core slot true) s) fun t =>
        line ∈ t.dev.poisoned ∧ (t.ctx g.ctx).failed = true))) ∧
  (∀ (s : State) (die line : Nat) (nonce : BitVec 256),
    let devIs := fun (d : Dev) (t : State) => t = { s with dev := d }
    let asInDram := fun (t : State) => ∀ x, storeRead t.mem x = if x / 128 = line then
      (((s.dev.dirty.find? fun d => d.1 == line).map fun d => storeRead d.2 (x % 128)).getD (storeRead s.mem x)) else storeRead s.mem x
    Completes (exec (.powerThrottle die) s) (devIs { s.dev with idle := keyPut s.dev.idle die (max (((keyFind s.dev.idle die).map (· + 1)).getD 0) (if s.phase = .arrive then s.clock + 1 else s.clock)) }) ∧
    Completes (exec (.thermalThrottle die) s) (fun t => { t with dev := s.dev } = s ∧ die ∈ t.dev.hot) ∧
    Completes (exec (.thermalThrottleEnd die) s) (devIs { s.dev with hot := s.dev.hot.filter fun x => x != die }) ∧
    Completes (exec .thermtrip s) (devIs { s.dev with stopped := true, outbox := s.dev.outbox ++ [.thermTrip] }) ∧
    Completes (exec .scrublate s) (devIs { s.dev with outbox := s.dev.outbox ++ if s.dev.hmode.getLsbD 9 then [.scrubLate] else [] }) ∧
    Completes (exec .telemetry s) (devIs { s.dev with outbox := s.dev.outbox ++ [.telemetry s.clock s.dev.hot] }) ∧
    (let meas := [1, 2, 3, 4].map s.measurement
     let versions := [1, 2, 3, 4].map Config.bootVersion
     Completes (exec (.attestationRequest nonce) s) (devIs { s.dev with outbox := s.dev.outbox ++ [.attestation nonce meas versions
       Config.identityKey (Config.signature nonce meas versions Config.identityKey)] })) ∧
    (s.scrubs = false → exec (.sramScrub line) s = .next s) ∧
    (s.scrubs = true → line ∉ s.dev.poisoned → Completes (exec (.sramScrub line) s) fun t =>
      { t with dev := s.dev, nextId := s.nextId, mem := s.mem } = s ∧ { t.dev with poisoned := s.dev.poisoned, dirty := s.dev.dirty } = s.dev ∧
        (∀ l, l ∈ t.dev.poisoned ↔ l ∈ s.dev.poisoned ∨
          (l = line ∧ slicedLine line = true ∧ s.holdsLine line = true ∧ Config.sramError s.nextId = true)) ∧
        (line ∈ t.dev.poisoned → asInDram t) ∧ (line ∉ t.dev.poisoned → KeepsGlobal s t)) ∧
    (s.scrubs = true → line ∈ s.dev.poisoned → Completes (exec (.sramScrub line) s) fun t => line ∉ t.dev.poisoned ∧ KeepsPads s t ∧ t.g = s.g ∧
      asInDram t)) ∧
  (∀ s : State,
    ((∀ n ∈ [1, 2, 3, 4], bootAccepts n = true) → Completes (exec .reset s) fun t => t.dev.stopped = false ∧
      (∀ n ∈ [1, 2, 3, 4], t.measurement n = measure 0#256 (Config.bootImage n)) ∧ t.dev.supBase = Config.supervisorHeader.1 ∧
      (∀ c, c < 320 → t.core c = { Core.reset with tvec := BitVec.ofNat 32 Config.supervisorHeader.2.1 }) ∧ t.clock = 0 ∧ t.others = [] ∧
      t.mem = putBytes [] Config.supervisorHeader.2.2 (Config.bootImage 4)) ∧
    (∀ n ∈ [1, 2, 3, 4], (∀ m, 1 ≤ m → m < n → bootAccepts m = true) → bootAccepts n = false → Completes (exec .reset s) fun t =>
      t.dev.stopped = true ∧ t.dev.outbox = [.bootFail n] ∧ t.mem = [] ∧
        ∀ m ∈ [1, 2, 3, 4], t.measurement m = if m < n then measure 0#256 (Config.bootImage m) else 0#256) ∧
    (∀ n, bootAccepts n = true ↔ sha256 (Config.bootKey n) = Config.fusedDigest ∧
      Config.slhDsaVerify (Config.bootKey n) (Config.bootImage n) (Config.bootSignature n) = true ∧
      Config.fusedMinimum n ≤ Config.bootVersion n)) ∧
  (∀ (s : State) (line slice : Nat) (mask : BitVec 32) (index ctx port remote : Nat),
    ((slicedLine line = false ∨ line ∈ s.dev.pins ∨ s.freeWays line = 0) → exec (.slPin line) s = .next s) ∧
    (slicedLine line = true → line ∉ s.dev.pins → 0 < s.freeWays line →
      Completes (exec (.slPin line) s) fun t => { t with dev := s.dev } = s ∧ t.dev.pins = s.dev.pins ++ [line] ∧
        (∀ l, l ∈ t.dev.cached → l ∈ s.dev.cached ∧ l ≠ line) ∧ (∀ l, l ≠ line → sameSet l line = false → l ∈ s.dev.cached → l ∈ t.dev.cached) ∧
        ∀ d, d.1 = line → (d ∈ t.dev.dirty ↔ d ∈ s.dev.dirty)) ∧
    (line ∉ s.dev.pins → exec (.slUnpin line) s = .next s) ∧
    (line ∈ s.dev.pins → Completes (exec (.slUnpin line) s) fun t =>
      t = { s with dev := { s.dev with pins := s.dev.pins.filter fun l => l != line, cached := s.dev.cached ++ [line] } }) ∧
    Completes (exec (.slBypassClear slice mask) s) (fun t => { t with dev := s.dev } = s ∧ ∀ n, storeRead t.dev.bypass n =
      if n = slice then storeRead s.dev.bypass n &&& ~~~mask else storeRead s.dev.bypass n) ∧
    ((256 ≤ index ∨ 8 ≤ port ∨ port ∈ s.dev.peerDown) → exec (.contextBindingWrite index ctx port remote) s = .next s) ∧
    (index < 256 → port < 8 → port ∉ s.dev.peerDown → Completes (exec (.contextBindingWrite index ctx port remote) s) fun t =>
      t = { s with dev := { s.dev with bindings := keyPut s.dev.bindings index (ctx, port, remote) } })) ∧
  (∀ (s : State) (port pa msg : Nat) (write peer : Bool),
    let out := if peer then exec (.peerPortRequest port pa msg write) s else exec (.controlNodeMemoryAccess pa msg write) s
    let ev := if peer then Event.peerPortRequest port pa msg write else Event.controlNodeMemoryAccess pa msg write
    (peer = true → port ∈ s.dev.peerDown → out = .next s) ∧
    ((peer = true → port ∉ s.dev.peerDown) → (keyFind s.dev.inbox msg = none → out = .next s) ∧
      ∀ bytes, keyFind s.dev.inbox msg = some bytes →
        let lines := (List.range ((pa % 128 + bytes.length + 127) / 128)).map (lineOf pa + ·)
        let held := ∃ l ∈ lines, s.ownedLine l = true ∨ (write = true ∧ ∃ r ∈ s.dev.reservations, r.1 = l)
        let taken := fun (t : State) => keyFind t.dev.inbox msg = none
        (held → Completes out (LooksAgain 16 ev s)) ∧
        (¬ held → (∃ l ∈ lines, l ∈ s.dev.poisoned) → Completes out fun t => taken t ∧ KeepsMemory s t ∧
          t.dev.outbox = s.dev.outbox ++ [.memoryFault msg]) ∧
        (¬ held → (∀ l ∈ lines, l ∉ s.dev.poisoned) →
          (write = false → Completes out fun t => taken t ∧ KeepsMemory s t ∧
            t.dev.outbox = s.dev.outbox ++ [.memoryData msg ((span pa bytes.length).map s.phys)]) ∧
          (write = true → isMmio pa = false → Completes out fun t => taken t ∧ KeepsPads s t ∧ t.g = s.g ∧
            ∀ x, storeRead t.mem x = if pa ≤ x ∧ x < pa + bytes.length then bytes.getD (x - pa) 0#8 else storeRead s.mem x) ∧
          (write = true → isMmio pa = true → Completes out fun t => taken t ∧ KeepsMemory s t))))

/-- YIELD sets the ready time to the current clk, keeps the split out of the next choice of the running clause, and changes nothing else. -/
def Obligations.YieldSetsItsReadyTime : Prop :=
  ∀ s : State, passes {} s = true → Completes (exec .yield s) fun t => t.p.readyTime = s.clock ∧ Passes s t ∧
    t.p.inClause = s.p.inClause ∧ ∀ (u : State) (g : Group), (u.rank g t.p).getD 2 0 = 1

/-- Decoding reads exactly the well-formed instructions that the encoder writes, with every operand, and leaves the rest of the stream. -/
def Obligations.DecodeAndEncodeAgree : Prop :=
  ∀ (bs rest : List (BitVec 8)) (i : Instr), decode bs = .ok (i, rest) ↔
    wellFormed i = true ∧ ∃ u, encode i = some u ∧ bs = u.bytes ++ rest

/-- The words of the worked examples of the spec decode to the instructions that stand beside them. -/
def Obligations.SpecWordsDecode : Prop :=
  decodeUnits (.word 0xf880081#32) = .ok (.clauseHeader 0#1 1#1 15#4 1#4 1#12) ∧
  decodeUnits (.half 0x882#16) = .ok (.iadd16 1#5 4#6) ∧
  decodeUnits (.word 0xec040537#32) = .ok (.fmul 0xEC#8 4#8 5#8) ∧
  decodeUnits (.word 0x883#32) = .ok (.modxNegateAbs 1#6) ∧
  decodeUnits (.word 0xe0e80635#32) = .ok (.fadd 0xE0#8 0xE8#8 6#8) ∧
  decodeUnits (.word 0x607ad#32) = .ok (.frcp 6#8 7#8) ∧
  decodeUnits (.half 0x5000#16) = .ok (.nop) ∧
  decodeUnits (.word 0x201020d#32) = .ok (.saddi 16#11 4#7 4#7) ∧
  decodeUnits (.word 0x3103#32) = .ok (.modxAddress 6#10) ∧
  decodeUnits (.word 0xc04146f#32) = .ok (.ldG 6#7 2#8 10#8 0#2) ∧
  decodeUnits (.half 0x7a#16) = .ok (.fmul16 0#5 3#6) ∧
  decodeUnits (.word 0xec03084d#32) = .ok (.fcmpLt 0xEC#8 3#8 8#7) ∧
  decodeUnits (.word 0x1030cad#32) = .ok (.frsq 3#8 12#8) ∧
  decodeUnits (.word 0xec405#32) = .ok (.brzS 7#15 8#7) ∧
  decodeUnits (.word 0x187#32) = .ok (.exit) ∧
  decodeUnits (.word 0x458a207#32) = .ok (.split 1#2 11#7 10#7) ∧
  decodeUnits (.word 0x1a0005#32) = .ok (.bra 13#15) ∧
  decodeUnits (.word 0x4000287#32) = .ok (.join 1#2) ∧
  decodeUnits (.word 0xc00c17#32) = .ok (.srd 3#7 12#7) ∧
  decodeUnits (.word 0x1830611#32) = .ok (.sshli 12#5 12#7 12#7) ∧
  decodeUnits (.word 0x6300048b#32) = .ok (.sadd64 12#7 0#7 4#7) ∧
  decodeUnits (.word 0xeceb0223#32) = .ok (.and 0xEC#8 0xEB#8 2#8) ∧
  decodeUnits (.word 0x1eb0455#32) = .ok (.shri 1#5 0xEB#8 4#8) ∧
  decodeUnits (.word 0x2eb04b1#32) = .ok (.ilv3 2#8 0xEB#8 4#8) ∧
  decodeUnits (.word 0x1e80559#32) = .ok (.shflDn 0#1 1#5 0xE8#8 5#8) ∧
  decodeUnits (.word 0x987#32) = .ok (.txbegin) ∧
  decodeUnits (.word 0x271#32) = .ok (.stG 0#7 0#8 1#8 0#2) ∧
  decodeUnits (.word 0x7d407#32) = .ok (.waitp 0#3 125#7) ∧
  decodeUnits (.word 0xa0028017#32) = .ok (.tagpurge 5#7) ∧
  decodeUnits (.word 0x1ffef77#32) = .ok (.fsend 127#7 125#7) ∧
  decodeUnits (.word 0x2c5477#32) = .ok (.barinit 11#7 10#7) ∧
  decodeUnits (.word 0x3f877#32) = .ok (.cpTensor 127#7) ∧
  decodeUnits (.word 0xfa28a577#32) = .ok (.barwait 125#7 10#7 20#7) ∧
  decodeUnits (.word 0x4081007d#32) = .ok (.rtrace 4#4 8#8 16#8) ∧
  (∃ e, decodeUnits (.word 0xe04146f#32) = .error e) ∧
  (∃ e, decodeUnits (.word 0xec03884d#32) = .error e) ∧
  (∃ e, decodeUnits (.word 0xc030cad#32) = .error e) ∧
  (∃ e, decodeUnits (.word 0x6300848b#32) = .error e) ∧
  (∃ e, decodeUnits (.word 0x3903#32) = .error e) ∧
  (∃ e, decodeUnits (.word 0x7f#32) = .error e)

/-- A step runs the instruction that stands at the chosen split, with its literal word, or the event that is due, and nothing else; with
nothing more to come about in a part of a clk the next part begins. Which of the things that can come about comes first is the model's choice (log 2). -/
def Obligations.StepRunsTheDecodedInstruction : Prop :=
  ∀ s : State, s.dev.stopped = false →
    let r : State := { s with sched := s.sched.tail, stir := true }
    let ran := fun (i : Instr) (t : State) => match exec i t.noteSnapshot with
      | .next v => Host.Outcome.next (s.pauseCounts (t.afterIssue v))
      | o => o
    (∀ core slot split, s.pick = some (.issue core slot split) →
      let u := r.focus core slot split
      u.g.evaluates = none →
        (∀ h, u.fetch u.p.pc 1 = .bytes h → h % 2 = 0 → u.p.inClause = true → u.p.count < 32 →
          let t : State := { u with cur := { pc := u.p.pc, word := BitVec.ofNat 32 h, len := 2 } }
          ∀ i, decodeUnits (.half (BitVec.ofNat 16 h)) = .ok i → step s = ran i t) ∧
        (∀ h v, u.fetch u.p.pc 1 = .bytes h → h % 2 = 1 → u.fetch u.p.pc 2 = .bytes v →
          let w := BitVec.ofNat 32 v
          (isHeader w = true ∨ (u.p.inClause = true ∧ u.p.count < 32)) →
          (∀ i, decodeUnits (.word w) = .ok i → litBytes w + dwordBytes w = 0 →
            step s = ran i { u with cur := { pc := u.p.pc, word := w, len := 4 } }) ∧
          (∀ i x, decodeUnits (.word w) = .ok i → 0 < litBytes w + dwordBytes w →
            u.fetch u.p.pc ((4 + litBytes w + dwordBytes w) / 2) = .bytes x →
            step s = ran i { u with cur := { pc := u.p.pc, word := w, len := 4 + litBytes w + dwordBytes w, lit := BitVec.ofNat 32 (if litBytes w = 0 then 0 else x / 2 ^ 32), dword := BitVec.ofNat 64 (x / 2 ^ (8 * (4 + litBytes w))) } }) ∧
          (∀ e, decodeUnits (.word w) = .error e → step s = ran (.illegalEncoding w) { u with cur := { pc := u.p.pc, word := w, len := 4 } }))) ∧
    (∀ a, s.pick = some (.agenda a) → step s = outcome s (exec (eventInstr a.ev) (r.takeUp a))) ∧
    (∀ core slot split, s.pick = some (.promote core slot split) →
      step s = outcome s (exec (.splitPromotion core slot split) r)) ∧
    (s.pick = none → step s = .next s.goOn ∧ (s.phase = .arrive → s.clock < s.goOn.clock ∧ s.goOn.issued = []))

/-- After reset every system register with a reset value in Tables 6.5 and 16.7 reads as that value, memory has its canonical form and lists nothing, and the boot is due. What an
unwritten byte reads as is the model's choice (log 1), and so is that the boot is one step (log 28). -/
def Obligations.ResetState : Prop :=
  let s := State.reset
  MemoryInv s ∧ s.mem = [] ∧ s.clock = 0 ∧ s.others = [] ∧ s.agenda.map Agenda.ev = [.reset] ∧ s.dev.stopped = false ∧
    s.dev.pins = [] ∧ s.dev.poisoned = [] ∧ s.dev.teams = [] ∧ s.isSup = true ∧
    (∀ e ∈ [(0x9, 0x0#32), (0xa, 0x0#32), (0xb, 0x0#32), (0xc, 0x0#32), (0xd, 0xffff#32), (0xe, 0x0#32), (0xf, 0x0#32), (0x11, 0x0#32), (0x12, 0x0#32), (0x22, 0x1000#32), (0x23, 0x3e8#32), (0x24, 0x0#32), (0x25, 0x1e8480#32), (0x5f, 0x0#32), (0x60, 0x0#32), (0x61, 0x0#32), (0x62, 0x0#32), (0x63, 0x0#32), (0x66, 0x100000#32), (0x67, 0x0#32), (0x68, 0x0#32), (0x69, 0x0#32), (0x6a, 0x0#32), (0x6b, 0x10000000#32), (0x6c, 0x0#32), (0x6d, 0x0#32), (0x6e, 0x0#32), (0x6f, 0x0#32), (0x70, 0x0#32), (0x7f, 0x0#32)], s.sysReg e.1 = e.2) ∧
    s.sysReg 0x00 = BitVec.ofNat 32 s.g.core ∧ s.sysReg 0x01 = BitVec.ofNat 32 (s.g.core / 160) ∧ s.sysReg 0x06 = 1#32 <<< s.g.gid ∧
    (∀ k, k < 16 → s.sysReg (0x30 + k) = 0#32 ∧ s.sysReg (0x70 + k) = 0#32) ∧
    (∀ c core team, s.scopeMask c core team 0 = 1#320 <<< core ∧ s.scopeMask c core team 1 = 1#320 <<< core ∧
      s.scopeMask c core team 2 = BitVec.ofNat 320 ((2 ^ 160 - 1) * 2 ^ (160 * (core / 160))) ∧
      s.scopeMask c core team 3 = BitVec.ofNat 320 (2 ^ 320 - 1) ∧ ∀ e, 4 ≤ e → s.scopeMask c core team e = 0#320) ∧
    (∀ c e, storeRead (s.ctx c).scopes e = 0#320)

/-- Every step keeps the canonical form of memory: rising addresses, and no listed byte equal to what an unlisted one reads as. That form,
and the 0 that an unlisted byte reads as, are the model's choice (log 1). -/
def Obligations.MemoryFormIsKept : Prop :=
  ∀ s t : State, MemoryInv s → step s = .next t → MemoryInv t

/-- PRIV, ROLE, REGBOUND, HAZARD and FPEXC are taken at the instruction with its registers kept; a stopped module takes only RESET. -/
def Obligations.SharedChecksTrap : Prop :=
  (∀ (s : State) (a b d : BitVec 7) (x y z : BitVec 8) (c e : BitVec 4) (k : BitVec 3) (w : BitVec 2) (p : BitVec 5) (t o : BitVec 1),
    s.g.evaluates = none → s.p.mods = {} →
    (s.isSup = false → ∀ i ∈ [Instr.eret, .halt, .tlbinvRange b a d, .tlbinvCtx a d, .dharv b a d, .tagpurge a],
      Completes (exec i s) (Trapped cPRIV s)) ∧
    (s.isSup = false → s.g.role ≠ 0#2 → s.g.role ≠ 3#2 →
      ∀ i ∈ [Instr.cpTensor a, .cpGather a, .cpScatter a, .cpMcast a, .cpPack a, .cpUnpack a, .cpFill a, .cpCancel a, .barinit b a,
        .barexp b a, .tagalloc a d, .tagallocTree b a d, .tagfree a, .tagqry a d, .fsend b a], Completes (exec i s) (Trapped cROLE s)) ∧
    (s.isSup = false → s.g.role ≠ 1#2 → s.g.role ≠ 3#2 →
      ∀ i ∈ [Instr.mma p t o k c e k, .oclaim d c, .orelease c, .osetfmt a c, .ofill a c x, .oread a c x, .oreadRec c x, .qbfp a c x, .aclaim d k,
        .arelease k, .ainit k, .ainitSet a k, .ainitSlot a k, .ald a k x, .aldCol a k x, .aldStat k x, .ast a k x, .astCol a k x],
      Completes (exec i s) (Trapped cROLE s)) ∧
    (s.isSup = false → s.g.role ≠ 3#2 → ∀ i ∈ [Instr.rtrace c x y, .rtany c x y, .rtqry c x y, .ltwalk c x y, .ltpdf c x y, .texld c x y,
      .texg c x y, .reuse c, .brimx c, .tgtret x y], Completes (exec i s) (Trapped cROLE s)) ∧
    let outside := fun (r : BitVec 8 × Nat) => (r.1.toNat < 0xE0 ∧ s.g.nregs < r.1.toNat + r.2) ∨
      (0xF0 ≤ r.1.toNat ∧ s.myTeam.card.queues ≤ r.1.toNat - 0xF0)
    let pendingV := fun (r : BitVec 8 × Nat) => r.1.toNat < 0xE8 ∧ ∃ n, n < r.2 ∧ s.g.pendingV (r.1.toNat + n) = true
    let pendingS := fun (r : BitVec 7 × Nat) => r.1.toNat < 124 ∧ ∃ n, n < r.2 ∧ s.g.pendingS (r.1.toNat + n) = true
    let badSet := s.g.sys.mode.getLsbD 0 = true ∧ 0xF0 ≤ z.toNat ∧
      ∃ j, j < 16 ∧ s.myTeam.card.queues ≤ j ∧ (storeRead s.g.sys.mcset (z.toNat - 0xF0)).getLsbD j = true
    ∀ f ∈ ([(.iadd y x z, [(x, 1), (y, 1), (z, 1)], []), (.fadd y x z, [(x, 1), (y, 1), (z, 1)], []),
        (.ffma y x z, [(x, 1), (y, 1), (z, 1)], []), (.dadd y x z, [(x, 2), (y, 2), (z, 2)], []), (.frcp x z, [(x, 1), (z, 1)], []),
        (.shflIdx y x z, [(x, 1), (y, 1), (z, 1)], []), (.ldG b x z w, [(x, 1), (z, dataRegs w)], [(b, 2)]),
        (.stG b x z w, [(x, 1), (z, dataRegs w)], [(b, 2)]), (.spld b x z w, [(x, 1), (z, dataRegs w)], [(b, 2)]),
        (.rsvupd x z, [(x, 7), (z, 8)], []), (.sadd b a d, [], [(a, 1), (b, 1), (d, 1)]), (.sadd64 b a d, [], [(a, 2), (b, 2), (d, 2)]),
        (.post b a d, [], [(a, 2), (b, 2), (d, 1)]), (.bartest a d, [], [(a, 1), (d, 2)]), (.mboxsend b a, [], [(a, 1), (b, 1)])] :
          List (Instr × List (BitVec 8 × Nat) × List (BitVec 7 × Nat))),
      ((∃ r ∈ f.2.1, outside r) → Completes (exec f.1 s) (Trapped cREGBOUND s)) ∧
      ((∀ r ∈ f.2.1, ¬ outside r) → ((∃ r ∈ f.2.1, pendingV r) ∨ ∃ r ∈ f.2.2, pendingS r) →
        (¬ badSet → Completes (exec f.1 s) (Trapped cHAZARD s)) ∧
        (badSet → f.1 = .iadd y x z → Completes (exec f.1 s) (Trapped cREGBOUND s)))) ∧
  (∀ (s : State) (a b d : BitVec 8), passes (use2 mxFr a b d) s = true →
    let fl := fun (l : Nat) => (s.sat1 f32 (fadd f32 s.rmode (s.fa a l) (s.fb b l))).2
    let bad := enabledLanes s.p.exec s.g.sys.fpen fl
    bad ≠ 0#32 → Completes (exec (.fadd b a d) s) fun t => Trapped cFPEXC (s.raise (orFlags s.p.exec fl)) t ∧
      ∃ r, keyFind (t.core s.g.core).traps s.g.slot = some r ∧ r.lanes = bad) ∧
  (∀ s : State, s.dev.stopped = true → ((∀ a ∈ s.agenda, a.ev ≠ .reset) → step s = .fault .moduleStopped) ∧
    ((∃ a ∈ s.agenda, a.ev = .reset) → ∃ a ∈ s.agenda, a.ev = .reset ∧ step s = exec .reset (s.takeUp a)))
end

