-- ==== Sys2Proof/Laws/Exec.lean ====
section
/-! SUPPORT. Sys2Proof/Laws/Exec.lean: the meaning that each instruction dispatches to, one equation for each constructor. -/

namespace Sys2Proof.Machine

theorem exec_clauseHeader (y : BitVec 1) (x : BitVec 1) (b : BitVec 4) (a : BitVec 4) (w : BitVec 12) (s : State) : exec (.clauseHeader y x b a w) s = execClauseHeader y x b a w s := rfl
theorem exec_modxLaneSelect (p : BitVec 18) (s : State) : exec (.modxLaneSelect p) s = execModxLaneSelect p s := rfl
theorem exec_modxNegateAbs (p : BitVec 6) (s : State) : exec (.modxNegateAbs p) s = execModxNegateAbs p s := rfl
theorem exec_modxAddress (p : BitVec 10) (s : State) : exec (.modxAddress p) s = execModxAddress p s := rfl
theorem exec_modxRounding (p : BitVec 3) (s : State) : exec (.modxRounding p) s = execModxRounding p s := rfl
theorem exec_modxSetb (s : State) : exec (.modxSetb) s = execModxSetb s := rfl
theorem exec_modxSaturate (n : BitVec 1) (s : State) : exec (.modxSaturate n) s = execModxSaturate n s := rfl
theorem exec_nop (s : State) : exec (.nop) s = execNop s := rfl
theorem exec_mov16 (b : BitVec 5) (d : BitVec 6) (s : State) : exec (.mov16 b d) s = execMov16 b d s := rfl
theorem exec_iadd16 (b : BitVec 5) (d : BitVec 6) (s : State) : exec (.iadd16 b d) s = execIadd16 b d s := rfl
theorem exec_isub16 (b : BitVec 5) (d : BitVec 6) (s : State) : exec (.isub16 b d) s = execIsub16 b d s := rfl
theorem exec_and16 (b : BitVec 5) (d : BitVec 6) (s : State) : exec (.and16 b d) s = execAnd16 b d s := rfl
theorem exec_or16 (b : BitVec 5) (d : BitVec 6) (s : State) : exec (.or16 b d) s = execOr16 b d s := rfl
theorem exec_xor16 (b : BitVec 5) (d : BitVec 6) (s : State) : exec (.xor16 b d) s = execXor16 b d s := rfl
theorem exec_shl16 (b : BitVec 5) (d : BitVec 6) (s : State) : exec (.shl16 b d) s = execShl16 b d s := rfl
theorem exec_shr16 (b : BitVec 5) (d : BitVec 6) (s : State) : exec (.shr16 b d) s = execShr16 b d s := rfl
theorem exec_sar16 (b : BitVec 5) (d : BitVec 6) (s : State) : exec (.sar16 b d) s = execSar16 b d s := rfl
theorem exec_iminI16 (b : BitVec 5) (d : BitVec 6) (s : State) : exec (.iminI16 b d) s = execIminI16 b d s := rfl
theorem exec_imaxI16 (b : BitVec 5) (d : BitVec 6) (s : State) : exec (.imaxI16 b d) s = execImaxI16 b d s := rfl
theorem exec_fadd16 (b : BitVec 5) (d : BitVec 6) (s : State) : exec (.fadd16 b d) s = execFadd16 b d s := rfl
theorem exec_fsub16 (b : BitVec 5) (d : BitVec 6) (s : State) : exec (.fsub16 b d) s = execFsub16 b d s := rfl
theorem exec_fmul16 (b : BitVec 5) (d : BitVec 6) (s : State) : exec (.fmul16 b d) s = execFmul16 b d s := rfl
theorem exec_fmin16 (b : BitVec 5) (d : BitVec 6) (s : State) : exec (.fmin16 b d) s = execFmin16 b d s := rfl
theorem exec_fmax16 (b : BitVec 5) (d : BitVec 6) (s : State) : exec (.fmax16 b d) s = execFmax16 b d s := rfl
theorem exec_bra (o : BitVec 15) (s : State) : exec (.bra o) s = execBra o s := rfl
theorem exec_brez (o : BitVec 15) (s : State) : exec (.brez o) s = execBrez o s := rfl
theorem exec_brnez (o : BitVec 15) (s : State) : exec (.brnez o) s = execBrnez o s := rfl
theorem exec_brzS (o : BitVec 15) (x : BitVec 7) (s : State) : exec (.brzS o x) s = execBrzS o x s := rfl
theorem exec_brnzS (o : BitVec 15) (x : BitVec 7) (s : State) : exec (.brnzS o x) s = execBrnzS o x s := rfl
theorem exec_brnegS (o : BitVec 15) (x : BitVec 7) (s : State) : exec (.brnegS o x) s = execBrnegS o x s := rfl
theorem exec_call (o : BitVec 15) (x : BitVec 7) (s : State) : exec (.call o x) s = execCall o x s := rfl
theorem exec_nopW (s : State) : exec (.nopW) s = execNopW s := rfl
theorem exec_ret (x : BitVec 7) (s : State) : exec (.ret x) s = execRet x s := rfl
theorem exec_jmpi (x : BitVec 7) (s : State) : exec (.jmpi x) s = execJmpi x s := rfl
theorem exec_exit (s : State) : exec (.exit) s = execExit s := rfl
theorem exec_split (j : BitVec 2) (b : BitVec 7) (a : BitVec 7) (s : State) : exec (.split j b a) s = execSplit j b a s := rfl
theorem exec_join (j : BitVec 2) (s : State) : exec (.join j) s = execJoin j s := rfl
theorem exec_yield (s : State) : exec (.yield) s = execYield s := rfl
theorem exec_sleep (n : BitVec 6) (x : BitVec 7) (s : State) : exec (.sleep n x) s = execSleep n x s := rfl
theorem exec_waitp (p : BitVec 3) (x : BitVec 7) (s : State) : exec (.waitp p x) s = execWaitp p x s := rfl
theorem exec_barTeam (b : BitVec 4) (x : BitVec 7) (s : State) : exec (.barTeam b x) s = execBarTeam b x s := rfl
theorem exec_barClu (b : BitVec 2) (x : BitVec 7) (s : State) : exec (.barClu b x) s = execBarClu b x s := rfl
theorem exec_barScope (c : BitVec 5) (k : BitVec 7) (x : BitVec 7) (s : State) : exec (.barScope c k x) s = execBarScope c k x s := rfl
theorem exec_waitx (m : BitVec 4) (x : BitVec 7) (s : State) : exec (.waitx m x) s = execWaitx m x s := rfl
theorem exec_gangset (x : BitVec 7) (s : State) : exec (.gangset x) s = execGangset x s := rfl
theorem exec_trap (n : BitVec 6) (s : State) : exec (.trap n) s = execTrap n s := rfl
theorem exec_eret (s : State) : exec (.eret) s = execEret s := rfl
theorem exec_halt (s : State) : exec (.halt) s = execHalt s := rfl
theorem exec_bkpt (n : BitVec 6) (s : State) : exec (.bkpt n) s = execBkpt n s := rfl
theorem exec_rcommit (s : State) : exec (.rcommit) s = execRcommit s := rfl
theorem exec_txbegin (s : State) : exec (.txbegin) s = execTxbegin s := rfl
theorem exec_txend (d : BitVec 7) (s : State) : exec (.txend d) s = execTxend d s := rfl
theorem exec_txabort (n : BitVec 6) (s : State) : exec (.txabort n) s = execTxabort n s := rfl
theorem exec_fence (c : BitVec 5) (s : State) : exec (.fence c) s = execFence c s := rfl
theorem exec_sadd (b : BitVec 7) (a : BitVec 7) (d : BitVec 7) (s : State) : exec (.sadd b a d) s = execSadd b a d s := rfl
theorem exec_ssub (b : BitVec 7) (a : BitVec 7) (d : BitVec 7) (s : State) : exec (.ssub b a d) s = execSsub b a d s := rfl
theorem exec_smul (b : BitVec 7) (a : BitVec 7) (d : BitVec 7) (s : State) : exec (.smul b a d) s = execSmul b a d s := rfl
theorem exec_smulhI (b : BitVec 7) (a : BitVec 7) (d : BitVec 7) (s : State) : exec (.smulhI b a d) s = execSmulhI b a d s := rfl
theorem exec_smulhN (b : BitVec 7) (a : BitVec 7) (d : BitVec 7) (s : State) : exec (.smulhN b a d) s = execSmulhN b a d s := rfl
theorem exec_sminI (b : BitVec 7) (a : BitVec 7) (d : BitVec 7) (s : State) : exec (.sminI b a d) s = execSminI b a d s := rfl
theorem exec_smaxI (b : BitVec 7) (a : BitVec 7) (d : BitVec 7) (s : State) : exec (.smaxI b a d) s = execSmaxI b a d s := rfl
theorem exec_sminN (b : BitVec 7) (a : BitVec 7) (d : BitVec 7) (s : State) : exec (.sminN b a d) s = execSminN b a d s := rfl
theorem exec_smaxN (b : BitVec 7) (a : BitVec 7) (d : BitVec 7) (s : State) : exec (.smaxN b a d) s = execSmaxN b a d s := rfl
theorem exec_sand (b : BitVec 7) (a : BitVec 7) (d : BitVec 7) (s : State) : exec (.sand b a d) s = execSand b a d s := rfl
theorem exec_sor (b : BitVec 7) (a : BitVec 7) (d : BitVec 7) (s : State) : exec (.sor b a d) s = execSor b a d s := rfl
theorem exec_sxor (b : BitVec 7) (a : BitVec 7) (d : BitVec 7) (s : State) : exec (.sxor b a d) s = execSxor b a d s := rfl
theorem exec_sandn (b : BitVec 7) (a : BitVec 7) (d : BitVec 7) (s : State) : exec (.sandn b a d) s = execSandn b a d s := rfl
theorem exec_sshl (b : BitVec 7) (a : BitVec 7) (d : BitVec 7) (s : State) : exec (.sshl b a d) s = execSshl b a d s := rfl
theorem exec_sshr (b : BitVec 7) (a : BitVec 7) (d : BitVec 7) (s : State) : exec (.sshr b a d) s = execSshr b a d s := rfl
theorem exec_ssar (b : BitVec 7) (a : BitVec 7) (d : BitVec 7) (s : State) : exec (.ssar b a d) s = execSsar b a d s := rfl
theorem exec_scmpEq (b : BitVec 7) (a : BitVec 7) (d : BitVec 7) (s : State) : exec (.scmpEq b a d) s = execScmpEq b a d s := rfl
theorem exec_scmpNe (b : BitVec 7) (a : BitVec 7) (d : BitVec 7) (s : State) : exec (.scmpNe b a d) s = execScmpNe b a d s := rfl
theorem exec_scmpLtI (b : BitVec 7) (a : BitVec 7) (d : BitVec 7) (s : State) : exec (.scmpLtI b a d) s = execScmpLtI b a d s := rfl
theorem exec_scmpLeI (b : BitVec 7) (a : BitVec 7) (d : BitVec 7) (s : State) : exec (.scmpLeI b a d) s = execScmpLeI b a d s := rfl
theorem exec_scmpLtN (b : BitVec 7) (a : BitVec 7) (d : BitVec 7) (s : State) : exec (.scmpLtN b a d) s = execScmpLtN b a d s := rfl
theorem exec_scmpLeN (b : BitVec 7) (a : BitVec 7) (d : BitVec 7) (s : State) : exec (.scmpLeN b a d) s = execScmpLeN b a d s := rfl
theorem exec_ssel (b : BitVec 7) (a : BitVec 7) (d : BitVec 7) (s : State) : exec (.ssel b a d) s = execSsel b a d s := rfl
theorem exec_sclz (a : BitVec 7) (d : BitVec 7) (s : State) : exec (.sclz a d) s = execSclz a d s := rfl
theorem exec_spopc (a : BitVec 7) (d : BitVec 7) (s : State) : exec (.spopc a d) s = execSpopc a d s := rfl
theorem exec_sbrev (a : BitVec 7) (d : BitVec 7) (s : State) : exec (.sbrev a d) s = execSbrev a d s := rfl
theorem exec_sctz (a : BitVec 7) (d : BitVec 7) (s : State) : exec (.sctz a d) s = execSctz a d s := rfl
theorem exec_sadd64 (b : BitVec 7) (a : BitVec 7) (d : BitVec 7) (s : State) : exec (.sadd64 b a d) s = execSadd64 b a d s := rfl
theorem exec_ssub64 (b : BitVec 7) (a : BitVec 7) (d : BitVec 7) (s : State) : exec (.ssub64 b a d) s = execSsub64 b a d s := rfl
theorem exec_sshl64 (b : BitVec 7) (a : BitVec 7) (d : BitVec 7) (s : State) : exec (.sshl64 b a d) s = execSshl64 b a d s := rfl
theorem exec_sshr64 (b : BitVec 7) (a : BitVec 7) (d : BitVec 7) (s : State) : exec (.sshr64 b a d) s = execSshr64 b a d s := rfl
theorem exec_smul64 (b : BitVec 7) (a : BitVec 7) (d : BitVec 7) (s : State) : exec (.smul64 b a d) s = execSmul64 b a d s := rfl
theorem exec_saddi (imm : BitVec 11) (a : BitVec 7) (d : BitVec 7) (s : State) : exec (.saddi imm a d) s = execSaddi imm a d s := rfl
theorem exec_sandi (imm : BitVec 11) (a : BitVec 7) (d : BitVec 7) (s : State) : exec (.sandi imm a d) s = execSandi imm a d s := rfl
theorem exec_sshli (imm : BitVec 5) (a : BitVec 7) (d : BitVec 7) (s : State) : exec (.sshli imm a d) s = execSshli imm a d s := rfl
theorem exec_sshri (imm : BitVec 5) (a : BitVec 7) (d : BitVec 7) (s : State) : exec (.sshri imm a d) s = execSshri imm a d s := rfl
theorem exec_slti (imm : BitVec 11) (a : BitVec 7) (d : BitVec 7) (s : State) : exec (.slti imm a d) s = execSlti imm a d s := rfl
theorem exec_srd (n : BitVec 7) (d : BitVec 7) (s : State) : exec (.srd n d) s = execSrd n d s := rfl
theorem exec_swr (n : BitVec 7) (a : BitVec 7) (s : State) : exec (.swr n a) s = execSwr n a s := rfl
theorem exec_sysClockRead (d : BitVec 7) (s : State) : exec (.sysClockRead d) s = execSysClockRead d s := rfl
theorem exec_sysGangWrite (a : BitVec 7) (s : State) : exec (.sysGangWrite a) s = execSysGangWrite a s := rfl
theorem exec_sysFpflagsWrite (a : BitVec 7) (s : State) : exec (.sysFpflagsWrite a) s = execSysFpflagsWrite a s := rfl
theorem exec_sysFaultmaskClear (a : BitVec 7) (s : State) : exec (.sysFaultmaskClear a) s = execSysFaultmaskClear a s := rfl
theorem exec_contextRegisterWrite (n : BitVec 7) (a : BitVec 7) (s : State) : exec (.contextRegisterWrite n a) s = execContextRegisterWrite n a s := rfl
theorem exec_preemptRequest (core : Nat) (mask : BitVec 8) (s : State) : exec (.preemptRequest core mask) s = execPreemptRequest core mask s := rfl
theorem exec_contextSuspend (ctx : Nat) (s : State) : exec (.contextSuspend ctx) s = execContextSuspend ctx s := rfl
theorem exec_contextResume (ctx : Nat) (s : State) : exec (.contextResume ctx) s = execContextResume ctx s := rfl
theorem exec_contextMarkFailed (ctx : Nat) (s : State) : exec (.contextMarkFailed ctx) s = execContextMarkFailed ctx s := rfl
theorem exec_tlbinvRange (b : BitVec 7) (a : BitVec 7) (d : BitVec 7) (s : State) : exec (.tlbinvRange b a d) s = execTlbinvRange b a d s := rfl
theorem exec_tlbinvCtx (a : BitVec 7) (d : BitVec 7) (s : State) : exec (.tlbinvCtx a d) s = execTlbinvCtx a d s := rfl
theorem exec_dharv (b : BitVec 7) (a : BitVec 7) (d : BitVec 7) (s : State) : exec (.dharv b a d) s = execDharv b a d s := rfl
theorem exec_tagpurge (a : BitVec 7) (s : State) : exec (.tagpurge a) s = execTagpurge a s := rfl
theorem exec_iadd (b : BitVec 8) (a : BitVec 8) (d : BitVec 8) (s : State) : exec (.iadd b a d) s = execIadd b a d s := rfl
theorem exec_isub (b : BitVec 8) (a : BitVec 8) (d : BitVec 8) (s : State) : exec (.isub b a d) s = execIsub b a d s := rfl
theorem exec_imul (b : BitVec 8) (a : BitVec 8) (d : BitVec 8) (s : State) : exec (.imul b a d) s = execImul b a d s := rfl
theorem exec_imulhI (b : BitVec 8) (a : BitVec 8) (d : BitVec 8) (s : State) : exec (.imulhI b a d) s = execImulhI b a d s := rfl
theorem exec_imulhN (b : BitVec 8) (a : BitVec 8) (d : BitVec 8) (s : State) : exec (.imulhN b a d) s = execImulhN b a d s := rfl
theorem exec_imad (b : BitVec 8) (a : BitVec 8) (d : BitVec 8) (s : State) : exec (.imad b a d) s = execImad b a d s := rfl
theorem exec_iminI (b : BitVec 8) (a : BitVec 8) (d : BitVec 8) (s : State) : exec (.iminI b a d) s = execIminI b a d s := rfl
theorem exec_imaxI (b : BitVec 8) (a : BitVec 8) (d : BitVec 8) (s : State) : exec (.imaxI b a d) s = execImaxI b a d s := rfl
theorem exec_iminN (b : BitVec 8) (a : BitVec 8) (d : BitVec 8) (s : State) : exec (.iminN b a d) s = execIminN b a d s := rfl
theorem exec_imaxN (b : BitVec 8) (a : BitVec 8) (d : BitVec 8) (s : State) : exec (.imaxN b a d) s = execImaxN b a d s := rfl
theorem exec_and (b : BitVec 8) (a : BitVec 8) (d : BitVec 8) (s : State) : exec (.and b a d) s = execAnd b a d s := rfl
theorem exec_or (b : BitVec 8) (a : BitVec 8) (d : BitVec 8) (s : State) : exec (.or b a d) s = execOr b a d s := rfl
theorem exec_xor (b : BitVec 8) (a : BitVec 8) (d : BitVec 8) (s : State) : exec (.xor b a d) s = execXor b a d s := rfl
theorem exec_andn (b : BitVec 8) (a : BitVec 8) (d : BitVec 8) (s : State) : exec (.andn b a d) s = execAndn b a d s := rfl
theorem exec_shl (b : BitVec 8) (a : BitVec 8) (d : BitVec 8) (s : State) : exec (.shl b a d) s = execShl b a d s := rfl
theorem exec_shr (b : BitVec 8) (a : BitVec 8) (d : BitVec 8) (s : State) : exec (.shr b a d) s = execShr b a d s := rfl
theorem exec_sar (b : BitVec 8) (a : BitVec 8) (d : BitVec 8) (s : State) : exec (.sar b a d) s = execSar b a d s := rfl
theorem exec_rol (b : BitVec 8) (a : BitVec 8) (d : BitVec 8) (s : State) : exec (.rol b a d) s = execRol b a d s := rfl
theorem exec_clz (a : BitVec 8) (d : BitVec 8) (s : State) : exec (.clz a d) s = execClz a d s := rfl
theorem exec_popc (a : BitVec 8) (d : BitVec 8) (s : State) : exec (.popc a d) s = execPopc a d s := rfl
theorem exec_brev (a : BitVec 8) (d : BitVec 8) (s : State) : exec (.brev a d) s = execBrev a d s := rfl
theorem exec_ctz (a : BitVec 8) (d : BitVec 8) (s : State) : exec (.ctz a d) s = execCtz a d s := rfl
theorem exec_iabs (a : BitVec 8) (d : BitVec 8) (s : State) : exec (.iabs a d) s = execIabs a d s := rfl
theorem exec_ineg (a : BitVec 8) (d : BitVec 8) (s : State) : exec (.ineg a d) s = execIneg a d s := rfl
theorem exec_frcp (a : BitVec 8) (d : BitVec 8) (s : State) : exec (.frcp a d) s = execFrcp a d s := rfl
theorem exec_frsq (a : BitVec 8) (d : BitVec 8) (s : State) : exec (.frsq a d) s = execFrsq a d s := rfl
theorem exec_fsqrt (a : BitVec 8) (d : BitVec 8) (s : State) : exec (.fsqrt a d) s = execFsqrt a d s := rfl
theorem exec_fexp2 (a : BitVec 8) (d : BitVec 8) (s : State) : exec (.fexp2 a d) s = execFexp2 a d s := rfl
theorem exec_flog2 (a : BitVec 8) (d : BitVec 8) (s : State) : exec (.flog2 a d) s = execFlog2 a d s := rfl
theorem exec_fsin (a : BitVec 8) (d : BitVec 8) (s : State) : exec (.fsin a d) s = execFsin a d s := rfl
theorem exec_fcos (a : BitVec 8) (d : BitVec 8) (s : State) : exec (.fcos a d) s = execFcos a d s := rfl
theorem exec_ffract (a : BitVec 8) (d : BitVec 8) (s : State) : exec (.ffract a d) s = execFfract a d s := rfl
theorem exec_frintRne (a : BitVec 8) (d : BitVec 8) (s : State) : exec (.frintRne a d) s = execFrintRne a d s := rfl
theorem exec_frintRtz (a : BitVec 8) (d : BitVec 8) (s : State) : exec (.frintRtz a d) s = execFrintRtz a d s := rfl
theorem exec_frintRdn (a : BitVec 8) (d : BitVec 8) (s : State) : exec (.frintRdn a d) s = execFrintRdn a d s := rfl
theorem exec_frintRup (a : BitVec 8) (d : BitVec 8) (s : State) : exec (.frintRup a d) s = execFrintRup a d s := rfl
theorem exec_bfe (b : BitVec 8) (a : BitVec 8) (d : BitVec 8) (s : State) : exec (.bfe b a d) s = execBfe b a d s := rfl
theorem exec_bfi (b : BitVec 8) (a : BitVec 8) (d : BitVec 8) (s : State) : exec (.bfi b a d) s = execBfi b a d s := rfl
theorem exec_ilv2 (b : BitVec 8) (a : BitVec 8) (d : BitVec 8) (s : State) : exec (.ilv2 b a d) s = execIlv2 b a d s := rfl
theorem exec_ilv3 (b : BitVec 8) (a : BitVec 8) (d : BitVec 8) (s : State) : exec (.ilv3 b a d) s = execIlv3 b a d s := rfl
theorem exec_dilv2 (b : BitVec 8) (a : BitVec 8) (d : BitVec 8) (s : State) : exec (.dilv2 b a d) s = execDilv2 b a d s := rfl
theorem exec_dilv3 (b : BitVec 8) (a : BitVec 8) (d : BitVec 8) (s : State) : exec (.dilv3 b a d) s = execDilv3 b a d s := rfl
theorem exec_fadd (b : BitVec 8) (a : BitVec 8) (d : BitVec 8) (s : State) : exec (.fadd b a d) s = execFadd b a d s := rfl
theorem exec_fsub (b : BitVec 8) (a : BitVec 8) (d : BitVec 8) (s : State) : exec (.fsub b a d) s = execFsub b a d s := rfl
theorem exec_fmul (b : BitVec 8) (a : BitVec 8) (d : BitVec 8) (s : State) : exec (.fmul b a d) s = execFmul b a d s := rfl
theorem exec_ffma (b : BitVec 8) (a : BitVec 8) (d : BitVec 8) (s : State) : exec (.ffma b a d) s = execFfma b a d s := rfl
theorem exec_fmin (b : BitVec 8) (a : BitVec 8) (d : BitVec 8) (s : State) : exec (.fmin b a d) s = execFmin b a d s := rfl
theorem exec_fmax (b : BitVec 8) (a : BitVec 8) (d : BitVec 8) (s : State) : exec (.fmax b a d) s = execFmax b a d s := rfl
theorem exec_fdiv (b : BitVec 8) (a : BitVec 8) (d : BitVec 8) (s : State) : exec (.fdiv b a d) s = execFdiv b a d s := rfl
theorem exec_fcpys (b : BitVec 8) (a : BitVec 8) (d : BitVec 8) (s : State) : exec (.fcpys b a d) s = execFcpys b a d s := rfl
theorem exec_hadd2 (b : BitVec 8) (a : BitVec 8) (d : BitVec 8) (s : State) : exec (.hadd2 b a d) s = execHadd2 b a d s := rfl
theorem exec_hmul2 (b : BitVec 8) (a : BitVec 8) (d : BitVec 8) (s : State) : exec (.hmul2 b a d) s = execHmul2 b a d s := rfl
theorem exec_hfma2 (b : BitVec 8) (a : BitVec 8) (d : BitVec 8) (s : State) : exec (.hfma2 b a d) s = execHfma2 b a d s := rfl
theorem exec_bfma2 (b : BitVec 8) (a : BitVec 8) (d : BitVec 8) (s : State) : exec (.bfma2 b a d) s = execBfma2 b a d s := rfl
theorem exec_dadd (b : BitVec 8) (a : BitVec 8) (d : BitVec 8) (s : State) : exec (.dadd b a d) s = execDadd b a d s := rfl
theorem exec_dmul (b : BitVec 8) (a : BitVec 8) (d : BitVec 8) (s : State) : exec (.dmul b a d) s = execDmul b a d s := rfl
theorem exec_dfma (b : BitVec 8) (a : BitVec 8) (d : BitVec 8) (s : State) : exec (.dfma b a d) s = execDfma b a d s := rfl
theorem exec_ddiv (b : BitVec 8) (a : BitVec 8) (d : BitVec 8) (s : State) : exec (.ddiv b a d) s = execDdiv b a d s := rfl
theorem exec_icmpEq (b : BitVec 8) (a : BitVec 8) (d : BitVec 7) (s : State) : exec (.icmpEq b a d) s = execIcmpEq b a d s := rfl
theorem exec_icmpNe (b : BitVec 8) (a : BitVec 8) (d : BitVec 7) (s : State) : exec (.icmpNe b a d) s = execIcmpNe b a d s := rfl
theorem exec_icmpLtI (b : BitVec 8) (a : BitVec 8) (d : BitVec 7) (s : State) : exec (.icmpLtI b a d) s = execIcmpLtI b a d s := rfl
theorem exec_icmpLeI (b : BitVec 8) (a : BitVec 8) (d : BitVec 7) (s : State) : exec (.icmpLeI b a d) s = execIcmpLeI b a d s := rfl
theorem exec_icmpLtN (b : BitVec 8) (a : BitVec 8) (d : BitVec 7) (s : State) : exec (.icmpLtN b a d) s = execIcmpLtN b a d s := rfl
theorem exec_icmpLeN (b : BitVec 8) (a : BitVec 8) (d : BitVec 7) (s : State) : exec (.icmpLeN b a d) s = execIcmpLeN b a d s := rfl
theorem exec_fcmpEq (b : BitVec 8) (a : BitVec 8) (d : BitVec 7) (s : State) : exec (.fcmpEq b a d) s = execFcmpEq b a d s := rfl
theorem exec_fcmpNe (b : BitVec 8) (a : BitVec 8) (d : BitVec 7) (s : State) : exec (.fcmpNe b a d) s = execFcmpNe b a d s := rfl
theorem exec_fcmpLt (b : BitVec 8) (a : BitVec 8) (d : BitVec 7) (s : State) : exec (.fcmpLt b a d) s = execFcmpLt b a d s := rfl
theorem exec_fcmpLe (b : BitVec 8) (a : BitVec 8) (d : BitVec 7) (s : State) : exec (.fcmpLe b a d) s = execFcmpLe b a d s := rfl
theorem exec_fcmpUn (b : BitVec 8) (a : BitVec 8) (d : BitVec 7) (s : State) : exec (.fcmpUn b a d) s = execFcmpUn b a d s := rfl
theorem exec_vote (a : BitVec 8) (d : BitVec 7) (s : State) : exec (.vote a d) s = execVote a d s := rfl
theorem exec_sel (x : BitVec 7) (a : BitVec 8) (d : BitVec 8) (s : State) : exec (.sel x a d) s = execSel x a d s := rfl
theorem exec_movs (x : BitVec 7) (d : BitVec 8) (s : State) : exec (.movs x d) s = execMovs x d s := rfl
theorem exec_lea (x : BitVec 7) (a : BitVec 8) (d : BitVec 8) (s : State) : exec (.lea x a d) s = execLea x a d s := rfl
theorem exec_readlane (x : BitVec 7) (a : BitVec 8) (d : BitVec 7) (s : State) : exec (.readlane x a d) s = execReadlane x a d s := rfl
theorem exec_iaddi (imm : BitVec 8) (a : BitVec 8) (d : BitVec 8) (s : State) : exec (.iaddi imm a d) s = execIaddi imm a d s := rfl
theorem exec_shli (n : BitVec 5) (a : BitVec 8) (d : BitVec 8) (s : State) : exec (.shli n a d) s = execShli n a d s := rfl
theorem exec_shri (n : BitVec 5) (a : BitVec 8) (d : BitVec 8) (s : State) : exec (.shri n a d) s = execShri n a d s := rfl
theorem exec_sari (n : BitVec 5) (a : BitVec 8) (d : BitVec 8) (s : State) : exec (.sari n a d) s = execSari n a d s := rfl
theorem exec_shflXor (k : BitVec 5) (a : BitVec 8) (d : BitVec 8) (s : State) : exec (.shflXor k a d) s = execShflXor k a d s := rfl
theorem exec_shflUp (f : BitVec 1) (n : BitVec 5) (a : BitVec 8) (d : BitVec 8) (s : State) : exec (.shflUp f n a d) s = execShflUp f n a d s := rfl
theorem exec_shflDn (f : BitVec 1) (n : BitVec 5) (a : BitVec 8) (d : BitVec 8) (s : State) : exec (.shflDn f n a d) s = execShflDn f n a d s := rfl
theorem exec_sext (w : BitVec 8) (a : BitVec 8) (d : BitVec 8) (s : State) : exec (.sext w a d) s = execSext w a d s := rfl
theorem exec_shflIdx (b : BitVec 8) (a : BitVec 8) (d : BitVec 8) (s : State) : exec (.shflIdx b a d) s = execShflIdx b a d s := rfl
theorem exec_fclass (a : BitVec 8) (d : BitVec 8) (s : State) : exec (.fclass a d) s = execFclass a d s := rfl
theorem exec_redx (o : BitVec 4) (a : BitVec 8) (d : BitVec 8) (s : State) : exec (.redx o a d) s = execRedx o a d s := rfl
theorem exec_scanx (o : BitVec 4) (a : BitVec 8) (d : BitVec 8) (s : State) : exec (.scanx o a d) s = execScanx o a d s := rfl
theorem exec_cvtF32I32 (r : BitVec 3) (a : BitVec 8) (d : BitVec 8) (s : State) : exec (.cvtF32I32 r a d) s = execCvtF32I32 r a d s := rfl
theorem exec_cvtF32N32 (r : BitVec 3) (a : BitVec 8) (d : BitVec 8) (s : State) : exec (.cvtF32N32 r a d) s = execCvtF32N32 r a d s := rfl
theorem exec_cvtI32F32 (x : BitVec 1) (r : BitVec 3) (a : BitVec 8) (d : BitVec 8) (s : State) : exec (.cvtI32F32 x r a d) s = execCvtI32F32 x r a d s := rfl
theorem exec_cvtN32F32 (x : BitVec 1) (r : BitVec 3) (a : BitVec 8) (d : BitVec 8) (s : State) : exec (.cvtN32F32 x r a d) s = execCvtN32F32 x r a d s := rfl
theorem exec_cvtF64F32 (a : BitVec 8) (d : BitVec 8) (s : State) : exec (.cvtF64F32 a d) s = execCvtF64F32 a d s := rfl
theorem exec_cvtF32F64 (x : BitVec 1) (r : BitVec 3) (a : BitVec 8) (d : BitVec 8) (s : State) : exec (.cvtF32F64 x r a d) s = execCvtF32F64 x r a d s := rfl
theorem exec_cvtF64I32 (a : BitVec 8) (d : BitVec 8) (s : State) : exec (.cvtF64I32 a d) s = execCvtF64I32 a d s := rfl
theorem exec_cvtF64N32 (a : BitVec 8) (d : BitVec 8) (s : State) : exec (.cvtF64N32 a d) s = execCvtF64N32 a d s := rfl
theorem exec_cvtI32F64 (x : BitVec 1) (r : BitVec 3) (a : BitVec 8) (d : BitVec 8) (s : State) : exec (.cvtI32F64 x r a d) s = execCvtI32F64 x r a d s := rfl
theorem exec_cvtN32F64 (x : BitVec 1) (r : BitVec 3) (a : BitVec 8) (d : BitVec 8) (s : State) : exec (.cvtN32F64 x r a d) s = execCvtN32F64 x r a d s := rfl
theorem exec_cvtF16F32 (x : BitVec 1) (r : BitVec 3) (a : BitVec 8) (d : BitVec 8) (s : State) : exec (.cvtF16F32 x r a d) s = execCvtF16F32 x r a d s := rfl
theorem exec_cvtF32F16 (a : BitVec 8) (d : BitVec 8) (s : State) : exec (.cvtF32F16 a d) s = execCvtF32F16 a d s := rfl
theorem exec_cvtBf16F32 (x : BitVec 1) (r : BitVec 3) (a : BitVec 8) (d : BitVec 8) (s : State) : exec (.cvtBf16F32 x r a d) s = execCvtBf16F32 x r a d s := rfl
theorem exec_cvtF32Bf16 (a : BitVec 8) (d : BitVec 8) (s : State) : exec (.cvtF32Bf16 a d) s = execCvtF32Bf16 a d s := rfl
theorem exec_cvtI64F64 (x : BitVec 1) (r : BitVec 3) (a : BitVec 8) (d : BitVec 8) (s : State) : exec (.cvtI64F64 x r a d) s = execCvtI64F64 x r a d s := rfl
theorem exec_cvtN64F64 (x : BitVec 1) (r : BitVec 3) (a : BitVec 8) (d : BitVec 8) (s : State) : exec (.cvtN64F64 x r a d) s = execCvtN64F64 x r a d s := rfl
theorem exec_cvtF64I64 (r : BitVec 3) (a : BitVec 8) (d : BitVec 8) (s : State) : exec (.cvtF64I64 r a d) s = execCvtF64I64 r a d s := rfl
theorem exec_cvtF64N64 (r : BitVec 3) (a : BitVec 8) (d : BitVec 8) (s : State) : exec (.cvtF64N64 r a d) s = execCvtF64N64 r a d s := rfl
theorem exec_cvtI16I32 (x : BitVec 1) (a : BitVec 8) (d : BitVec 8) (s : State) : exec (.cvtI16I32 x a d) s = execCvtI16I32 x a d s := rfl
theorem exec_cvtN16N32 (x : BitVec 1) (a : BitVec 8) (d : BitVec 8) (s : State) : exec (.cvtN16N32 x a d) s = execCvtN16N32 x a d s := rfl
theorem exec_cvtI8I32 (x : BitVec 1) (a : BitVec 8) (d : BitVec 8) (s : State) : exec (.cvtI8I32 x a d) s = execCvtI8I32 x a d s := rfl
theorem exec_cvtN8N32 (x : BitVec 1) (a : BitVec 8) (d : BitVec 8) (s : State) : exec (.cvtN8N32 x a d) s = execCvtN8N32 x a d s := rfl
theorem exec_cvtFp19F32 (x : BitVec 1) (r : BitVec 3) (a : BitVec 8) (d : BitVec 8) (s : State) : exec (.cvtFp19F32 x r a d) s = execCvtFp19F32 x r a d s := rfl
theorem exec_cvtF32Fp19 (a : BitVec 8) (d : BitVec 8) (s : State) : exec (.cvtF32Fp19 a d) s = execCvtF32Fp19 a d s := rfl
theorem exec_cullbf (b : BitVec 8) (a : BitVec 8) (d : BitVec 7) (s : State) : exec (.cullbf b a d) s = execCullbf b a d s := rfl
theorem exec_cullfr (b : BitVec 8) (a : BitVec 8) (d : BitVec 7) (s : State) : exec (.cullfr b a d) s = execCullfr b a d s := rfl
theorem exec_cullsz (a : BitVec 8) (d : BitVec 7) (s : State) : exec (.cullsz a d) s = execCullsz a d s := rfl
theorem exec_bary (b : BitVec 8) (a : BitVec 8) (d : BitVec 8) (s : State) : exec (.bary b a d) s = execBary b a d s := rfl
theorem exec_spld (x : BitVec 7) (a : BitVec 8) (d : BitVec 8) (z : BitVec 2) (s : State) : exec (.spld x a d z) s = execSpld x a d z s := rfl
theorem exec_spst (x : BitVec 7) (a : BitVec 8) (d : BitVec 8) (z : BitVec 2) (s : State) : exec (.spst x a d z) s = execSpst x a d z s := rfl
theorem exec_spatXchg (x : BitVec 5) (a : BitVec 8) (d : BitVec 8) (s : State) : exec (.spatXchg x a d) s = execSpatXchg x a d s := rfl
theorem exec_spatCas (x : BitVec 5) (a : BitVec 8) (d : BitVec 8) (s : State) : exec (.spatCas x a d) s = execSpatCas x a d s := rfl
theorem exec_spatIadd (x : BitVec 5) (a : BitVec 8) (d : BitVec 8) (s : State) : exec (.spatIadd x a d) s = execSpatIadd x a d s := rfl
theorem exec_spatIminI (x : BitVec 5) (a : BitVec 8) (d : BitVec 8) (s : State) : exec (.spatIminI x a d) s = execSpatIminI x a d s := rfl
theorem exec_spatImaxI (x : BitVec 5) (a : BitVec 8) (d : BitVec 8) (s : State) : exec (.spatImaxI x a d) s = execSpatImaxI x a d s := rfl
theorem exec_spatIminN (x : BitVec 5) (a : BitVec 8) (d : BitVec 8) (s : State) : exec (.spatIminN x a d) s = execSpatIminN x a d s := rfl
theorem exec_spatImaxN (x : BitVec 5) (a : BitVec 8) (d : BitVec 8) (s : State) : exec (.spatImaxN x a d) s = execSpatImaxN x a d s := rfl
theorem exec_spatAnd (x : BitVec 5) (a : BitVec 8) (d : BitVec 8) (s : State) : exec (.spatAnd x a d) s = execSpatAnd x a d s := rfl
theorem exec_spatOr (x : BitVec 5) (a : BitVec 8) (d : BitVec 8) (s : State) : exec (.spatOr x a d) s = execSpatOr x a d s := rfl
theorem exec_spatXor (x : BitVec 5) (a : BitVec 8) (d : BitVec 8) (s : State) : exec (.spatXor x a d) s = execSpatXor x a d s := rfl
theorem exec_spatFadd (x : BitVec 5) (a : BitVec 8) (d : BitVec 8) (s : State) : exec (.spatFadd x a d) s = execSpatFadd x a d s := rfl
theorem exec_spatFmin (x : BitVec 5) (a : BitVec 8) (d : BitVec 8) (s : State) : exec (.spatFmin x a d) s = execSpatFmin x a d s := rfl
theorem exec_spatFmax (x : BitVec 5) (a : BitVec 8) (d : BitVec 8) (s : State) : exec (.spatFmax x a d) s = execSpatFmax x a d s := rfl
theorem exec_ctins (f : BitVec 2) (t : BitVec 2) (a : BitVec 8) (d : BitVec 8) (s : State) : exec (.ctins f t a d) s = execCtins f t a d s := rfl
theorem exec_ctprb (f : BitVec 1) (t : BitVec 2) (a : BitVec 8) (d : BitVec 8) (s : State) : exec (.ctprb f t a d) s = execCtprb f t a d s := rfl
theorem exec_ctdel (f : BitVec 1) (t : BitVec 2) (a : BitVec 8) (d : BitVec 8) (s : State) : exec (.ctdel f t a d) s = execCtdel f t a d s := rfl
theorem exec_ctacc (f : BitVec 2) (t : BitVec 2) (a : BitVec 8) (d : BitVec 8) (s : State) : exec (.ctacc f t a d) s = execCtacc f t a d s := rfl
theorem exec_ctinit (d : BitVec 7) (a : BitVec 7) (s : State) : exec (.ctinit d a) s = execCtinit d a s := rfl
theorem exec_ctfree (a : BitVec 7) (s : State) : exec (.ctfree a) s = execCtfree a s := rfl
theorem exec_ctstat (d : BitVec 7) (a : BitVec 7) (s : State) : exec (.ctstat d a) s = execCtstat d a s := rfl
theorem exec_ctdrain (cur : BitVec 7) (out : BitVec 7) (ctl : BitVec 7) (s : State) : exec (.ctdrain cur out ctl) s = execCtdrain cur out ctl s := rfl
theorem exec_spmap (size : BitVec 7) (va : BitVec 7) (ctl : BitVec 7) (s : State) : exec (.spmap size va ctl) s = execSpmap size va ctl s := rfl
theorem exec_spunmap (m : BitVec 7) (s : State) : exec (.spunmap m) s = execSpunmap m s := rfl
theorem exec_spwb (m : BitVec 7) (s : State) : exec (.spwb m) s = execSpwb m s := rfl
theorem exec_ldG (x : BitVec 7) (a : BitVec 8) (d : BitVec 8) (z : BitVec 2) (s : State) : exec (.ldG x a d z) s = execLdG x a d z s := rfl
theorem exec_ldfwd (x : BitVec 7) (a : BitVec 8) (d : BitVec 8) (s : State) : exec (.ldfwd x a d) s = execLdfwd x a d s := rfl
theorem exec_stG (x : BitVec 7) (a : BitVec 8) (d : BitVec 8) (z : BitVec 2) (s : State) : exec (.stG x a d z) s = execStG x a d z s := rfl
theorem exec_stfwd (x : BitVec 7) (a : BitVec 8) (d : BitVec 8) (s : State) : exec (.stfwd x a d) s = execStfwd x a d s := rfl
theorem exec_atomGXchg (x : BitVec 5) (a : BitVec 8) (d : BitVec 8) (s : State) : exec (.atomGXchg x a d) s = execAtomGXchg x a d s := rfl
theorem exec_atomGCas (x : BitVec 5) (a : BitVec 8) (d : BitVec 8) (s : State) : exec (.atomGCas x a d) s = execAtomGCas x a d s := rfl
theorem exec_atomGIadd (x : BitVec 5) (a : BitVec 8) (d : BitVec 8) (s : State) : exec (.atomGIadd x a d) s = execAtomGIadd x a d s := rfl
theorem exec_atomGIminI (x : BitVec 5) (a : BitVec 8) (d : BitVec 8) (s : State) : exec (.atomGIminI x a d) s = execAtomGIminI x a d s := rfl
theorem exec_atomGImaxI (x : BitVec 5) (a : BitVec 8) (d : BitVec 8) (s : State) : exec (.atomGImaxI x a d) s = execAtomGImaxI x a d s := rfl
theorem exec_atomGIminN (x : BitVec 5) (a : BitVec 8) (d : BitVec 8) (s : State) : exec (.atomGIminN x a d) s = execAtomGIminN x a d s := rfl
theorem exec_atomGImaxN (x : BitVec 5) (a : BitVec 8) (d : BitVec 8) (s : State) : exec (.atomGImaxN x a d) s = execAtomGImaxN x a d s := rfl
theorem exec_atomGAnd (x : BitVec 5) (a : BitVec 8) (d : BitVec 8) (s : State) : exec (.atomGAnd x a d) s = execAtomGAnd x a d s := rfl
theorem exec_atomGOr (x : BitVec 5) (a : BitVec 8) (d : BitVec 8) (s : State) : exec (.atomGOr x a d) s = execAtomGOr x a d s := rfl
theorem exec_atomGXor (x : BitVec 5) (a : BitVec 8) (d : BitVec 8) (s : State) : exec (.atomGXor x a d) s = execAtomGXor x a d s := rfl
theorem exec_atomGFadd (x : BitVec 5) (a : BitVec 8) (d : BitVec 8) (s : State) : exec (.atomGFadd x a d) s = execAtomGFadd x a d s := rfl
theorem exec_atomGFmin (x : BitVec 5) (a : BitVec 8) (d : BitVec 8) (s : State) : exec (.atomGFmin x a d) s = execAtomGFmin x a d s := rfl
theorem exec_atomGFmax (x : BitVec 5) (a : BitVec 8) (d : BitVec 8) (s : State) : exec (.atomGFmax x a d) s = execAtomGFmax x a d s := rfl
theorem exec_redGIadd (x : BitVec 5) (a : BitVec 8) (s : State) : exec (.redGIadd x a) s = execRedGIadd x a s := rfl
theorem exec_redGIminI (x : BitVec 5) (a : BitVec 8) (s : State) : exec (.redGIminI x a) s = execRedGIminI x a s := rfl
theorem exec_redGImaxI (x : BitVec 5) (a : BitVec 8) (s : State) : exec (.redGImaxI x a) s = execRedGImaxI x a s := rfl
theorem exec_redGIminN (x : BitVec 5) (a : BitVec 8) (s : State) : exec (.redGIminN x a) s = execRedGIminN x a s := rfl
theorem exec_redGImaxN (x : BitVec 5) (a : BitVec 8) (s : State) : exec (.redGImaxN x a) s = execRedGImaxN x a s := rfl
theorem exec_redGAnd (x : BitVec 5) (a : BitVec 8) (s : State) : exec (.redGAnd x a) s = execRedGAnd x a s := rfl
theorem exec_redGOr (x : BitVec 5) (a : BitVec 8) (s : State) : exec (.redGOr x a) s = execRedGOr x a s := rfl
theorem exec_redGXor (x : BitVec 5) (a : BitVec 8) (s : State) : exec (.redGXor x a) s = execRedGXor x a s := rfl
theorem exec_redGFadd (x : BitVec 5) (a : BitVec 8) (s : State) : exec (.redGFadd x a) s = execRedGFadd x a s := rfl
theorem exec_redGFmin (x : BitVec 5) (a : BitVec 8) (s : State) : exec (.redGFmin x a) s = execRedGFmin x a s := rfl
theorem exec_redGFmax (x : BitVec 5) (a : BitVec 8) (s : State) : exec (.redGFmax x a) s = execRedGFmax x a s := rfl
theorem exec_lds (o : BitVec 7) (b : BitVec 7) (d : BitVec 7) (s : State) : exec (.lds o b d) s = execLds o b d s := rfl
theorem exec_lds64 (o : BitVec 7) (b : BitVec 7) (d : BitVec 7) (s : State) : exec (.lds64 o b d) s = execLds64 o b d s := rfl
theorem exec_sts (o : BitVec 7) (b : BitVec 7) (a : BitVec 7) (s : State) : exec (.sts o b a) s = execSts o b a s := rfl
theorem exec_sts64 (o : BitVec 7) (b : BitVec 7) (a : BitVec 7) (s : State) : exec (.sts64 o b a) s = execSts64 o b a s := rfl
theorem exec_pref (o : BitVec 7) (b : BitVec 7) (h : BitVec 7) (s : State) : exec (.pref o b h) s = execPref o b h s := rfl
theorem exec_post (arg : BitVec 7) (card : BitVec 7) (target : BitVec 7) (s : State) : exec (.post arg card target) s = execPost arg card target s := rfl
theorem exec_depdec (b : BitVec 7) (s : State) : exec (.depdec b) s = execDepdec b s := rfl
theorem exec_ringarr (r : BitVec 7) (s : State) : exec (.ringarr r) s = execRingarr r s := rfl
theorem exec_ringwait (p : BitVec 7) (r : BitVec 7) (s : State) : exec (.ringwait p r) s = execRingwait p r s := rfl
theorem exec_mboxsend (m : BitVec 7) (v : BitVec 7) (s : State) : exec (.mboxsend m v) s = execMboxsend m v s := rfl
theorem exec_cpTensor (d : BitVec 7) (s : State) : exec (.cpTensor d) s = execCpTensor d s := rfl
theorem exec_cpGather (d : BitVec 7) (s : State) : exec (.cpGather d) s = execCpGather d s := rfl
theorem exec_cpScatter (d : BitVec 7) (s : State) : exec (.cpScatter d) s = execCpScatter d s := rfl
theorem exec_cpMcast (d : BitVec 7) (s : State) : exec (.cpMcast d) s = execCpMcast d s := rfl
theorem exec_cpPack (d : BitVec 7) (s : State) : exec (.cpPack d) s = execCpPack d s := rfl
theorem exec_cpUnpack (d : BitVec 7) (s : State) : exec (.cpUnpack d) s = execCpUnpack d s := rfl
theorem exec_cpFill (d : BitVec 7) (s : State) : exec (.cpFill d) s = execCpFill d s := rfl
theorem exec_cpCancel (b : BitVec 7) (s : State) : exec (.cpCancel b) s = execCpCancel b s := rfl
theorem exec_barinit (e : BitVec 7) (o : BitVec 7) (s : State) : exec (.barinit e o) s = execBarinit e o s := rfl
theorem exec_barexp (n : BitVec 7) (o : BitVec 7) (s : State) : exec (.barexp n o) s = execBarexp n o s := rfl
theorem exec_barwait (p : BitVec 7) (o : BitVec 7) (d : BitVec 7) (s : State) : exec (.barwait p o d) s = execBarwait p o d s := rfl
theorem exec_bartest (o : BitVec 7) (d : BitVec 7) (s : State) : exec (.bartest o d) s = execBartest o d s := rfl
theorem exec_tagalloc (c : BitVec 7) (d : BitVec 7) (s : State) : exec (.tagalloc c d) s = execTagalloc c d s := rfl
theorem exec_tagallocTree (n : BitVec 7) (c : BitVec 7) (d : BitVec 7) (s : State) : exec (.tagallocTree n c d) s = execTagallocTree n c d s := rfl
theorem exec_tagfree (t : BitVec 7) (s : State) : exec (.tagfree t) s = execTagfree t s := rfl
theorem exec_fsend (m : BitVec 7) (o : BitVec 7) (s : State) : exec (.fsend m o) s = execFsend m o s := rfl
theorem exec_tagqry (t : BitVec 7) (d : BitVec 7) (s : State) : exec (.tagqry t d) s = execTagqry t d s := rfl
theorem exec_mma (p : BitVec 5) (t : BitVec 1) (o : BitVec 1) (c : BitVec 3) (b : BitVec 4) (a : BitVec 4) (k : BitVec 3) (s : State) : exec (.mma p t o c b a k) s = execMma p t o c b a k s := rfl
theorem exec_oclaim (x : BitVec 7) (imm : BitVec 4) (s : State) : exec (.oclaim x imm) s = execOclaim x imm s := rfl
theorem exec_orelease (imm : BitVec 4) (s : State) : exec (.orelease imm) s = execOrelease imm s := rfl
theorem exec_osetfmt (x : BitVec 7) (imm : BitVec 4) (s : State) : exec (.osetfmt x imm) s = execOsetfmt x imm s := rfl
theorem exec_aclaim (x : BitVec 7) (imm : BitVec 3) (s : State) : exec (.aclaim x imm) s = execAclaim x imm s := rfl
theorem exec_arelease (imm : BitVec 3) (s : State) : exec (.arelease imm) s = execArelease imm s := rfl
theorem exec_ainit (imm : BitVec 3) (s : State) : exec (.ainit imm) s = execAinit imm s := rfl
theorem exec_ainitSet (x : BitVec 7) (imm : BitVec 3) (s : State) : exec (.ainitSet x imm) s = execAinitSet x imm s := rfl
theorem exec_ainitSlot (x : BitVec 7) (imm : BitVec 3) (s : State) : exec (.ainitSlot x imm) s = execAinitSlot x imm s := rfl
theorem exec_ald (x : BitVec 7) (imm : BitVec 3) (d : BitVec 8) (s : State) : exec (.ald x imm d) s = execAld x imm d s := rfl
theorem exec_aldCol (x : BitVec 7) (imm : BitVec 3) (d : BitVec 8) (s : State) : exec (.aldCol x imm d) s = execAldCol x imm d s := rfl
theorem exec_aldStat (imm : BitVec 3) (d : BitVec 8) (s : State) : exec (.aldStat imm d) s = execAldStat imm d s := rfl
theorem exec_ast (x : BitVec 7) (imm : BitVec 3) (d : BitVec 8) (s : State) : exec (.ast x imm d) s = execAst x imm d s := rfl
theorem exec_astCol (x : BitVec 7) (imm : BitVec 3) (d : BitVec 8) (s : State) : exec (.astCol x imm d) s = execAstCol x imm d s := rfl
theorem exec_qbfp (x : BitVec 7) (imm : BitVec 4) (d : BitVec 8) (s : State) : exec (.qbfp x imm d) s = execQbfp x imm d s := rfl
theorem exec_ofill (x : BitVec 7) (imm : BitVec 4) (d : BitVec 8) (s : State) : exec (.ofill x imm d) s = execOfill x imm d s := rfl
theorem exec_oread (x : BitVec 7) (imm : BitVec 4) (d : BitVec 8) (s : State) : exec (.oread x imm d) s = execOread x imm d s := rfl
theorem exec_oreadRec (imm : BitVec 4) (d : BitVec 8) (s : State) : exec (.oreadRec imm d) s = execOreadRec imm d s := rfl
theorem exec_rtrace (x : BitVec 4) (a : BitVec 8) (d : BitVec 8) (s : State) : exec (.rtrace x a d) s = execRtrace x a d s := rfl
theorem exec_rtany (x : BitVec 4) (a : BitVec 8) (d : BitVec 8) (s : State) : exec (.rtany x a d) s = execRtany x a d s := rfl
theorem exec_rtqry (x : BitVec 4) (a : BitVec 8) (d : BitVec 8) (s : State) : exec (.rtqry x a d) s = execRtqry x a d s := rfl
theorem exec_ltwalk (x : BitVec 4) (a : BitVec 8) (d : BitVec 8) (s : State) : exec (.ltwalk x a d) s = execLtwalk x a d s := rfl
theorem exec_ltpdf (x : BitVec 4) (a : BitVec 8) (d : BitVec 8) (s : State) : exec (.ltpdf x a d) s = execLtpdf x a d s := rfl
theorem exec_texld (x : BitVec 4) (a : BitVec 8) (d : BitVec 8) (s : State) : exec (.texld x a d) s = execTexld x a d s := rfl
theorem exec_texg (x : BitVec 4) (a : BitVec 8) (d : BitVec 8) (s : State) : exec (.texg x a d) s = execTexg x a d s := rfl
theorem exec_rngctr (a : BitVec 8) (d : BitVec 8) (s : State) : exec (.rngctr a d) s = execRngctr a d s := rfl
theorem exec_rngf (a : BitVec 8) (d : BitVec 8) (s : State) : exec (.rngf a d) s = execRngf a d s := rfl
theorem exec_rsvinit (d : BitVec 8) (s : State) : exec (.rsvinit d) s = execRsvinit d s := rfl
theorem exec_rsvupd (a : BitVec 8) (d : BitVec 8) (s : State) : exec (.rsvupd a d) s = execRsvupd a d s := rfl
theorem exec_rsvmrg (a : BitVec 8) (d : BitVec 8) (s : State) : exec (.rsvmrg a d) s = execRsvmrg a d s := rfl
theorem exec_rsvnorm (d : BitVec 8) (s : State) : exec (.rsvnorm d) s = execRsvnorm d s := rfl
theorem exec_rsvld (x : BitVec 4) (a : BitVec 8) (d : BitVec 8) (s : State) : exec (.rsvld x a d) s = execRsvld x a d s := rfl
theorem exec_rsvst (x : BitVec 4) (a : BitVec 8) (d : BitVec 8) (s : State) : exec (.rsvst x a d) s = execRsvst x a d s := rfl
theorem exec_reuse (x : BitVec 4) (s : State) : exec (.reuse x) s = execReuse x s := rfl
theorem exec_tgtret (a : BitVec 8) (d : BitVec 8) (s : State) : exec (.tgtret a d) s = execTgtret a d s := rfl
theorem exec_brimx (x : BitVec 4) (s : State) : exec (.brimx x) s = execBrimx x s := rfl
theorem exec_splitPromotion (core : Nat) (slot : Nat) (split : Nat) (s : State) : exec (.splitPromotion core slot split) s = execSplitPromotion core slot split s := rfl
theorem exec_sleepExpiry (core : Nat) (slot : Nat) (split : Nat) (s : State) : exec (.sleepExpiry core slot split) s = execSleepExpiry core slot split s := rfl
theorem exec_flagOperationComplete (core : Nat) (slot : Nat) (op : Nat) (s : State) : exec (.flagOperationComplete core slot op) s = execFlagOperationComplete core slot op s := rfl
theorem exec_globalLoadReturn (core : Nat) (slot : Nat) (op : Nat) (s : State) : exec (.globalLoadReturn core slot op) s = execGlobalLoadReturn core slot op s := rfl
theorem exec_regionCommit (core : Nat) (slot : Nat) (s : State) : exec (.regionCommit core slot) s = execRegionCommit core slot s := rfl
theorem exec_reservationLapse (line : Nat) (s : State) : exec (.reservationLapse line) s = execReservationLapse line s := rfl
theorem exec_capacityCommit (core : Nat) (slot : Nat) (s : State) : exec (.capacityCommit core slot) s = execCapacityCommit core slot s := rfl
theorem exec_atomicCommit (core : Nat) (slot : Nat) (op : Nat) (s : State) : exec (.atomicCommit core slot op) s = execAtomicCommit core slot op s := rfl
theorem exec_lineFill (team : Nat) (map : Nat) (line : Nat) (s : State) : exec (.lineFill team map line) s = execLineFill team map line s := rfl
theorem exec_peerScratchpadAccess (msg : Nat) (s : State) : exec (.peerScratchpadAccess msg) s = execPeerScratchpadAccess msg s := rfl
theorem exec_copyCommandStart (core : Nat) (cmd : Nat) (s : State) : exec (.copyCommandStart core cmd) s = execCopyCommandStart core cmd s := rfl
theorem exec_copyRowComplete (core : Nat) (cmd : Nat) (s : State) : exec (.copyRowComplete core cmd) s = execCopyRowComplete core cmd s := rfl
theorem exec_copyFault (core : Nat) (cmd : Nat) (s : State) : exec (.copyFault core cmd) s = execCopyFault core cmd s := rfl
theorem exec_copyRestart (core : Nat) (cmd : Nat) (s : State) : exec (.copyRestart core cmd) s = execCopyRestart core cmd s := rfl
theorem exec_copyResume (core : Nat) (cmd : Nat) (terminate : Bool) (s : State) : exec (.copyResume core cmd terminate) s = execCopyResume core cmd terminate s := rfl
theorem exec_mmaStart (core : Nat) (mma : Nat) (s : State) : exec (.mmaStart core mma) s = execMmaStart core mma s := rfl
theorem exec_mmaComplete (core : Nat) (mma : Nat) (s : State) : exec (.mmaComplete core mma) s = execMmaComplete core mma s := rfl
theorem exec_signalStore (sender : Sender) (die : Nat) (box : Nat) (value : BitVec 32) (s : State) : exec (.signalStore sender die box value) s = execSignalStore sender die box value s := rfl
theorem exec_fullingOperandArrival (msg : Nat) (s : State) : exec (.fullingOperandArrival msg) s = execFullingOperandArrival msg s := rfl
theorem exec_fullingSpillRefill (ctx : Nat) (capacity : BitVec 32) (s : State) : exec (.fullingSpillRefill ctx capacity) s = execFullingSpillRefill ctx capacity s := rfl
theorem exec_fullingReload (node : Nat) (s : State) : exec (.fullingReload node) s = execFullingReload node s := rfl
theorem exec_fsendRetry (msg : Nat) (s : State) : exec (.fsendRetry msg) s = execFsendRetry msg s := rfl
theorem exec_fsendOverflow (msg : Nat) (s : State) : exec (.fsendOverflow msg) s = execFsendOverflow msg s := rfl
theorem exec_orphanExpiry (msg : Nat) (s : State) : exec (.orphanExpiry msg) s = execOrphanExpiry msg s := rfl
theorem exec_spillSweep (node : Nat) (s : State) : exec (.spillSweep node) s = execSpillSweep node s := rfl
theorem exec_fullingDelivery (msg : Nat) (s : State) : exec (.fullingDelivery msg) s = execFullingDelivery msg s := rfl
theorem exec_heldDeliveryExpiry (msg : Nat) (s : State) : exec (.heldDeliveryExpiry msg) s = execHeldDeliveryExpiry msg s := rfl
theorem exec_teamPlacement (die : Nat) (s : State) : exec (.teamPlacement die) s = execTeamPlacement die s := rfl
theorem exec_launchMessage (block : Nat) (s : State) : exec (.launchMessage block) s = execLaunchMessage block s := rfl
theorem exec_teamEnd (team : Nat) (s : State) : exec (.teamEnd team) s = execTeamEnd team s := rfl
theorem exec_gridEnd (grid : Nat) (s : State) : exec (.gridEnd grid) s = execGridEnd grid s := rfl
theorem exec_pageWalk (core : Nat) (ctx : Nat) (va : BitVec 80) (kind : Nat) (s : State) : exec (.pageWalk core ctx va kind) s = execPageWalk core ctx va kind s := rfl
theorem exec_migratingRetry (core : Nat) (ctx : Nat) (va : BitVec 80) (kind : Nat) (s : State) : exec (.migratingRetry core ctx va kind) s = execMigratingRetry core ctx va kind s := rfl
theorem exec_invalidationAck (req : Nat) (s : State) : exec (.invalidationAck req) s = execInvalidationAck req s := rfl
theorem exec_supervisorEntry (core : Nat) (s : State) : exec (.supervisorEntry core) s = execSupervisorEntry core s := rfl
theorem exec_hostTrapAction (core : Nat) (slot : Nat) (action : BitVec 32) (hwm : BitVec 32) (s : State) : exec (.hostTrapAction core slot action hwm) s = execHostTrapAction core slot action hwm s := rfl
theorem exec_preemptSave (core : Nat) (tslot : Nat) (s : State) : exec (.preemptSave core tslot) s = execPreemptSave core tslot s := rfl
theorem exec_preemptLimitExpiry (core : Nat) (tslot : Nat) (s : State) : exec (.preemptLimitExpiry core tslot) s = execPreemptLimitExpiry core tslot s := rfl
theorem exec_watchdog (team : Nat) (s : State) : exec (.watchdog team) s = execWatchdog team s := rfl
theorem exec_debugHalt (core : Nat) (s : State) : exec (.debugHalt core) s = execDebugHalt core s := rfl
theorem exec_debugResume (core : Nat) (s : State) : exec (.debugResume core) s = execDebugResume core s := rfl
theorem exec_peerLinkDown (port : Nat) (s : State) : exec (.peerLinkDown port) s = execPeerLinkDown port s := rfl
theorem exec_peerLinkUp (port : Nat) (s : State) : exec (.peerLinkUp port) s = execPeerLinkUp port s := rfl
theorem exec_flitReplay (link : Nat) (s : State) : exec (.flitReplay link) s = execFlitReplay link s := rfl
theorem exec_uncorrectableFlit (link : Nat) (line : Nat) (core : Nat) (slot : Nat) (control : Bool) (s : State) : exec (.uncorrectableFlit link line core slot control) s = execUncorrectableFlit link line core slot control s := rfl
theorem exec_moduleLaneFailure (link : Nat) (s : State) : exec (.moduleLaneFailure link) s = execModuleLaneFailure link s := rfl
theorem exec_powerThrottle (die : Nat) (s : State) : exec (.powerThrottle die) s = execPowerThrottle die s := rfl
theorem exec_thermalThrottle (die : Nat) (s : State) : exec (.thermalThrottle die) s = execThermalThrottle die s := rfl
theorem exec_thermtrip (s : State) : exec (.thermtrip) s = execThermtrip s := rfl
theorem exec_reset (s : State) : exec (.reset) s = execReset s := rfl
theorem exec_attestationRequest (nonce : BitVec 256) (s : State) : exec (.attestationRequest nonce) s = execAttestationRequest nonce s := rfl
theorem exec_slPin (line : Nat) (s : State) : exec (.slPin line) s = execSlPin line s := rfl
theorem exec_slUnpin (line : Nat) (s : State) : exec (.slUnpin line) s = execSlUnpin line s := rfl
theorem exec_slBypassClear (slice : Nat) (mask : BitVec 32) (s : State) : exec (.slBypassClear slice mask) s = execSlBypassClear slice mask s := rfl
theorem exec_contextBindingWrite (index : Nat) (ctx : Nat) (port : Nat) (remote : Nat) (s : State) : exec (.contextBindingWrite index ctx port remote) s = execContextBindingWrite index ctx port remote s := rfl
theorem exec_controlNodeMemoryAccess (pa : Nat) (msg : Nat) (write : Bool) (s : State) : exec (.controlNodeMemoryAccess pa msg write) s = execControlNodeMemoryAccess pa msg write s := rfl
theorem exec_shootdownRequest (ctx : Nat) (va : BitVec 80) (pages : Nat) (s : State) : exec (.shootdownRequest ctx va pages) s = execShootdownRequest ctx va pages s := rfl
theorem exec_harvestRequest (ctx : Nat) (va : BitVec 80) (pages : Nat) (s : State) : exec (.harvestRequest ctx va pages) s = execHarvestRequest ctx va pages s := rfl
theorem exec_cardingSpillAllocation (team : Nat) (table : Nat) (base : BitVec 64) (refuse : Bool) (s : State) : exec (.cardingSpillAllocation team table base refuse) s = execCardingSpillAllocation team table base refuse s := rfl
theorem exec_dramScrub (line : Nat) (s : State) : exec (.dramScrub line) s = execDramScrub line s := rfl
theorem exec_sramScrub (line : Nat) (s : State) : exec (.sramScrub line) s = execSramScrub line s := rfl
theorem exec_scrublate (s : State) : exec (.scrublate) s = execScrublate s := rfl
theorem exec_ucieRetraining (link : Nat) (s : State) : exec (.ucieRetraining link) s = execUcieRetraining link s := rfl
theorem exec_gddr7Retraining (device : Nat) (s : State) : exec (.gddr7Retraining device) s = execGddr7Retraining device s := rfl
theorem exec_agingMonitor (s : State) : exec (.agingMonitor) s = execAgingMonitor s := rfl
theorem exec_flashWearLevelling (s : State) : exec (.flashWearLevelling) s = execFlashWearLevelling s := rfl
theorem exec_telemetry (s : State) : exec (.telemetry) s = execTelemetry s := rfl
theorem exec_rayUnitComplete (core : Nat) (op : Nat) (s : State) : exec (.rayUnitComplete core op) s = execRayUnitComplete core op s := rfl
theorem exec_rayLaneRestart (core : Nat) (op : Nat) (lane : Nat) (s : State) : exec (.rayLaneRestart core op lane) s = execRayLaneRestart core op lane s := rfl
theorem exec_reuseJobStart (core : Nat) (job : Nat) (s : State) : exec (.reuseJobStart core job) s = execReuseJobStart core job s := rfl
theorem exec_reuseBatch (core : Nat) (job : Nat) (s : State) : exec (.reuseBatch core job) s = execReuseBatch core job s := rfl
theorem exec_reuseMerge (core : Nat) (job : Nat) (s : State) : exec (.reuseMerge core job) s = execReuseMerge core job s := rfl
theorem exec_reuseJobComplete (core : Nat) (job : Nat) (s : State) : exec (.reuseJobComplete core job) s = execReuseJobComplete core job s := rfl
theorem exec_brimArrival (core : Nat) (op : Nat) (s : State) : exec (.brimArrival core op) s = execBrimArrival core op s := rfl
theorem exec_illegalEncoding (word : BitVec 32) (s : State) : exec (.illegalEncoding word) s = execIllegalEncoding word s := rfl
theorem exec_tagNodeAcknowledgement (req : Nat) (s : State) : exec (.tagNodeAcknowledgement req) s = execTagNodeAcknowledgement req s := rfl
theorem exec_dirtyHarvestComplete (req : Nat) (s : State) : exec (.dirtyHarvestComplete req) s = execDirtyHarvestComplete req s := rfl
theorem exec_zeroingComplete (core : Nat) (slot : Nat) (s : State) : exec (.zeroingComplete core slot) s = execZeroingComplete core slot s := rfl
theorem exec_taskQueueAcceptance (msg : Nat) (s : State) : exec (.taskQueueAcceptance msg) s = execTaskQueueAcceptance msg s := rfl
theorem exec_thermalThrottleEnd (die : Nat) (s : State) : exec (.thermalThrottleEnd die) s = execThermalThrottleEnd die s := rfl
theorem exec_peerPortRequest (port : Nat) (pa : Nat) (msg : Nat) (write : Bool) (s : State) : exec (.peerPortRequest port pa msg write) s = execPeerPortRequest port pa msg write s := rfl

end Sys2Proof.Machine
end

