-- ==== Sys2Proof/Laws/State.lean ====
section
/-! SUPPORT. Sys2Proof/Laws/State.lean: what each named update of the state leaves in each field. -/

namespace Sys2Proof.Machine

@[simp] theorem State.setCore_g (s : State) (c : Nat) (k : Core) : (s.setCore c k).g = s.g := rfl
@[simp] theorem State.setCore_p (s : State) (c : Nat) (k : Core) : (s.setCore c k).p = s.p := rfl
@[simp] theorem State.setCore_cur (s : State) (c : Nat) (k : Core) : (s.setCore c k).cur = s.cur := rfl
@[simp] theorem State.setCore_others (s : State) (c : Nat) (k : Core) : (s.setCore c k).others = s.others := rfl
@[simp] theorem State.setCore_ctxs (s : State) (c : Nat) (k : Core) : (s.setCore c k).ctxs = s.ctxs := rfl
@[simp] theorem State.setCore_mem (s : State) (c : Nat) (k : Core) : (s.setCore c k).mem = s.mem := rfl
@[simp] theorem State.setCore_dev (s : State) (c : Nat) (k : Core) : (s.setCore c k).dev = s.dev := rfl
@[simp] theorem State.setCore_clock (s : State) (c : Nat) (k : Core) : (s.setCore c k).clock = s.clock := rfl
@[simp] theorem State.setCore_agenda (s : State) (c : Nat) (k : Core) : (s.setCore c k).agenda = s.agenda := rfl
@[simp] theorem State.setCore_issued (s : State) (c : Nat) (k : Core) : (s.setCore c k).issued = s.issued := rfl
@[simp] theorem State.setCore_phase (s : State) (c : Nat) (k : Core) : (s.setCore c k).phase = s.phase := rfl
@[simp] theorem State.setCore_stir (s : State) (c : Nat) (k : Core) : (s.setCore c k).stir = s.stir := rfl
@[simp] theorem State.setCore_sched (s : State) (c : Nat) (k : Core) : (s.setCore c k).sched = s.sched := rfl
@[simp] theorem State.setCore_nextId (s : State) (c : Nat) (k : Core) : (s.setCore c k).nextId = s.nextId := rfl
@[simp] theorem State.setCtx_g (s : State) (c : Nat) (k : Ctx) : (s.setCtx c k).g = s.g := rfl
@[simp] theorem State.setCtx_p (s : State) (c : Nat) (k : Ctx) : (s.setCtx c k).p = s.p := rfl
@[simp] theorem State.setCtx_cur (s : State) (c : Nat) (k : Ctx) : (s.setCtx c k).cur = s.cur := rfl
@[simp] theorem State.setCtx_others (s : State) (c : Nat) (k : Ctx) : (s.setCtx c k).others = s.others := rfl
@[simp] theorem State.setCtx_cores (s : State) (c : Nat) (k : Ctx) : (s.setCtx c k).cores = s.cores := rfl
@[simp] theorem State.setCtx_mem (s : State) (c : Nat) (k : Ctx) : (s.setCtx c k).mem = s.mem := rfl
@[simp] theorem State.setCtx_dev (s : State) (c : Nat) (k : Ctx) : (s.setCtx c k).dev = s.dev := rfl
@[simp] theorem State.setCtx_clock (s : State) (c : Nat) (k : Ctx) : (s.setCtx c k).clock = s.clock := rfl
@[simp] theorem State.setCtx_agenda (s : State) (c : Nat) (k : Ctx) : (s.setCtx c k).agenda = s.agenda := rfl
@[simp] theorem State.setCtx_issued (s : State) (c : Nat) (k : Ctx) : (s.setCtx c k).issued = s.issued := rfl
@[simp] theorem State.setCtx_phase (s : State) (c : Nat) (k : Ctx) : (s.setCtx c k).phase = s.phase := rfl
@[simp] theorem State.setCtx_stir (s : State) (c : Nat) (k : Ctx) : (s.setCtx c k).stir = s.stir := rfl
@[simp] theorem State.setCtx_sched (s : State) (c : Nat) (k : Ctx) : (s.setCtx c k).sched = s.sched := rfl
@[simp] theorem State.setCtx_nextId (s : State) (c : Nat) (k : Ctx) : (s.setCtx c k).nextId = s.nextId := rfl
@[simp] theorem State.modDev_g (s : State) (f : Dev → Dev) : (s.modDev f).g = s.g := rfl
@[simp] theorem State.modDev_p (s : State) (f : Dev → Dev) : (s.modDev f).p = s.p := rfl
@[simp] theorem State.modDev_cur (s : State) (f : Dev → Dev) : (s.modDev f).cur = s.cur := rfl
@[simp] theorem State.modDev_others (s : State) (f : Dev → Dev) : (s.modDev f).others = s.others := rfl
@[simp] theorem State.modDev_cores (s : State) (f : Dev → Dev) : (s.modDev f).cores = s.cores := rfl
@[simp] theorem State.modDev_ctxs (s : State) (f : Dev → Dev) : (s.modDev f).ctxs = s.ctxs := rfl
@[simp] theorem State.modDev_mem (s : State) (f : Dev → Dev) : (s.modDev f).mem = s.mem := rfl
@[simp] theorem State.modDev_clock (s : State) (f : Dev → Dev) : (s.modDev f).clock = s.clock := rfl
@[simp] theorem State.modDev_agenda (s : State) (f : Dev → Dev) : (s.modDev f).agenda = s.agenda := rfl
@[simp] theorem State.modDev_issued (s : State) (f : Dev → Dev) : (s.modDev f).issued = s.issued := rfl
@[simp] theorem State.modDev_phase (s : State) (f : Dev → Dev) : (s.modDev f).phase = s.phase := rfl
@[simp] theorem State.modDev_stir (s : State) (f : Dev → Dev) : (s.modDev f).stir = s.stir := rfl
@[simp] theorem State.modDev_sched (s : State) (f : Dev → Dev) : (s.modDev f).sched = s.sched := rfl
@[simp] theorem State.modDev_nextId (s : State) (f : Dev → Dev) : (s.modDev f).nextId = s.nextId := rfl
@[simp] theorem State.after_g (s : State) (n : Nat) (ev : Event) : (s.after n ev).g = s.g := rfl
@[simp] theorem State.after_p (s : State) (n : Nat) (ev : Event) : (s.after n ev).p = s.p := rfl
@[simp] theorem State.after_cur (s : State) (n : Nat) (ev : Event) : (s.after n ev).cur = s.cur := rfl
@[simp] theorem State.after_others (s : State) (n : Nat) (ev : Event) : (s.after n ev).others = s.others := rfl
@[simp] theorem State.after_cores (s : State) (n : Nat) (ev : Event) : (s.after n ev).cores = s.cores := rfl
@[simp] theorem State.after_ctxs (s : State) (n : Nat) (ev : Event) : (s.after n ev).ctxs = s.ctxs := rfl
@[simp] theorem State.after_mem (s : State) (n : Nat) (ev : Event) : (s.after n ev).mem = s.mem := rfl
@[simp] theorem State.after_dev (s : State) (n : Nat) (ev : Event) : (s.after n ev).dev = s.dev := rfl
@[simp] theorem State.after_clock (s : State) (n : Nat) (ev : Event) : (s.after n ev).clock = s.clock := rfl
@[simp] theorem State.after_issued (s : State) (n : Nat) (ev : Event) : (s.after n ev).issued = s.issued := rfl
@[simp] theorem State.after_phase (s : State) (n : Nat) (ev : Event) : (s.after n ev).phase = s.phase := rfl
@[simp] theorem State.after_stir (s : State) (n : Nat) (ev : Event) : (s.after n ev).stir = s.stir := rfl
@[simp] theorem State.after_sched (s : State) (n : Nat) (ev : Event) : (s.after n ev).sched = s.sched := rfl
@[simp] theorem State.putS_p (s : State) (n : Nat) (x : Word) : (s.putS n x).p = s.p := rfl
@[simp] theorem State.putS_cur (s : State) (n : Nat) (x : Word) : (s.putS n x).cur = s.cur := rfl
@[simp] theorem State.putS_others (s : State) (n : Nat) (x : Word) : (s.putS n x).others = s.others := rfl
@[simp] theorem State.putS_cores (s : State) (n : Nat) (x : Word) : (s.putS n x).cores = s.cores := rfl
@[simp] theorem State.putS_ctxs (s : State) (n : Nat) (x : Word) : (s.putS n x).ctxs = s.ctxs := rfl
@[simp] theorem State.putS_mem (s : State) (n : Nat) (x : Word) : (s.putS n x).mem = s.mem := rfl
@[simp] theorem State.putS_dev (s : State) (n : Nat) (x : Word) : (s.putS n x).dev = s.dev := rfl
@[simp] theorem State.putS_clock (s : State) (n : Nat) (x : Word) : (s.putS n x).clock = s.clock := rfl
@[simp] theorem State.putS_agenda (s : State) (n : Nat) (x : Word) : (s.putS n x).agenda = s.agenda := rfl
@[simp] theorem State.putS_issued (s : State) (n : Nat) (x : Word) : (s.putS n x).issued = s.issued := rfl
@[simp] theorem State.putS_phase (s : State) (n : Nat) (x : Word) : (s.putS n x).phase = s.phase := rfl
@[simp] theorem State.putS_stir (s : State) (n : Nat) (x : Word) : (s.putS n x).stir = s.stir := rfl
@[simp] theorem State.putS_sched (s : State) (n : Nat) (x : Word) : (s.putS n x).sched = s.sched := rfl
@[simp] theorem State.putS_nextId (s : State) (n : Nat) (x : Word) : (s.putS n x).nextId = s.nextId := rfl
@[simp] theorem State.putV_p (s : State) (n : Nat) (m : Word) (f : Lanes) : (s.putV n m f).p = s.p := rfl
@[simp] theorem State.putV_cur (s : State) (n : Nat) (m : Word) (f : Lanes) : (s.putV n m f).cur = s.cur := rfl
@[simp] theorem State.putV_others (s : State) (n : Nat) (m : Word) (f : Lanes) : (s.putV n m f).others = s.others := rfl
@[simp] theorem State.putV_cores (s : State) (n : Nat) (m : Word) (f : Lanes) : (s.putV n m f).cores = s.cores := rfl
@[simp] theorem State.putV_ctxs (s : State) (n : Nat) (m : Word) (f : Lanes) : (s.putV n m f).ctxs = s.ctxs := rfl
@[simp] theorem State.putV_mem (s : State) (n : Nat) (m : Word) (f : Lanes) : (s.putV n m f).mem = s.mem := rfl
@[simp] theorem State.putV_dev (s : State) (n : Nat) (m : Word) (f : Lanes) : (s.putV n m f).dev = s.dev := rfl
@[simp] theorem State.putV_clock (s : State) (n : Nat) (m : Word) (f : Lanes) : (s.putV n m f).clock = s.clock := rfl
@[simp] theorem State.putV_agenda (s : State) (n : Nat) (m : Word) (f : Lanes) : (s.putV n m f).agenda = s.agenda := rfl
@[simp] theorem State.putV_issued (s : State) (n : Nat) (m : Word) (f : Lanes) : (s.putV n m f).issued = s.issued := rfl
@[simp] theorem State.putV_phase (s : State) (n : Nat) (m : Word) (f : Lanes) : (s.putV n m f).phase = s.phase := rfl
@[simp] theorem State.putV_stir (s : State) (n : Nat) (m : Word) (f : Lanes) : (s.putV n m f).stir = s.stir := rfl
@[simp] theorem State.putV_sched (s : State) (n : Nat) (m : Word) (f : Lanes) : (s.putV n m f).sched = s.sched := rfl
@[simp] theorem State.putV_nextId (s : State) (n : Nat) (m : Word) (f : Lanes) : (s.putV n m f).nextId = s.nextId := rfl
@[simp] theorem State.formY_g (s : State) (f : Lanes) : (s.formY f).g = s.g := rfl
@[simp] theorem State.formY_cur (s : State) (f : Lanes) : (s.formY f).cur = s.cur := rfl
@[simp] theorem State.formY_others (s : State) (f : Lanes) : (s.formY f).others = s.others := rfl
@[simp] theorem State.formY_cores (s : State) (f : Lanes) : (s.formY f).cores = s.cores := rfl
@[simp] theorem State.formY_ctxs (s : State) (f : Lanes) : (s.formY f).ctxs = s.ctxs := rfl
@[simp] theorem State.formY_mem (s : State) (f : Lanes) : (s.formY f).mem = s.mem := rfl
@[simp] theorem State.formY_dev (s : State) (f : Lanes) : (s.formY f).dev = s.dev := rfl
@[simp] theorem State.formY_clock (s : State) (f : Lanes) : (s.formY f).clock = s.clock := rfl
@[simp] theorem State.formY_agenda (s : State) (f : Lanes) : (s.formY f).agenda = s.agenda := rfl
@[simp] theorem State.formY_issued (s : State) (f : Lanes) : (s.formY f).issued = s.issued := rfl
@[simp] theorem State.formY_phase (s : State) (f : Lanes) : (s.formY f).phase = s.phase := rfl
@[simp] theorem State.formY_stir (s : State) (f : Lanes) : (s.formY f).stir = s.stir := rfl
@[simp] theorem State.formY_sched (s : State) (f : Lanes) : (s.formY f).sched = s.sched := rfl
@[simp] theorem State.formY_nextId (s : State) (f : Lanes) : (s.formY f).nextId = s.nextId := rfl
@[simp] theorem State.formY64_g (s : State) (a b : Lanes) : (s.formY64 a b).g = s.g := rfl
@[simp] theorem State.formY64_cur (s : State) (a b : Lanes) : (s.formY64 a b).cur = s.cur := rfl
@[simp] theorem State.formY64_others (s : State) (a b : Lanes) : (s.formY64 a b).others = s.others := rfl
@[simp] theorem State.formY64_cores (s : State) (a b : Lanes) : (s.formY64 a b).cores = s.cores := rfl
@[simp] theorem State.formY64_ctxs (s : State) (a b : Lanes) : (s.formY64 a b).ctxs = s.ctxs := rfl
@[simp] theorem State.formY64_mem (s : State) (a b : Lanes) : (s.formY64 a b).mem = s.mem := rfl
@[simp] theorem State.formY64_dev (s : State) (a b : Lanes) : (s.formY64 a b).dev = s.dev := rfl
@[simp] theorem State.formY64_clock (s : State) (a b : Lanes) : (s.formY64 a b).clock = s.clock := rfl
@[simp] theorem State.formY64_agenda (s : State) (a b : Lanes) : (s.formY64 a b).agenda = s.agenda := rfl
@[simp] theorem State.formY64_issued (s : State) (a b : Lanes) : (s.formY64 a b).issued = s.issued := rfl
@[simp] theorem State.formY64_phase (s : State) (a b : Lanes) : (s.formY64 a b).phase = s.phase := rfl
@[simp] theorem State.formY64_stir (s : State) (a b : Lanes) : (s.formY64 a b).stir = s.stir := rfl
@[simp] theorem State.formY64_sched (s : State) (a b : Lanes) : (s.formY64 a b).sched = s.sched := rfl
@[simp] theorem State.formY64_nextId (s : State) (a b : Lanes) : (s.formY64 a b).nextId = s.nextId := rfl
@[simp] theorem State.goTo_g (s : State) (pc : Word) : (s.goTo pc).g = s.g := rfl
@[simp] theorem State.goTo_cur (s : State) (pc : Word) : (s.goTo pc).cur = s.cur := rfl
@[simp] theorem State.goTo_others (s : State) (pc : Word) : (s.goTo pc).others = s.others := rfl
@[simp] theorem State.goTo_cores (s : State) (pc : Word) : (s.goTo pc).cores = s.cores := rfl
@[simp] theorem State.goTo_ctxs (s : State) (pc : Word) : (s.goTo pc).ctxs = s.ctxs := rfl
@[simp] theorem State.goTo_mem (s : State) (pc : Word) : (s.goTo pc).mem = s.mem := rfl
@[simp] theorem State.goTo_dev (s : State) (pc : Word) : (s.goTo pc).dev = s.dev := rfl
@[simp] theorem State.goTo_clock (s : State) (pc : Word) : (s.goTo pc).clock = s.clock := rfl
@[simp] theorem State.goTo_agenda (s : State) (pc : Word) : (s.goTo pc).agenda = s.agenda := rfl
@[simp] theorem State.goTo_issued (s : State) (pc : Word) : (s.goTo pc).issued = s.issued := rfl
@[simp] theorem State.goTo_phase (s : State) (pc : Word) : (s.goTo pc).phase = s.phase := rfl
@[simp] theorem State.goTo_stir (s : State) (pc : Word) : (s.goTo pc).stir = s.stir := rfl
@[simp] theorem State.goTo_sched (s : State) (pc : Word) : (s.goTo pc).sched = s.sched := rfl
@[simp] theorem State.goTo_nextId (s : State) (pc : Word) : (s.goTo pc).nextId = s.nextId := rfl
@[simp] theorem State.stall_g (s : State) (w : Wait) : (s.stall w).g = s.g := rfl
@[simp] theorem State.stall_cur (s : State) (w : Wait) : (s.stall w).cur = s.cur := rfl
@[simp] theorem State.stall_others (s : State) (w : Wait) : (s.stall w).others = s.others := rfl
@[simp] theorem State.stall_cores (s : State) (w : Wait) : (s.stall w).cores = s.cores := rfl
@[simp] theorem State.stall_ctxs (s : State) (w : Wait) : (s.stall w).ctxs = s.ctxs := rfl
@[simp] theorem State.stall_mem (s : State) (w : Wait) : (s.stall w).mem = s.mem := rfl
@[simp] theorem State.stall_dev (s : State) (w : Wait) : (s.stall w).dev = s.dev := rfl
@[simp] theorem State.stall_clock (s : State) (w : Wait) : (s.stall w).clock = s.clock := rfl
@[simp] theorem State.stall_agenda (s : State) (w : Wait) : (s.stall w).agenda = s.agenda := rfl
@[simp] theorem State.stall_issued (s : State) (w : Wait) : (s.stall w).issued = s.issued := rfl
@[simp] theorem State.stall_phase (s : State) (w : Wait) : (s.stall w).phase = s.phase := rfl
@[simp] theorem State.stall_stir (s : State) (w : Wait) : (s.stall w).stir = s.stir := rfl
@[simp] theorem State.stall_sched (s : State) (w : Wait) : (s.stall w).sched = s.sched := rfl
@[simp] theorem State.stall_nextId (s : State) (w : Wait) : (s.stall w).nextId = s.nextId := rfl
@[simp] theorem State.addOp_p (s : State) (o : Async) : (s.addOp o).p = s.p := rfl
@[simp] theorem State.addOp_cur (s : State) (o : Async) : (s.addOp o).cur = s.cur := rfl
@[simp] theorem State.addOp_others (s : State) (o : Async) : (s.addOp o).others = s.others := rfl
@[simp] theorem State.addOp_cores (s : State) (o : Async) : (s.addOp o).cores = s.cores := rfl
@[simp] theorem State.addOp_ctxs (s : State) (o : Async) : (s.addOp o).ctxs = s.ctxs := rfl
@[simp] theorem State.addOp_mem (s : State) (o : Async) : (s.addOp o).mem = s.mem := rfl
@[simp] theorem State.addOp_dev (s : State) (o : Async) : (s.addOp o).dev = s.dev := rfl
@[simp] theorem State.addOp_clock (s : State) (o : Async) : (s.addOp o).clock = s.clock := rfl
@[simp] theorem State.addOp_agenda (s : State) (o : Async) : (s.addOp o).agenda = s.agenda := rfl
@[simp] theorem State.addOp_issued (s : State) (o : Async) : (s.addOp o).issued = s.issued := rfl
@[simp] theorem State.addOp_phase (s : State) (o : Async) : (s.addOp o).phase = s.phase := rfl
@[simp] theorem State.addOp_stir (s : State) (o : Async) : (s.addOp o).stir = s.stir := rfl
@[simp] theorem State.addOp_sched (s : State) (o : Async) : (s.addOp o).sched = s.sched := rfl
@[simp] theorem State.raise_p (s : State) (fl : FFlags) : (s.raise fl).p = s.p := rfl
@[simp] theorem State.raise_cur (s : State) (fl : FFlags) : (s.raise fl).cur = s.cur := rfl
@[simp] theorem State.raise_others (s : State) (fl : FFlags) : (s.raise fl).others = s.others := rfl
@[simp] theorem State.raise_cores (s : State) (fl : FFlags) : (s.raise fl).cores = s.cores := rfl
@[simp] theorem State.raise_ctxs (s : State) (fl : FFlags) : (s.raise fl).ctxs = s.ctxs := rfl
@[simp] theorem State.raise_mem (s : State) (fl : FFlags) : (s.raise fl).mem = s.mem := rfl
@[simp] theorem State.raise_dev (s : State) (fl : FFlags) : (s.raise fl).dev = s.dev := rfl
@[simp] theorem State.raise_clock (s : State) (fl : FFlags) : (s.raise fl).clock = s.clock := rfl
@[simp] theorem State.raise_agenda (s : State) (fl : FFlags) : (s.raise fl).agenda = s.agenda := rfl
@[simp] theorem State.raise_issued (s : State) (fl : FFlags) : (s.raise fl).issued = s.issued := rfl
@[simp] theorem State.raise_phase (s : State) (fl : FFlags) : (s.raise fl).phase = s.phase := rfl
@[simp] theorem State.raise_stir (s : State) (fl : FFlags) : (s.raise fl).stir = s.stir := rfl
@[simp] theorem State.raise_sched (s : State) (fl : FFlags) : (s.raise fl).sched = s.sched := rfl
@[simp] theorem State.raise_nextId (s : State) (fl : FFlags) : (s.raise fl).nextId = s.nextId := rfl
@[simp] theorem State.modCore_g (s : State) (c : Nat) (f : Core → Core) : (s.modCore c f).g = s.g := rfl
@[simp] theorem State.modCore_p (s : State) (c : Nat) (f : Core → Core) : (s.modCore c f).p = s.p := rfl
@[simp] theorem State.modCore_cur (s : State) (c : Nat) (f : Core → Core) : (s.modCore c f).cur = s.cur := rfl
@[simp] theorem State.modCore_others (s : State) (c : Nat) (f : Core → Core) : (s.modCore c f).others = s.others := rfl
@[simp] theorem State.modCore_ctxs (s : State) (c : Nat) (f : Core → Core) : (s.modCore c f).ctxs = s.ctxs := rfl
@[simp] theorem State.modCore_mem (s : State) (c : Nat) (f : Core → Core) : (s.modCore c f).mem = s.mem := rfl
@[simp] theorem State.modCore_dev (s : State) (c : Nat) (f : Core → Core) : (s.modCore c f).dev = s.dev := rfl
@[simp] theorem State.modCore_clock (s : State) (c : Nat) (f : Core → Core) : (s.modCore c f).clock = s.clock := rfl
@[simp] theorem State.modCore_agenda (s : State) (c : Nat) (f : Core → Core) : (s.modCore c f).agenda = s.agenda := rfl
@[simp] theorem State.modCore_issued (s : State) (c : Nat) (f : Core → Core) : (s.modCore c f).issued = s.issued := rfl
@[simp] theorem State.modCore_phase (s : State) (c : Nat) (f : Core → Core) : (s.modCore c f).phase = s.phase := rfl
@[simp] theorem State.modCore_stir (s : State) (c : Nat) (f : Core → Core) : (s.modCore c f).stir = s.stir := rfl
@[simp] theorem State.modCore_sched (s : State) (c : Nat) (f : Core → Core) : (s.modCore c f).sched = s.sched := rfl
@[simp] theorem State.modCore_nextId (s : State) (c : Nat) (f : Core → Core) : (s.modCore c f).nextId = s.nextId := rfl
@[simp] theorem State.modCtx_g (s : State) (c : Nat) (f : Ctx → Ctx) : (s.modCtx c f).g = s.g := rfl
@[simp] theorem State.modCtx_p (s : State) (c : Nat) (f : Ctx → Ctx) : (s.modCtx c f).p = s.p := rfl
@[simp] theorem State.modCtx_cur (s : State) (c : Nat) (f : Ctx → Ctx) : (s.modCtx c f).cur = s.cur := rfl
@[simp] theorem State.modCtx_others (s : State) (c : Nat) (f : Ctx → Ctx) : (s.modCtx c f).others = s.others := rfl
@[simp] theorem State.modCtx_cores (s : State) (c : Nat) (f : Ctx → Ctx) : (s.modCtx c f).cores = s.cores := rfl
@[simp] theorem State.modCtx_mem (s : State) (c : Nat) (f : Ctx → Ctx) : (s.modCtx c f).mem = s.mem := rfl
@[simp] theorem State.modCtx_dev (s : State) (c : Nat) (f : Ctx → Ctx) : (s.modCtx c f).dev = s.dev := rfl
@[simp] theorem State.modCtx_clock (s : State) (c : Nat) (f : Ctx → Ctx) : (s.modCtx c f).clock = s.clock := rfl
@[simp] theorem State.modCtx_agenda (s : State) (c : Nat) (f : Ctx → Ctx) : (s.modCtx c f).agenda = s.agenda := rfl
@[simp] theorem State.modCtx_issued (s : State) (c : Nat) (f : Ctx → Ctx) : (s.modCtx c f).issued = s.issued := rfl
@[simp] theorem State.modCtx_phase (s : State) (c : Nat) (f : Ctx → Ctx) : (s.modCtx c f).phase = s.phase := rfl
@[simp] theorem State.modCtx_stir (s : State) (c : Nat) (f : Ctx → Ctx) : (s.modCtx c f).stir = s.stir := rfl
@[simp] theorem State.modCtx_sched (s : State) (c : Nat) (f : Ctx → Ctx) : (s.modCtx c f).sched = s.sched := rfl
@[simp] theorem State.modCtx_nextId (s : State) (c : Nat) (f : Ctx → Ctx) : (s.modCtx c f).nextId = s.nextId := rfl
@[simp] theorem State.modTeam_g (s : State) (t : Nat) (f : Team → Team) : (s.modTeam t f).g = s.g := rfl
@[simp] theorem State.modTeam_p (s : State) (t : Nat) (f : Team → Team) : (s.modTeam t f).p = s.p := rfl
@[simp] theorem State.modTeam_cur (s : State) (t : Nat) (f : Team → Team) : (s.modTeam t f).cur = s.cur := rfl
@[simp] theorem State.modTeam_others (s : State) (t : Nat) (f : Team → Team) : (s.modTeam t f).others = s.others := rfl
@[simp] theorem State.modTeam_cores (s : State) (t : Nat) (f : Team → Team) : (s.modTeam t f).cores = s.cores := rfl
@[simp] theorem State.modTeam_ctxs (s : State) (t : Nat) (f : Team → Team) : (s.modTeam t f).ctxs = s.ctxs := rfl
@[simp] theorem State.modTeam_mem (s : State) (t : Nat) (f : Team → Team) : (s.modTeam t f).mem = s.mem := rfl
@[simp] theorem State.modTeam_clock (s : State) (t : Nat) (f : Team → Team) : (s.modTeam t f).clock = s.clock := rfl
@[simp] theorem State.modTeam_agenda (s : State) (t : Nat) (f : Team → Team) : (s.modTeam t f).agenda = s.agenda := rfl
@[simp] theorem State.modTeam_issued (s : State) (t : Nat) (f : Team → Team) : (s.modTeam t f).issued = s.issued := rfl
@[simp] theorem State.modTeam_phase (s : State) (t : Nat) (f : Team → Team) : (s.modTeam t f).phase = s.phase := rfl
@[simp] theorem State.modTeam_stir (s : State) (t : Nat) (f : Team → Team) : (s.modTeam t f).stir = s.stir := rfl
@[simp] theorem State.modTeam_sched (s : State) (t : Nat) (f : Team → Team) : (s.modTeam t f).sched = s.sched := rfl
@[simp] theorem State.modTeam_nextId (s : State) (t : Nat) (f : Team → Team) : (s.modTeam t f).nextId = s.nextId := rfl
@[simp] theorem State.say_g (s : State) (m : OutMsg) : (s.say m).g = s.g := rfl
@[simp] theorem State.say_p (s : State) (m : OutMsg) : (s.say m).p = s.p := rfl
@[simp] theorem State.say_cur (s : State) (m : OutMsg) : (s.say m).cur = s.cur := rfl
@[simp] theorem State.say_others (s : State) (m : OutMsg) : (s.say m).others = s.others := rfl
@[simp] theorem State.say_cores (s : State) (m : OutMsg) : (s.say m).cores = s.cores := rfl
@[simp] theorem State.say_ctxs (s : State) (m : OutMsg) : (s.say m).ctxs = s.ctxs := rfl
@[simp] theorem State.say_mem (s : State) (m : OutMsg) : (s.say m).mem = s.mem := rfl
@[simp] theorem State.say_clock (s : State) (m : OutMsg) : (s.say m).clock = s.clock := rfl
@[simp] theorem State.say_agenda (s : State) (m : OutMsg) : (s.say m).agenda = s.agenda := rfl
@[simp] theorem State.say_issued (s : State) (m : OutMsg) : (s.say m).issued = s.issued := rfl
@[simp] theorem State.say_phase (s : State) (m : OutMsg) : (s.say m).phase = s.phase := rfl
@[simp] theorem State.say_stir (s : State) (m : OutMsg) : (s.say m).stir = s.stir := rfl
@[simp] theorem State.say_sched (s : State) (m : OutMsg) : (s.say m).sched = s.sched := rfl
@[simp] theorem State.say_nextId (s : State) (m : OutMsg) : (s.say m).nextId = s.nextId := rfl
@[simp] theorem State.push_g (s : State) (c q : Nat) (e : Store 32) : (s.push c q e).g = s.g := rfl
@[simp] theorem State.push_p (s : State) (c q : Nat) (e : Store 32) : (s.push c q e).p = s.p := rfl
@[simp] theorem State.push_cur (s : State) (c q : Nat) (e : Store 32) : (s.push c q e).cur = s.cur := rfl
@[simp] theorem State.push_others (s : State) (c q : Nat) (e : Store 32) : (s.push c q e).others = s.others := rfl
@[simp] theorem State.push_ctxs (s : State) (c q : Nat) (e : Store 32) : (s.push c q e).ctxs = s.ctxs := rfl
@[simp] theorem State.push_mem (s : State) (c q : Nat) (e : Store 32) : (s.push c q e).mem = s.mem := rfl
@[simp] theorem State.push_dev (s : State) (c q : Nat) (e : Store 32) : (s.push c q e).dev = s.dev := rfl
@[simp] theorem State.push_clock (s : State) (c q : Nat) (e : Store 32) : (s.push c q e).clock = s.clock := rfl
@[simp] theorem State.push_agenda (s : State) (c q : Nat) (e : Store 32) : (s.push c q e).agenda = s.agenda := rfl
@[simp] theorem State.push_issued (s : State) (c q : Nat) (e : Store 32) : (s.push c q e).issued = s.issued := rfl
@[simp] theorem State.push_phase (s : State) (c q : Nat) (e : Store 32) : (s.push c q e).phase = s.phase := rfl
@[simp] theorem State.push_stir (s : State) (c q : Nat) (e : Store 32) : (s.push c q e).stir = s.stir := rfl
@[simp] theorem State.push_sched (s : State) (c q : Nat) (e : Store 32) : (s.push c q e).sched = s.sched := rfl
@[simp] theorem State.push_nextId (s : State) (c q : Nat) (e : Store 32) : (s.push c q e).nextId = s.nextId := rfl
@[simp] theorem State.pop_g (s : State) (c q : Nat) : (s.pop c q).g = s.g := rfl
@[simp] theorem State.pop_p (s : State) (c q : Nat) : (s.pop c q).p = s.p := rfl
@[simp] theorem State.pop_cur (s : State) (c q : Nat) : (s.pop c q).cur = s.cur := rfl
@[simp] theorem State.pop_others (s : State) (c q : Nat) : (s.pop c q).others = s.others := rfl
@[simp] theorem State.pop_ctxs (s : State) (c q : Nat) : (s.pop c q).ctxs = s.ctxs := rfl
@[simp] theorem State.pop_mem (s : State) (c q : Nat) : (s.pop c q).mem = s.mem := rfl
@[simp] theorem State.pop_dev (s : State) (c q : Nat) : (s.pop c q).dev = s.dev := rfl
@[simp] theorem State.pop_clock (s : State) (c q : Nat) : (s.pop c q).clock = s.clock := rfl
@[simp] theorem State.pop_agenda (s : State) (c q : Nat) : (s.pop c q).agenda = s.agenda := rfl
@[simp] theorem State.pop_issued (s : State) (c q : Nat) : (s.pop c q).issued = s.issued := rfl
@[simp] theorem State.pop_phase (s : State) (c q : Nat) : (s.pop c q).phase = s.phase := rfl
@[simp] theorem State.pop_stir (s : State) (c q : Nat) : (s.pop c q).stir = s.stir := rfl
@[simp] theorem State.pop_sched (s : State) (c q : Nat) : (s.pop c q).sched = s.sched := rfl
@[simp] theorem State.pop_nextId (s : State) (c q : Nat) : (s.pop c q).nextId = s.nextId := rfl
@[simp] theorem State.retire_g (s : State) : (s.retire).g = s.g := rfl
@[simp] theorem State.retire_cur (s : State) : (s.retire).cur = s.cur := rfl
@[simp] theorem State.retire_others (s : State) : (s.retire).others = s.others := rfl
@[simp] theorem State.retire_cores (s : State) : (s.retire).cores = s.cores := rfl
@[simp] theorem State.retire_ctxs (s : State) : (s.retire).ctxs = s.ctxs := rfl
@[simp] theorem State.retire_mem (s : State) : (s.retire).mem = s.mem := rfl
@[simp] theorem State.retire_dev (s : State) : (s.retire).dev = s.dev := rfl
@[simp] theorem State.retire_clock (s : State) : (s.retire).clock = s.clock := rfl
@[simp] theorem State.retire_agenda (s : State) : (s.retire).agenda = s.agenda := rfl
@[simp] theorem State.retire_issued (s : State) : (s.retire).issued = s.issued := rfl
@[simp] theorem State.retire_phase (s : State) : (s.retire).phase = s.phase := rfl
@[simp] theorem State.retire_stir (s : State) : (s.retire).stir = s.stir := rfl
@[simp] theorem State.retire_sched (s : State) : (s.retire).sched = s.sched := rfl
@[simp] theorem State.retire_nextId (s : State) : (s.retire).nextId = s.nextId := rfl
@[simp] theorem State.jump_g (s : State) (pc : Word) : (s.jump pc).g = s.g := rfl
@[simp] theorem State.jump_cur (s : State) (pc : Word) : (s.jump pc).cur = s.cur := rfl
@[simp] theorem State.jump_others (s : State) (pc : Word) : (s.jump pc).others = s.others := rfl
@[simp] theorem State.jump_cores (s : State) (pc : Word) : (s.jump pc).cores = s.cores := rfl
@[simp] theorem State.jump_ctxs (s : State) (pc : Word) : (s.jump pc).ctxs = s.ctxs := rfl
@[simp] theorem State.jump_mem (s : State) (pc : Word) : (s.jump pc).mem = s.mem := rfl
@[simp] theorem State.jump_dev (s : State) (pc : Word) : (s.jump pc).dev = s.dev := rfl
@[simp] theorem State.jump_clock (s : State) (pc : Word) : (s.jump pc).clock = s.clock := rfl
@[simp] theorem State.jump_agenda (s : State) (pc : Word) : (s.jump pc).agenda = s.agenda := rfl
@[simp] theorem State.jump_issued (s : State) (pc : Word) : (s.jump pc).issued = s.issued := rfl
@[simp] theorem State.jump_phase (s : State) (pc : Word) : (s.jump pc).phase = s.phase := rfl
@[simp] theorem State.jump_stir (s : State) (pc : Word) : (s.jump pc).stir = s.stir := rfl
@[simp] theorem State.jump_sched (s : State) (pc : Word) : (s.jump pc).sched = s.sched := rfl
@[simp] theorem State.jump_nextId (s : State) (pc : Word) : (s.jump pc).nextId = s.nextId := rfl

@[simp] theorem State.setCore_cores (s : State) (c : Nat) (k : Core) : (s.setCore c k).cores = keyPut s.cores c k := rfl
@[simp] theorem State.setCtx_ctxs (s : State) (c : Nat) (k : Ctx) : (s.setCtx c k).ctxs = keyPut s.ctxs c k := rfl
@[simp] theorem State.modDev_dev (s : State) (f : Dev → Dev) : (s.modDev f).dev = f s.dev := rfl
@[simp] theorem State.after_agenda (s : State) (n : Nat) (ev : Event) :
    (s.after n ev).agenda = s.agenda ++ [{ id := s.nextId, due := s.clock + n, ev := ev }] := rfl
@[simp] theorem State.after_nextId (s : State) (n : Nat) (ev : Event) : (s.after n ev).nextId = s.nextId + 1 := rfl
@[simp] theorem State.putS_s (s : State) (n : Nat) (x : Word) : (s.putS n x).g.s = storeWrite s.g.s n x := rfl
@[simp] theorem State.putS_v (s : State) (n : Nat) (x : Word) : (s.putS n x).g.v = s.g.v := rfl
@[simp] theorem State.putV_v (s : State) (n : Nat) (m : Word) (f : Lanes) : (s.putV n m f).g.v = putLanes s.g.v n m f := rfl
@[simp] theorem State.putV_s (s : State) (n : Nat) (m : Word) (f : Lanes) : (s.putV n m f).g.s = s.g.s := rfl
@[simp] theorem State.retire_pc (s : State) : s.retire.p.pc = s.cur.pc + BitVec.ofNat 32 s.cur.len := rfl
@[simp] theorem State.retire_count (s : State) : s.retire.p.count = s.p.count + 1 := rfl
@[simp] theorem State.retire_mods (s : State) : s.retire.p.mods = {} := rfl
@[simp] theorem State.retire_exec (s : State) : s.retire.p.exec = s.p.exec := rfl
@[simp] theorem State.retire_y0 (s : State) : s.retire.p.y0 = s.p.y0 := rfl
@[simp] theorem State.retire_y1 (s : State) : s.retire.p.y1 = s.p.y1 := rfl
@[simp] theorem State.stall_wait (s : State) (w : Wait) : (s.stall w).p.wait = w := rfl

end Sys2Proof.Machine
end

