-- ==== Sys2Proof/Laws/Store.lean ====
section
/-! SUPPORT. Sys2Proof/Laws/Store.lean: reading after writing, and the canonical form, for keyed lists, stores and memory. -/

namespace Sys2Proof.Machine

/-! ## Reading after writing -/

theorem keyFind_keyPut {α : Type} (m : Keyed α) (a b : Nat) (v : α) :
    keyFind (keyPut m a v) b = if b = a then some v else keyFind m b := by
  induction m with
  | nil => simp [keyPut, keyFind]
  | cons e r ih =>
    obtain ⟨k, u⟩ := e
    simp only [keyPut]
    split_ifs with h1 h2 h3 h4 h5 <;> simp_all [keyFind]

theorem keyFind_keyDrop {α : Type} (m : Keyed α) (a b : Nat) :
    keyFind (keyDrop m a) b = if b = a then none else keyFind m b := by
  induction m with
  | nil => simp [keyDrop, keyFind]
  | cons e r ih =>
    obtain ⟨k, u⟩ := e
    simp only [keyDrop]
    split_ifs with h1 h2 h3 <;> simp_all [keyFind]

theorem keyFind_keyModify {α : Type} (m : Keyed α) (a b : Nat) (f : α → α) :
    keyFind (keyModify m a f) b = if b = a then (keyFind m a).map f else keyFind m b := by
  unfold keyModify
  split
  · rename_i v h
    rw [keyFind_keyPut, h]
    rfl
  · rename_i h
    split_ifs with e
    · rw [e, h]; rfl
    · rfl

theorem storeRead_storeWrite {w : Nat} (m : Store w) (a b : Nat) (v : BitVec w) :
    storeRead (storeWrite m a v) b = if b = a then v else storeRead m b := by
  unfold storeRead storeWrite
  split_ifs with h1 h2 h2 <;> simp [keyFind_keyPut, keyFind_keyDrop, *]

theorem storeRead_nil {w : Nat} (a : Nat) : storeRead ([] : Store w) a = 0#w := rfl

theorem storeRead_storeFill {w : Nat} (l : List Nat) (m : Store w) (f : Nat → BitVec w) (b : Nat) :
    storeRead (storeFill m l f) b = if b ∈ l then f b else storeRead m b := by
  unfold storeFill
  induction l generalizing m with
  | nil => simp
  | cons a l ih =>
    simp only [List.foldl_cons, ih, storeRead_storeWrite, List.mem_cons]
    split_ifs with h1 h2 h3 h3 <;> simp_all

/-- Bytes outside a written run read as before. -/
theorem storeRead_writeBytes_of_not {m : Memory} {a n v b : Nat} (h : b < a ∨ a + n ≤ b) :
    storeRead (writeBytes m a n v) b = storeRead m b := by
  induction n generalizing m a v with
  | zero => rfl
  | succ n ih =>
    simp only [writeBytes]
    rw [ih (by omega), storeRead_storeWrite, if_neg (by omega)]

/-- A run of bytes reads as it was written. -/
theorem storeRead_writeBytes {m : Memory} {a n v b : Nat} (h1 : a ≤ b) (h2 : b < a + n) :
    storeRead (writeBytes m a n v) b = BitVec.ofNat 8 (v / 256 ^ (b - a)) := by
  induction n generalizing m a v with
  | zero => omega
  | succ n ih =>
    simp only [writeBytes]
    by_cases e : b = a
    · subst e
      rw [storeRead_writeBytes_of_not (Or.inl (by omega)), storeRead_storeWrite, if_pos rfl]
      simp
    · rw [ih (by omega) (by omega), Nat.div_div_eq_div_mul, show b - a = (b - (a + 1)) + 1 by omega, pow_succ, Nat.mul_comm 256]

theorem readBytes_lt (m : Memory) (a n : Nat) : readBytes m a n < 256 ^ n := by
  induction n generalizing a with
  | zero => simp [readBytes]
  | succ n ih =>
    have h1 := ih (a + 1)
    have h2 := (storeRead m a).isLt
    simp only [readBytes, pow_succ]
    omega

/-- A value read back is the value written, cut to its bytes (R2). -/
theorem readBytes_writeBytes (m : Memory) (a n v : Nat) : readBytes (writeBytes m a n v) a n = v % 256 ^ n := by
  induction n generalizing m a v with
  | zero => simp [readBytes, Nat.mod_one]
  | succ n ih =>
    simp only [readBytes, writeBytes]
    rw [ih, storeRead_writeBytes_of_not (Or.inl (by omega)), storeRead_storeWrite, if_pos rfl, BitVec.toNat_ofNat,
      show 256 ^ (n + 1) = 2 ^ 8 * 256 ^ n by ring, Nat.mod_mul]
    norm_num

theorem storeRead_storeClear {w : Nat} (m : Store w) (a n b : Nat) :
    storeRead (storeClear m a n) b = if a ≤ b ∧ b < a + n then 0#w else storeRead m b := by
  unfold storeRead storeClear
  induction m with
  | nil => simp [keyFind]
  | cons e r ih =>
    obtain ⟨k, u⟩ := e
    simp only [List.filter_cons]
    by_cases hk : a ≤ k ∧ k < a + n
    · rw [if_neg (by simp [hk]), ih]
      split_ifs with h
      · rfl
      · have : b ≠ k := by rintro rfl; exact h hk
        simp [keyFind, this]
    · rw [if_pos (by simp; omega)]
      simp only [keyFind]
      split_ifs with h1 h2 h2
      · subst h1; exact absurd h2 hk
      · rfl
      · simpa [h2] using ih
      · simpa [h2] using ih

/-! ## The canonical form -/

theorem keySortedFrom_mono {α : Type} {m : Keyed α} {lo lo' : Nat} (h : keySortedFrom m lo = true) (hl : lo' ≤ lo) :
    keySortedFrom m lo' = true := by
  cases m with
  | nil => rfl
  | cons e r => simp only [keySortedFrom, Bool.and_eq_true, decide_eq_true_eq] at h ⊢; exact ⟨by omega, h.2⟩

theorem keySortedFrom_keyPut {α : Type} {m : Keyed α} {lo a : Nat} (v : α) (h : keySortedFrom m lo = true) (ha : lo ≤ a) :
    keySortedFrom (keyPut m a v) lo = true := by
  induction m generalizing lo with
  | nil => simpa [keyPut, keySortedFrom] using ha
  | cons e r ih =>
    obtain ⟨k, u⟩ := e
    simp only [keySortedFrom, Bool.and_eq_true, decide_eq_true_eq] at h
    simp only [keyPut]
    split_ifs with h1 h2
    · simp only [keySortedFrom, Bool.and_eq_true, decide_eq_true_eq]
      exact ⟨ha, by omega, h.2⟩
    · simp only [keySortedFrom, Bool.and_eq_true, decide_eq_true_eq]
      exact h
    · simp only [keySortedFrom, Bool.and_eq_true, decide_eq_true_eq]
      exact ⟨h.1, ih h.2 (by omega)⟩

theorem keySortedFrom_keyDrop {α : Type} {m : Keyed α} {lo a : Nat} (h : keySortedFrom m lo = true) :
    keySortedFrom (keyDrop m a) lo = true := by
  induction m generalizing lo with
  | nil => rfl
  | cons e r ih =>
    obtain ⟨k, u⟩ := e
    simp only [keySortedFrom, Bool.and_eq_true, decide_eq_true_eq] at h
    simp only [keyDrop]
    split_ifs with h1
    · exact ih (keySortedFrom_mono h.2 (by omega))
    · simp only [keySortedFrom, Bool.and_eq_true, decide_eq_true_eq]
      exact ⟨h.1, ih h.2⟩

theorem keySorted_keyPut {α : Type} {m : Keyed α} {a : Nat} (v : α) (h : keySorted m = true) : keySorted (keyPut m a v) = true :=
  keySortedFrom_keyPut v h (Nat.zero_le a)

theorem keySorted_keyDrop {α : Type} {m : Keyed α} {a : Nat} (h : keySorted m = true) : keySorted (keyDrop m a) = true :=
  keySortedFrom_keyDrop h

theorem mem_keyPut {α : Type} {m : Keyed α} {a : Nat} {v : α} {e : Nat × α} (h : e ∈ keyPut m a v) : e = (a, v) ∨ e ∈ m := by
  induction m with
  | nil => simpa [keyPut] using h
  | cons x r ih =>
    obtain ⟨k, u⟩ := x
    simp only [keyPut] at h
    split_ifs at h with h1 h2
    · simpa using h
    · subst h2
      simp only [List.mem_cons] at h ⊢
      tauto
    · simp only [List.mem_cons] at h ⊢
      rcases h with h | h
      · tauto
      · rcases ih h with h | h <;> tauto

theorem mem_keyDrop {α : Type} {m : Keyed α} {a : Nat} {e : Nat × α} (h : e ∈ keyDrop m a) : e ∈ m := by
  induction m with
  | nil => simp [keyDrop] at h
  | cons x r ih =>
    obtain ⟨k, u⟩ := x
    simp only [keyDrop] at h
    split_ifs at h with h1
    · exact List.mem_cons_of_mem _ (ih h)
    · simp only [List.mem_cons] at h ⊢
      rcases h with h | h
      · exact Or.inl h
      · exact Or.inr (ih h)

theorem storeWf_iff {w : Nat} (m : Store w) : storeWf m = true ↔ keySorted m = true ∧ ∀ e ∈ m, e.2 ≠ 0#w := by
  simp [storeWf]

/-- A write keeps the canonical form. -/
theorem storeWf_storeWrite {w : Nat} {m : Store w} (a : Nat) (v : BitVec w) (h : storeWf m = true) :
    storeWf (storeWrite m a v) = true := by
  rw [storeWf_iff] at h ⊢
  unfold storeWrite
  split_ifs with hv
  · exact ⟨keySorted_keyDrop h.1, fun e he => h.2 e (mem_keyDrop he)⟩
  · refine ⟨keySorted_keyPut v h.1, fun e he => ?_⟩
    rcases mem_keyPut he with rfl | he
    · exact hv
    · exact h.2 e he

theorem storeWf_foldl {w : Nat} {α : Type} (f : Store w → α → Store w) (hf : ∀ m x, storeWf m = true → storeWf (f m x) = true)
    (l : List α) {m : Store w} (h : storeWf m = true) : storeWf (l.foldl f m) = true := by
  induction l generalizing m with
  | nil => exact h
  | cons x l ih => exact ih (hf m x h)

theorem storeWf_storeFill {w : Nat} {m : Store w} (as : List Nat) (f : Nat → BitVec w) (h : storeWf m = true) :
    storeWf (storeFill m as f) = true :=
  storeWf_foldl _ (fun _ a h => storeWf_storeWrite a (f a) h) as h

theorem wf_writeBytes {m : Memory} (a n v : Nat) (h : Memory.wf m = true) : Memory.wf (writeBytes m a n v) = true := by
  induction n generalizing m a v with
  | zero => exact h
  | succ n ih => exact ih (a + 1) (v / 256) (storeWf_storeWrite a _ h)

theorem wf_putBytes {m : Memory} (a : Nat) (bs : List Byte) (h : Memory.wf m = true) : Memory.wf (putBytes m a bs) = true := by
  induction bs generalizing m a with
  | nil => exact h
  | cons b r ih => exact ih (a + 1) (storeWf_storeWrite a b h)

theorem keySortedFrom_filter {α : Type} (p : Nat × α → Bool) {m : Keyed α} {lo : Nat} (h : keySortedFrom m lo = true) :
    keySortedFrom (m.filter p) lo = true := by
  induction m generalizing lo with
  | nil => rfl
  | cons e r ih =>
    simp only [keySortedFrom, Bool.and_eq_true, decide_eq_true_eq] at h
    simp only [List.filter_cons]
    split_ifs with hp
    · simp only [keySortedFrom, Bool.and_eq_true, decide_eq_true_eq]
      exact ⟨h.1, ih h.2⟩
    · exact keySortedFrom_mono (ih h.2) (by omega)

theorem storeWf_storeClear {w : Nat} {m : Store w} (a n : Nat) (h : storeWf m = true) : storeWf (storeClear m a n) = true := by
  rw [storeWf_iff] at h ⊢
  exact ⟨keySortedFrom_filter _ h.1, fun e he => h.2 e (List.mem_filter.1 he).1⟩

theorem storeWf_storePaste {w : Nat} {m : Store w} (a n : Nat) (x : Store w) (h : storeWf m = true) :
    storeWf (storePaste m a n x) = true :=
  storeWf_foldl _ (fun _ e h => storeWf_storeWrite (a + e.1) e.2 h) x (storeWf_storeClear a n h)

end Sys2Proof.Machine
end

