-- ==== Sys2Proof/Laws/Results.lean ====
section
/-! SUPPORT. Sys2Proof/Laws/Results.lean: what the shared operations of the register instructions do, each said once: the checks before
an instruction, writing a scalar or a vector destination, popping sources, and the synchronous and flag-class results. -/

namespace Sys2Proof.Machine

theorem Completes.of_eq {o : Out} {t : State} {P : State → Prop} (h : o = .next t) (hp : P t) : Completes o P := ⟨t, h, hp⟩

/-! ## The checks -/

theorem findSome_none_of_all {α β : Type} (f : α → Option β) (l : List α) (h : (l.all fun a => (f a).isNone) = true) :
    l.findSome? f = none := by
  simpa [List.findSome?_eq_none_iff] using h

/-- An instruction whose checks pass runs its own description. -/
theorem issue_passes {u : Uses} {s : State} (k : State → Out) (h : passes u s = true) : issue u s k = k s := by
  simp only [passes, Bool.and_eq_true, Bool.or_eq_true, Bool.not_eq_true', Option.isNone_iff_eq_none] at h
  obtain ⟨⟨⟨⟨⟨⟨⟨he, hm⟩, hp⟩, hr⟩, hb⟩, hh⟩, hq⟩, hn⟩ := h
  have hb' := findSome_none_of_all _ _ (by simpa using hb)
  have hh' := findSome_none_of_all _ _ (by simpa using hh)
  have hpre : precheck u s = none := by
    unfold precheck
    rw [if_neg (by simp [hm]), if_neg (by rcases hp with h | h <;> simp [h]), if_neg (by rcases hr with h | h <;> simp [h]), hb', hh', hq]
    rfl
  simp [issue, he, hpre, hn]

/-- What an instruction does whose checks do not all pass: a trap, or a wait. -/
theorem issue_cases (u : Uses) (s : State) (k : State → Out) :
    (∃ t, issue u s k = .next (s.trap t)) ∨ (∃ w, issue u s k = .next (s.stall w)) ∨ issue u s k = k s := by
  unfold issue
  by_cases h1 : (s.g.evaluates.isSome && !u.regs.all callableReg) = true
  · exact .inl ⟨_, by rw [if_pos h1]⟩
  · rw [if_neg h1]
    by_cases h2 : (s.g.evaluates.isSome && (u.regs.findSome? (hazard s)).isSome) = true
    · exact .inr (.inl ⟨_, by rw [if_pos h2]⟩)
    · rw [if_neg h2]
      cases precheck u s with
      | some t => exact .inl ⟨_, rfl⟩
      | none =>
        cases (if s.p.stage = 0 then notReady u s else none) with
        | some w => exact .inr (.inl ⟨_, rfl⟩)
        | none => exact .inr (.inr rfl)

/-! ## Cores -/

theorem State.core_setCore (s : State) (c d : Nat) (k : Core) : (s.setCore c k).core d = if d = c then k else s.core d := by
  unfold State.core
  rw [State.setCore_cores, keyFind_keyPut]
  split_ifs <;> rfl

theorem State.core_modCore (s : State) (c d : Nat) (f : Core → Core) :
    (s.modCore c f).core d = if d = c then f (s.core c) else s.core d := s.core_setCore c d _

theorem State.core_congr {s t : State} (h : t.cores = s.cores) (c : Nat) : t.core c = s.core c := by
  unfold State.core; rw [h]

theorem Core.queue_put (k : Core) (q r : Nat) (l : List (Store 32)) :
    Core.queue { k with queues := keyPut k.queues q l } r = if r = q then l else k.queue r := by
  unfold Core.queue
  rw [keyFind_keyPut]
  split_ifs <;> rfl

theorem State.queue_pop (s : State) (core q c r : Nat) :
    ((s.pop core q).core c).queue r = if c = core ∧ r = q then ((s.core c).queue r).tail else (s.core c).queue r := by
  unfold State.pop
  rw [State.core_modCore]
  by_cases h : c = core
  · subst h; rw [if_pos rfl, Core.queue_put]; by_cases hq : r = q <;> simp [hq]
  · simp [h]

theorem State.queue_push (s : State) (core q c r : Nat) (e : Store 32) :
    ((s.push core q e).core c).queue r = if c = core ∧ r = q then (s.core c).queue r ++ [e] else (s.core c).queue r := by
  unfold State.push
  rw [State.core_modCore]
  by_cases h : c = core
  · subst h; rw [if_pos rfl, Core.queue_put]; by_cases hq : r = q <;> simp [hq]
  · simp [h]

/-- Two states that agree but for the contents of register queues. -/
def SameBut (s t : State) : Prop :=
  t.g = s.g ∧ t.p = s.p ∧ t.cur = s.cur ∧ t.others = s.others ∧ t.ctxs = s.ctxs ∧ t.mem = s.mem ∧ t.dev = s.dev ∧ t.clock = s.clock ∧
    t.agenda = s.agenda ∧ t.issued = s.issued ∧ (t.phase = s.phase ∧ t.stir = s.stir) ∧ t.sched = s.sched ∧ t.nextId = s.nextId ∧
    ∀ c, { t.core c with queues := [] } = { s.core c with queues := [] }

theorem SameBut.refl (s : State) : SameBut s s :=
  ⟨rfl, rfl, rfl, rfl, rfl, rfl, rfl, rfl, rfl, rfl, ⟨rfl, rfl⟩, rfl, rfl, fun _ => rfl⟩

theorem SameBut.trans {s t u : State} (h1 : SameBut s t) (h2 : SameBut t u) : SameBut s u := by
  obtain ⟨a1, a2, a3, a4, a5, a6, a7, a8, a9, a10, a11, a12, a13, a14⟩ := h1
  obtain ⟨b1, b2, b3, b4, b5, b6, b7, b8, b9, b10, b11, b12, b13, b14⟩ := h2
  exact ⟨b1.trans a1, b2.trans a2, b3.trans a3, b4.trans a4, b5.trans a5, b6.trans a6, b7.trans a7, b8.trans a8, b9.trans a9,
    b10.trans a10, ⟨b11.1.trans a11.1, b11.2.trans a11.2⟩, b12.trans a12, b13.trans a13, fun c => (b14 c).trans (a14 c)⟩

theorem sameBut_pop (s : State) (core q : Nat) : SameBut s (s.pop core q) := by
  refine ⟨rfl, rfl, rfl, rfl, rfl, rfl, rfl, rfl, rfl, rfl, ⟨rfl, rfl⟩, rfl, rfl, fun c => ?_⟩
  unfold State.pop
  rw [State.core_modCore]
  split_ifs with h
  · subst h; rfl
  · rfl

theorem sameBut_push (s : State) (core q : Nat) (e : Store 32) : SameBut s (s.push core q e) := by
  refine ⟨rfl, rfl, rfl, rfl, rfl, rfl, rfl, rfl, rfl, rfl, ⟨rfl, rfl⟩, rfl, rfl, fun c => ?_⟩
  unfold State.push
  rw [State.core_modCore]
  split_ifs with h
  · subst h; rfl
  · rfl

/-- The number of a queue does not depend on the queues' contents. -/
theorem SameBut.queueOf {s t : State} (h : SameBut s t) (k : Nat) : t.queueOf k = s.queueOf k := by
  obtain ⟨hg, -, -, -, -, -, hd, -⟩ := h
  simp only [State.queueOf, State.myTeam, State.team, hg, hd]

theorem SameBut.pushTargets {s t : State} (h : SameBut s t) (k : Nat) : t.pushTargets k = s.pushTargets k := by
  have hq := h.queueOf
  obtain ⟨hg, -⟩ := h
  simp only [State.pushTargets, hg]
  split_ifs
  · congr 1; funext k; exact hq k
  · rw [hq]

/-! ## Popping sources (R47) -/

theorem queueOf_inj (s : State) {j k : Nat} (h : s.queueOf j = s.queueOf k) : j = k := by
  simp only [State.queueOf] at h; omega

theorem popList_spec (l : List (BitVec 8)) (hl : l.Nodup) (hq : ∀ a ∈ l, 0xF0 ≤ a.toNat) (s : State) :
    let t := l.foldl (fun s a => s.pop s.g.core (s.queueOf (a.toNat - 0xF0))) s
    SameBut s t ∧ ∀ c q, (t.core c).queue q =
      if c = s.g.core ∧ q ∈ l.map (fun a => s.queueOf (a.toNat - 0xF0)) then ((s.core c).queue q).tail else (s.core c).queue q := by
  induction l generalizing s with
  | nil => exact ⟨SameBut.refl s, fun c q => by simp⟩
  | cons a l ih =>
    obtain ⟨ha, hl⟩ := List.nodup_cons.1 hl
    have h1 := sameBut_pop s s.g.core (s.queueOf (a.toNat - 0xF0))
    obtain ⟨h2, h3⟩ := ih hl (fun b hb => hq b (List.mem_cons_of_mem _ hb)) (s.pop s.g.core (s.queueOf (a.toNat - 0xF0)))
    refine ⟨h1.trans h2, fun c q => ?_⟩
    rw [List.foldl_cons, h3, State.queue_pop]
    have hg : (s.pop s.g.core (s.queueOf (a.toNat - 0xF0))).g.core = s.g.core := rfl
    simp only [hg, h1.queueOf, List.map_cons, List.mem_cons]
    by_cases hc : c = s.g.core
    · by_cases e : q = s.queueOf (a.toNat - 0xF0)
      · have : q ∉ l.map (fun b => s.queueOf (b.toNat - 0xF0)) := by
          intro hm
          obtain ⟨b, hb, hbq⟩ := List.mem_map.1 hm
          have hk := queueOf_inj s (hbq.trans e)
          have h1 := hq b (List.mem_cons_of_mem _ hb)
          have h2 := hq a (List.mem_cons_self ..)
          have : b = a := by
            apply BitVec.eq_of_toNat_eq
            omega
          exact ha (this ▸ hb)
        rw [if_neg (fun h => this (h.2)), if_pos (And.intro hc e), if_pos (And.intro hc (Or.inl e))]
      · simp [hc, e]
    · simp [hc]

theorem nodup_eraseDups {α : Type} [BEq α] [LawfulBEq α] (l : List α) : l.eraseDups.Nodup := by
  induction h : l.length using Nat.strong_induction_on generalizing l with
  | _ n ih =>
    cases l with
    | nil => simp
    | cons a l =>
      rw [List.eraseDups_cons, List.nodup_cons]
      refine ⟨fun hm => ?_, ih _ ?_ _ rfl⟩
      · simpa using (List.mem_filter.1 (List.mem_eraseDups.1 hm)).2
      · have := List.length_filter_le (fun b => !b == a) l
        simp only [List.length_cons] at h
        omega

theorem popSources_spec (s : State) (codes : List (BitVec 8)) :
    SameBut s (s.popSources codes) ∧ QueuesAre (s.popSources codes) (s.afterPops codes) := by
  have hq : ∀ a ∈ s.toPop codes, 0xF0 ≤ a.toNat := fun a ha => by
    have h := (List.mem_filter.1 (List.mem_eraseDups.1 ha)).2
    simp only [Bool.and_eq_true, decide_eq_true_eq] at h
    exact h.1
  exact popList_spec (s.toPop codes) (nodup_eraseDups _) hq s

/-! ## Pushing on queues (R47, R49) -/

theorem pushSome_spec (core : Nat) (e : Store 32) (l : List Nat) (hl : l.Nodup) (s : State) :
    SameBut s (s.pushSome core (l.map fun q => (q, e))).1 ∧ ∀ c q, ((s.pushSome core (l.map fun q => (q, e))).1.core c).queue q =
      if c = core ∧ q ∈ l ∧ ((s.core c).queue q).length < queueDepth then (s.core c).queue q ++ [e] else (s.core c).queue q := by
  induction l generalizing s with
  | nil => exact ⟨SameBut.refl s, fun c q => by simp [State.pushSome]⟩
  | cons a l ih =>
    obtain ⟨ha, hl⟩ := List.nodup_cons.1 hl
    simp only [List.map_cons, State.pushSome]
    split_ifs with hroom
    · obtain ⟨h2, h3⟩ := ih hl (s.push core a e)
      refine ⟨(sameBut_push s core a e).trans h2, fun c q => ?_⟩
      rw [h3, State.queue_push]
      by_cases hc : c = core
      · subst hc
        by_cases hq : q = a
        · subst hq
          rw [if_neg (fun h => ha h.2.1), if_pos ⟨rfl, rfl⟩, if_pos ⟨rfl, List.mem_cons_self .., hroom⟩]
        · simp [hq]
      · simp [hc]
    · obtain ⟨h2, h3⟩ := ih hl s
      refine ⟨h2, fun c q => ?_⟩
      rw [h3]
      by_cases hc : c = core
      · subst hc
        by_cases hq : q = a
        · subst hq
          simp [ha, hroom]
        · simp [hq]
      · simp [hc]

theorem nodup_pushTargets (s : State) (k : Nat) : (s.pushTargets k).Nodup := by
  unfold State.pushTargets
  split_ifs
  · exact (List.Nodup.filter _ List.nodup_range).map (fun _ _ h => queueOf_inj s h)
  · simp

/-! ## Lanes (R160) -/

theorem storeRead_putLanes (n : Nat) (mask : Word) (f : Lanes) (v : Store 32) (k l : Nat) (hl : l < 32) :
    storeRead (putLanes v n mask f) (32 * k + l) =
      if k = n ∧ bitOf mask l = true then f l else storeRead v (32 * k + l) := by
  have key : ∀ (ls : List Nat), (∀ x ∈ ls, x < 32) → ∀ v : Store 32,
      storeRead (ls.foldl (fun v l => if bitOf mask l then storeWrite v (32 * n + l) (f l) else v) v) (32 * k + l) =
        if k = n ∧ bitOf mask l = true ∧ l ∈ ls then f l else storeRead v (32 * k + l) := by
    intro ls
    induction ls with
    | nil => intro _ v; simp
    | cons a r ih =>
      intro hls v
      have ha := hls a (List.mem_cons_self ..)
      rw [List.foldl_cons, ih (fun x hx => hls x (List.mem_cons_of_mem _ hx))]
      by_cases h : k = n ∧ bitOf mask l = true ∧ l ∈ r
      · rw [if_pos h, if_pos ⟨h.1, h.2.1, List.mem_cons_of_mem _ h.2.2⟩]
      · rw [if_neg h]
        by_cases hb : bitOf mask a = true
        · rw [if_pos hb, storeRead_storeWrite]
          by_cases e : k = n ∧ l = a
          · obtain ⟨rfl, rfl⟩ := e
            rw [if_pos rfl, if_pos ⟨rfl, hb, List.mem_cons_self ..⟩]
          · rw [if_neg (by omega)]
            rw [if_neg]
            rintro ⟨h1, h2, h3⟩
            rcases List.mem_cons.1 h3 with h3 | h3
            · exact e ⟨h1, h3⟩
            · exact h ⟨h1, h2, h3⟩
        · rw [if_neg hb, if_neg]
          rintro ⟨h1, h2, h3⟩
          rcases List.mem_cons.1 h3 with h3 | h3
          · subst h3; exact hb h2
          · exact h ⟨h1, h2, h3⟩
  unfold putLanes
  rw [key laneList (fun x hx => by simpa [laneList] using hx)]
  simp [laneList, hl]

theorem storeRead_lanesStore (mask : Word) (f : Lanes) (l : Nat) (hl : l < 32) :
    storeRead (lanesStore mask f) l = if bitOf mask l = true then f l else 0#32 := by
  unfold lanesStore
  rw [storeRead_storeFill]
  simp [laneList, hl, storeRead_nil]

/-! ## Results -/

/-- What is the same in two states that agree but for queues. -/
theorem SameBut.keeps {s t : State} (h : SameBut s t) : KeepsMemory s t ∧ KeepsModule s t := by
  obtain ⟨-, -, hcur, hoth, hctx, hmem, hdev, hclk, hag, -, -, -, -, hc⟩ := h
  exact ⟨⟨fun a => by rw [hmem], fun c a => by have := congrArg Core.spad (hc c); exact congrArg (storeRead · a) this⟩,
    hoth, hctx, hdev, hclk, hag, hcur, hc⟩

/-- A scalar destination written and the instruction complete, the sources popped first (R47, R118, R147). -/
theorem scalarResult_spec (pops : List (BitVec 8)) (d : BitVec 7) (x : Word) (s : State) :
    ScalarResult pops d x s (((s.popSources pops).writeS d x).retire) := by
  obtain ⟨hs, hq⟩ := popSources_spec s pops
  generalize s.popSources pops = u at hs hq
  obtain ⟨km, kmod⟩ := hs.keeps
  obtain ⟨hg, hp, hcur, -, -, -, -, hclk, -⟩ := hs
  obtain ⟨ug, up, ucur, uo, uc, ux, um, ud, uk, ua, ui, uf, ut, us, un⟩ := u
  simp only at hg hp hcur hclk
  subst hg hp hcur hclk
  have hd : d = 124#7 ↔ d.toNat = 124 := by rw [BitVec.toNat_eq]; rfl
  unfold State.writeS
  split_ifs with h1 h2
  · refine ⟨⟨fun r _ => ?_, ?_⟩, rfl, rfl, rfl, rfl, rfl, rfl, ⟨rfl, rfl, rfl, rfl, rfl, rfl, rfl⟩, hq, rfl, km, kmod⟩
    · simp only [State.retire_g, State.putS_s, storeRead_storeWrite]
    · rw [if_neg (fun h => by have := hd.1 h; omega)]; rfl
  · refine ⟨⟨fun r hr => ?_, ?_⟩, rfl, rfl, rfl, rfl, rfl, rfl, ⟨rfl, rfl, rfl, rfl, rfl, rfl, rfl⟩, hq, rfl, km, kmod⟩
    · rw [if_neg (by omega)]; rfl
    · rw [if_pos h2]; rfl
  · refine ⟨⟨fun r hr => ?_, ?_⟩, rfl, rfl, rfl, rfl, rfl, rfl, ⟨rfl, rfl, rfl, rfl, rfl, rfl, rfl⟩, hq, rfl, km, kmod⟩
    · rw [if_neg (by omega)]; rfl
    · rw [if_neg h2]; rfl

theorem popSources_nil (s : State) : s.popSources [] = s := rfl

theorem afterPops_nil (s : State) : s.afterPops [] = fun c q => (s.core c).queue q := by
  funext c q; simp [State.afterPops, State.popped, State.toPop]

/-- The same without sources that are queues. -/
theorem scalarOp_spec (d : BitVec 7) (x : Word) (s : State) : ScalarResult [] d x s ((s.writeS d x).retire) :=
  scalarResult_spec [] d x s

/-- A 64-bit scalar destination written and the instruction complete (R149). -/
theorem scalarOp64_spec (d : BitVec 7) (x : Dword) (s : State) : ScalarResult64 d x s ((s.writeS64 d x).retire) := by
  have hs := SameBut.refl s
  obtain ⟨km, kmod⟩ := hs.keeps
  unfold State.writeS64
  split_ifs with h1
  · refine ⟨⟨fun r _ => ?_, rfl⟩, rfl, rfl, rfl, rfl, rfl, rfl, ⟨rfl, rfl, rfl, rfl, rfl, rfl, rfl⟩, fun _ _ => rfl, rfl, km, kmod⟩
    simp only [State.retire_g, State.putS_s, storeRead_storeWrite]
    by_cases e1 : r = d.toNat
    · subst e1; rw [if_neg (by omega), if_pos rfl, if_pos ⟨h1, rfl⟩]
    · by_cases e2 : r = d.toNat + 1 <;> simp [e1, e2, h1]
  · refine ⟨⟨fun r _ => ?_, rfl⟩, rfl, rfl, rfl, rfl, rfl, rfl, ⟨rfl, rfl, rfl, rfl, rfl, rfl, rfl⟩, fun _ _ => rfl, rfl, km, kmod⟩
    simp [h1]

/-- A destination that is no queue takes no entry. -/
theorem sent_of_not (s : State) (d : BitVec 8) (f : Lanes) (h : ¬ 0xF0 ≤ d.toNat) : s.sent d f = [] := if_neg h

/-- A synchronous vector result, the sources popped first, with flags already raised in the state it starts from (R46, R47, R49, R87,
R160): `s` is the state before the flags. -/
theorem syncResult_raise (pops : List (BitVec 8)) (d : BitVec 8) (f : Lanes) (fl : FFlags) (s : State) :
    Completes (syncResult pops d f (s.raise fl)) (VectorResult pops d f fl s) := by
  refine ⟨_, rfl, ?_⟩
  obtain ⟨hs, hq⟩ := popSources_spec (s.raise fl) pops
  have hq' : QueuesAre ((s.raise fl).popSources pops) (s.afterPops pops) := hq
  have hpt : ∀ k, ((s.raise fl).popSources pops).pushTargets k = s.pushTargets k := fun k => hs.pushTargets k
  generalize (s.raise fl).popSources pops = u at hs hq' hpt
  obtain ⟨km, kmod⟩ := hs.keeps
  have hsame := hs
  obtain ⟨hg, hp, hcur, -, -, -, -, hclk, -⟩ := hs
  have hy : ∀ (g : Lanes) l, l < 32 → storeRead (lanesStore s.p.exec g) l = if bitOf s.p.exec l = true then g l else 0#32 :=
    fun g l hl => storeRead_lanesStore _ g l hl
  have hsys : (s.raise fl).g.sys = { s.g.sys with fpflags := s.g.sys.fpflags ||| fl } := rfl
  obtain ⟨ug, up, ucur, uo, uc, ux, um, ud, uk, ua, ui, uf, ut, us, un⟩ := u
  simp only at hg hp hcur hclk hpt
  subst hg hp hcur hclk
  have hv : ¬ d.toNat < 232 → LanesWritten s.p.exec d.toNat f s.g.v s.g.v := fun h1 n l _ => by rw [if_neg (fun h => h1 h.2.1)]
  simp only [State.writeV]
  split_ifs with h1 h2
  · refine ⟨fun n l hl => ?_, hy f, rfl, rfl, rfl, rfl, rfl, rfl, ⟨rfl, rfl, rfl, rfl, rfl, rfl, rfl⟩, hq', ?_, km, kmod⟩
    · simp only [State.retire_g, State.formY_g, State.putV_v]
      rw [storeRead_putLanes _ _ _ _ _ _ hl]
      simp only [h1, true_and]
      rfl
    · rw [sent_of_not s d f (by omega), List.append_nil]; rfl
  · refine ⟨hv h1, hy f, rfl, rfl, rfl, rfl, rfl, rfl, ⟨rfl, rfl, rfl, rfl, rfl, rfl, rfl⟩, hq', ?_, km, kmod⟩
    unfold State.sent
    rw [if_pos h2, ← hpt]
    rfl
  · refine ⟨hv h1, hy f, rfl, rfl, rfl, rfl, rfl, rfl, ⟨rfl, rfl, rfl, rfl, rfl, rfl, rfl⟩, hq', ?_, km, kmod⟩
    rw [sent_of_not s d f h2, List.append_nil]; rfl

theorem raise_zero (s : State) : s.raise 0#5 = s := by
  unfold State.raise
  rw [BitVec.or_zero]

/-- A synchronous vector result without flags. -/
theorem syncResult_spec (pops : List (BitVec 8)) (d : BitVec 8) (f : Lanes) (s : State) :
    Completes (syncResult pops d f s) (VectorResult pops d f 0#5 s) := by
  have h := syncResult_raise pops d f 0#5 s
  rwa [raise_zero] at h

/-- A 64-bit synchronous result written from its halves (R46). -/
theorem pairResult_raise (pops : List (BitVec 8)) (d : BitVec 8) (lo hi : Lanes) (fl : FFlags) (s u : State)
    (hs : SameBut (s.raise fl) u) (hq : QueuesAre u (s.afterPops pops)) (w : State)
    (hw : w = if d.toNat < 232 then (u.putV d.toNat u.p.exec lo).putV (d.toNat + 1) u.p.exec hi else u) :
    VectorResult64 pops d lo hi fl s ((w.formY64 lo hi).retire) := by
  obtain ⟨km, kmod⟩ := hs.keeps
  obtain ⟨hg, hp, hcur, -, -, -, -, hclk, -⟩ := hs
  obtain ⟨ug, up, ucur, uo, uc, ux, um, ud, uk, ua, ui, uf, ut, us, un⟩ := u
  simp only at hg hp hcur hclk
  subst hg hp hcur hclk
  have hy : ∀ (g : Lanes) l, l < 32 → storeRead (lanesStore s.p.exec g) l = if bitOf s.p.exec l = true then g l else 0#32 :=
    fun g l hl => storeRead_lanesStore _ g l hl
  by_cases h1 : d.toNat < 232
  · rw [if_pos h1] at hw
    subst hw
    refine ⟨fun n l hl => ?_, hy lo, hy hi, rfl, rfl, rfl, rfl, rfl, ⟨rfl, rfl, rfl, rfl, rfl, rfl, rfl⟩, hq, rfl, km, kmod⟩
    simp only [State.retire_g, State.formY64_g, State.putV_v]
    rw [storeRead_putLanes _ _ _ _ _ _ hl, storeRead_putLanes _ _ _ _ _ _ hl]
    simp only [h1, true_and]
    by_cases e1 : n = d.toNat
    · subst e1
      rw [if_neg (by omega)]
      by_cases hb : bitOf s.p.exec l = true
      · rw [if_pos ⟨rfl, hb⟩, if_pos ⟨rfl, hb⟩]
      · rw [if_neg (fun x => hb x.2), if_neg (fun x => hb x.2), if_neg (by omega)]; rfl
    · by_cases e2 : n = d.toNat + 1
      · by_cases hb : bitOf s.p.exec l = true
        · rw [if_pos ⟨e2, hb⟩, if_neg (fun x => e1 x.1), if_pos ⟨e2, hb⟩]
        · rw [if_neg (fun x => hb x.2), if_neg (fun x => hb x.2), if_neg (fun x => hb x.2), if_neg (fun x => hb x.2)]; rfl
      · rw [if_neg (fun x => e2 x.1), if_neg (fun x => e1 x.1), if_neg (fun x => e1 x.1), if_neg (fun x => e2 x.1)]; rfl
  · rw [if_neg h1] at hw
    subst hw
    refine ⟨fun n l hl => ?_, hy lo, hy hi, rfl, rfl, rfl, rfl, rfl, ⟨rfl, rfl, rfl, rfl, rfl, rfl, rfl⟩, hq, rfl, km, kmod⟩
    rw [if_neg (fun x => h1 x.2.1), if_neg (fun x => h1 x.2.1)]; rfl

/-- A 64-bit synchronous result (R46). -/
theorem syncResult64_raise (pops : List (BitVec 8)) (d : BitVec 8) (f : Lanes64) (fl : FFlags) (s : State) :
    Completes (syncResult64 pops d f (s.raise fl))
      (VectorResult64 pops d (fun l => lo32 (f l)) (fun l => hi32 (f l)) fl s) := by
  obtain ⟨hs, hq⟩ := popSources_spec (s.raise fl) pops
  exact ⟨_, rfl, pairResult_raise pops d _ _ fl s _ hs hq _ rfl⟩

theorem syncResult64_spec (pops : List (BitVec 8)) (d : BitVec 8) (f : Lanes64) (s : State) :
    Completes (syncResult64 pops d f s)
      (VectorResult64 pops d (fun l => lo32 (f l)) (fun l => hi32 (f l)) 0#5 s) := by
  have h := syncResult64_raise pops d f 0#5 s
  rwa [raise_zero] at h

/-- The flags of a synchronous instruction when none that it raises is enabled (R87, R89). -/
theorem withFlags_none {s : State} {f : Nat → FFlags} (k : State → Out)
    (h : enabledLanes s.p.exec s.g.sys.fpen f = 0#32) : withFlags s f k = k (s.raise (orFlags s.p.exec f)) := by
  unfold withFlags
  simp only [h, if_true]

/-- A lane mask written to a scalar (R175). -/
theorem maskResult_spec (pops : List (BitVec 8)) (d : BitVec 7) (f : Nat → Bool) (s : State) :
    Completes (maskResult pops d f s) (ScalarResult pops d (maskOf fun l => bitOf s.p.exec l && f l) s) :=
  ⟨_, rfl, scalarResult_spec pops d _ s⟩

/-- The issue of a flag-class operation (R39, R41). -/
theorem startFlag_spec (clk : Nat) (pops : List (BitVec 8)) (w : Writes) (vd sd : List Nat) (s : State) :
    FlagIssued clk pops w vd sd s (((s.popSources pops).startFlag clk w vd sd).retire) := by
  obtain ⟨hs, hq⟩ := popSources_spec s pops
  generalize s.popSources pops = u at hs hq
  obtain ⟨⟨km1, km2⟩, k1, k2, k3, k4, -, k6, k7⟩ := hs.keeps
  obtain ⟨hg, hp, hcur, -, -, -, -, hclk, hag, -, -, -, hn, -⟩ := hs
  obtain ⟨ug, up, ucur, uo, uc, ux, um, ud, uk, ua, ui, uf, ut, us, un⟩ := u
  simp only at hg hp hcur hclk hag hn
  subst hg hp hcur hclk hag hn
  exact ⟨rfl, rfl, rfl, rfl, rfl, rfl, rfl, rfl, rfl, ⟨rfl, rfl, rfl, rfl, rfl, rfl, rfl⟩, hq, rfl, ⟨km1, km2⟩, k1, k2, k3, k4, rfl, k6, k7⟩

theorem asyncResult_spec (clk : Nat) (pops : List (BitVec 8)) (d : BitVec 8) (f : Lanes) (fl : Nat → FFlags) (s : State) :
    Completes (asyncResult clk pops d f fl s)
      (FlagIssued clk pops (s.asyncWrites d f (orFlags s.p.exec fl)) (vdests d 1) [] s) :=
  ⟨_, rfl, startFlag_spec clk pops _ _ _ s⟩

end Sys2Proof.Machine
end

