-- ==== Sys2Proof/Laws/Control.lean ====
section
/-! SUPPORT. Sys2Proof/Laws/Control.lean: what the shared operations of control do, each said once: taking a trap, the checks of a
target, the commit that stands before an instruction. -/

namespace Sys2Proof.Machine

/-- TAKING A TRAP (R38, R417, R423), of a group that evaluates no target callable. -/
theorem trapped_trap (s : State) (t : Trap) (he : s.g.evaluates = none) : Trapped t.cause s (s.trap t) := by
  unfold State.trap
  rw [he]
  simp only []
  split_ifs with hs
  · refine ⟨⟨rfl, rfl, rfl, rfl, rfl, rfl, rfl, rfl, rfl⟩, ⟨fun _ => rfl, fun c a => ?_⟩, rfl, ?_⟩
    · simp only [State.haltTrap, State.core, State.say, State.modDev, State.modCore, State.setCore, keyFind_keyPut]
      split_ifs with h
      · subst h; rfl
      · rfl
    · refine ⟨{ s.trapRec t s.trapPc.1 with host := true }, ?_, rfl, rfl, rfl, rfl, rfl, rfl⟩
      simp only [State.haltTrap, State.core, State.say, State.modDev, State.modCore, State.setCore, keyFind_keyPut]
      simp [keyFind_keyPut]
  · unfold State.postTrap
    simp only []
    generalize hh : State.hostServes _ _ = host
    refine ⟨?_, ?_, ?_, ?_⟩
    · split_ifs <;> exact ⟨rfl, rfl, rfl, rfl, rfl, rfl, rfl, rfl, rfl⟩
    · split_ifs
      all_goals
        refine ⟨fun _ => rfl, fun c a => ?_⟩
        simp only [State.core, State.say, State.after, State.modDev, State.modCore, State.setCore, keyFind_keyPut]
        split_ifs with h
        · subst h; rfl
        · rfl
    · split_ifs <;> rfl
    · refine ⟨{ s.trapRec t s.trapPc.1 with host := host }, ?_, rfl, rfl, rfl, rfl, rfl, rfl⟩
      split_ifs
      all_goals
        simp only [State.core, State.say, State.after, State.modDev, State.modCore, State.setCore, keyFind_keyPut]
        simp [keyFind_keyPut]

/-- A trap of a given cause. -/
theorem completes_trap (s : State) (t : Trap) {c : Nat} (he : s.g.evaluates = none) (hc : t.cause = c) :
    Completes (.next (s.trap t)) (Trapped c s) := ⟨_, rfl, hc ▸ trapped_trap s t he⟩

theorem illegal_cause (s : State) : s.illegal.cause = cILLEGAL := by unfold State.illegal; split <;> rfl

/-- An instruction whose checks pass is one of a group that evaluates no target callable. -/
theorem evaluates_of_passes {u : Uses} {s : State} (h : passes u s = true) : s.g.evaluates = none := by
  simp [passes] at h; exact h.1.1.1.1.1.1.1

/-! ## Target checks (R36) -/

theorem checkTarget_ok {s : State} {a : Word} {k : State → Out} (h : TargetOk s a) : checkTarget s a k = k s := by
  obtain ⟨h1, x, h2, h3⟩ := h
  simp [checkTarget, withCode, h1, h2, h3]

theorem checkTarget_misaligned {s : State} {a : Word} {k : State → Out} (h : a.toNat % 4 ≠ 0) :
    checkTarget s a k = .next (s.trap { cause := cMISALIGN, lanes := some 0#32 }) := by
  simp [checkTarget, h]

theorem checkTarget_noHeader {s : State} {a : Word} {k : State → Out} (h1 : a.toNat % 4 = 0) {x : Nat}
    (h2 : s.fetch a 1 = .bytes x) (h3 : x % 128 ≠ 1) : checkTarget s a k = .next (s.trap s.illegal) := by
  simp [checkTarget, withCode, h1, h2, h3]

/-! ## Commit points (R219) -/

theorem atCommit_settled {s : State} {act : State → Out} (h : settled s = true) : atCommit s act = act s.committed := by
  unfold settled settledFor at h
  unfold atCommit State.committed
  by_cases h0 : s.p.stage = 0
  · rw [if_pos h0, if_pos h0]
    unfold commitThen
    have hs : s.txForbid.p.stage = 0 := h0
    have hc : (s.txForbid.g.region.empty &&
        !(s.txForbid.g.ops.any fun o => (o.atomic.isSome || (s.txForbid.p.isAtomic && o.command.isSome)) && !o.done)) = true := by
      change (s.g.region.empty && !(s.g.ops.any fun o => (o.atomic.isSome || (s.p.isAtomic && o.command.isSome)) && !o.done)) = true
      simpa [h0] using h
    rw [if_pos hs, if_pos hc]
    rfl
  · rw [if_neg h0, if_neg h0]
    unfold commitThen
    rw [if_neg h0]
    split_ifs <;> rfl

theorem atCommit_begins {s : State} {act : State → Out} (h : settled s = false) : atCommit s act = .next s.txForbid.beginCommit := by
  unfold settled settledFor at h
  simp only [Bool.or_eq_false_iff, bne_eq_false_iff_eq] at h
  unfold atCommit commitThen
  have hs : s.txForbid.p.stage = 0 := h.1
  have hc : ¬ (s.txForbid.g.region.empty &&
        !(s.txForbid.g.ops.any fun o => (o.atomic.isSome || (s.txForbid.p.isAtomic && o.command.isSome)) && !o.done)) = true := by
    rw [Bool.not_eq_true]; exact h.2
  rw [if_pos h.1, if_pos hs, if_neg hc]

end Sys2Proof.Machine
end

