-- ==== Sys2Proof/Laws/PerInstr.lean ====
section
/-! SUPPORT. Sys2Proof/Laws/PerInstr.lean: what is said of each instruction as syntax. Encoding: the lowest bit of its first unit gives
its length (R30); a step that no instruction encodes has no encoding. -/

namespace Sys2Proof.Laws.Encoding

/-- The lowest bit of an encoding: 0 for a halfword, 1 for a word (R30, R62). -/
def Statement (i : Instr) : Prop :=
  match encode i with
  | some (.half h) => h.getLsbD 0 = false
  | some (.word w) => w.getLsbD 0 = true
  | none => True

/-- The lowest bit of fields in a row is that of the last.  -/
theorem low {n k : Nat} {b : Bool} (x : BitVec n) (y : BitVec (k + 1)) (h : y.getLsbD 0 = b) : (x ++ y).getLsbD 0 = b := by
  rw [BitVec.getLsbD_append]; simpa using h

theorem clauseHeader (y : BitVec 1) (s : BitVec 1) (b : BitVec 4) (a : BitVec 4) (w : BitVec 12) : Statement (.clauseHeader y s b a w) := low _ _ rfl
theorem modxLaneSelect (p : BitVec 18) : Statement (.modxLaneSelect p) := low _ _ rfl
theorem modxNegateAbs (p : BitVec 6) : Statement (.modxNegateAbs p) := low _ _ rfl
theorem modxAddress (p : BitVec 10) : Statement (.modxAddress p) := low _ _ rfl
theorem modxRounding (p : BitVec 3) : Statement (.modxRounding p) := low _ _ rfl
theorem modxSetb : Statement (.modxSetb) := rfl
theorem modxSaturate (n : BitVec 1) : Statement (.modxSaturate n) := low _ _ rfl
theorem nop : Statement (.nop) := rfl
theorem mov16 (b : BitVec 5) (d : BitVec 6) : Statement (.mov16 b d) := low _ _ rfl
theorem iadd16 (b : BitVec 5) (d : BitVec 6) : Statement (.iadd16 b d) := low _ _ rfl
theorem isub16 (b : BitVec 5) (d : BitVec 6) : Statement (.isub16 b d) := low _ _ rfl
theorem and16 (b : BitVec 5) (d : BitVec 6) : Statement (.and16 b d) := low _ _ rfl
theorem or16 (b : BitVec 5) (d : BitVec 6) : Statement (.or16 b d) := low _ _ rfl
theorem xor16 (b : BitVec 5) (d : BitVec 6) : Statement (.xor16 b d) := low _ _ rfl
theorem shl16 (b : BitVec 5) (d : BitVec 6) : Statement (.shl16 b d) := low _ _ rfl
theorem shr16 (b : BitVec 5) (d : BitVec 6) : Statement (.shr16 b d) := low _ _ rfl
theorem sar16 (b : BitVec 5) (d : BitVec 6) : Statement (.sar16 b d) := low _ _ rfl
theorem iminI16 (b : BitVec 5) (d : BitVec 6) : Statement (.iminI16 b d) := low _ _ rfl
theorem imaxI16 (b : BitVec 5) (d : BitVec 6) : Statement (.imaxI16 b d) := low _ _ rfl
theorem fadd16 (b : BitVec 5) (d : BitVec 6) : Statement (.fadd16 b d) := low _ _ rfl
theorem fsub16 (b : BitVec 5) (d : BitVec 6) : Statement (.fsub16 b d) := low _ _ rfl
theorem fmul16 (b : BitVec 5) (d : BitVec 6) : Statement (.fmul16 b d) := low _ _ rfl
theorem fmin16 (b : BitVec 5) (d : BitVec 6) : Statement (.fmin16 b d) := low _ _ rfl
theorem fmax16 (b : BitVec 5) (d : BitVec 6) : Statement (.fmax16 b d) := low _ _ rfl
theorem bra (o : BitVec 15) : Statement (.bra o) := low _ _ rfl
theorem brez (o : BitVec 15) : Statement (.brez o) := low _ _ rfl
theorem brnez (o : BitVec 15) : Statement (.brnez o) := low _ _ rfl
theorem brzS (o : BitVec 15) (s : BitVec 7) : Statement (.brzS o s) := low _ _ rfl
theorem brnzS (o : BitVec 15) (s : BitVec 7) : Statement (.brnzS o s) := low _ _ rfl
theorem brnegS (o : BitVec 15) (s : BitVec 7) : Statement (.brnegS o s) := low _ _ rfl
theorem call (o : BitVec 15) (s : BitVec 7) : Statement (.call o s) := low _ _ rfl
theorem nopW : Statement (.nopW) := rfl
theorem ret (s : BitVec 7) : Statement (.ret s) := low _ _ rfl
theorem jmpi (s : BitVec 7) : Statement (.jmpi s) := low _ _ rfl
theorem exit : Statement (.exit) := rfl
theorem split (j : BitVec 2) (b : BitVec 7) (a : BitVec 7) : Statement (.split j b a) := low _ _ rfl
theorem join (j : BitVec 2) : Statement (.join j) := low _ _ rfl
theorem yield : Statement (.yield) := rfl
theorem sleep (n : BitVec 6) (s : BitVec 7) : Statement (.sleep n s) := low _ _ rfl
theorem waitp (p : BitVec 3) (s : BitVec 7) : Statement (.waitp p s) := low _ _ rfl
theorem barTeam (b : BitVec 4) (s : BitVec 7) : Statement (.barTeam b s) := low _ _ rfl
theorem barClu (b : BitVec 2) (s : BitVec 7) : Statement (.barClu b s) := low _ _ rfl
theorem barScope (c : BitVec 5) (k : BitVec 7) (s : BitVec 7) : Statement (.barScope c k s) := low _ _ rfl
theorem waitx (m : BitVec 4) (s : BitVec 7) : Statement (.waitx m s) := low _ _ rfl
theorem gangset (s : BitVec 7) : Statement (.gangset s) := low _ _ rfl
theorem trap (n : BitVec 6) : Statement (.trap n) := low _ _ rfl
theorem eret : Statement (.eret) := rfl
theorem halt : Statement (.halt) := rfl
theorem bkpt (n : BitVec 6) : Statement (.bkpt n) := low _ _ rfl
theorem rcommit : Statement (.rcommit) := rfl
theorem txbegin : Statement (.txbegin) := rfl
theorem txend (d : BitVec 7) : Statement (.txend d) := low _ _ rfl
theorem txabort (n : BitVec 6) : Statement (.txabort n) := low _ _ rfl
theorem fence (c : BitVec 5) : Statement (.fence c) := low _ _ rfl
theorem sadd (b : BitVec 7) (a : BitVec 7) (d : BitVec 7) : Statement (.sadd b a d) := low _ _ rfl
theorem ssub (b : BitVec 7) (a : BitVec 7) (d : BitVec 7) : Statement (.ssub b a d) := low _ _ rfl
theorem smul (b : BitVec 7) (a : BitVec 7) (d : BitVec 7) : Statement (.smul b a d) := low _ _ rfl
theorem smulhI (b : BitVec 7) (a : BitVec 7) (d : BitVec 7) : Statement (.smulhI b a d) := low _ _ rfl
theorem smulhN (b : BitVec 7) (a : BitVec 7) (d : BitVec 7) : Statement (.smulhN b a d) := low _ _ rfl
theorem sminI (b : BitVec 7) (a : BitVec 7) (d : BitVec 7) : Statement (.sminI b a d) := low _ _ rfl
theorem smaxI (b : BitVec 7) (a : BitVec 7) (d : BitVec 7) : Statement (.smaxI b a d) := low _ _ rfl
theorem sminN (b : BitVec 7) (a : BitVec 7) (d : BitVec 7) : Statement (.sminN b a d) := low _ _ rfl
theorem smaxN (b : BitVec 7) (a : BitVec 7) (d : BitVec 7) : Statement (.smaxN b a d) := low _ _ rfl
theorem sand (b : BitVec 7) (a : BitVec 7) (d : BitVec 7) : Statement (.sand b a d) := low _ _ rfl
theorem sor (b : BitVec 7) (a : BitVec 7) (d : BitVec 7) : Statement (.sor b a d) := low _ _ rfl
theorem sxor (b : BitVec 7) (a : BitVec 7) (d : BitVec 7) : Statement (.sxor b a d) := low _ _ rfl
theorem sandn (b : BitVec 7) (a : BitVec 7) (d : BitVec 7) : Statement (.sandn b a d) := low _ _ rfl
theorem sshl (b : BitVec 7) (a : BitVec 7) (d : BitVec 7) : Statement (.sshl b a d) := low _ _ rfl
theorem sshr (b : BitVec 7) (a : BitVec 7) (d : BitVec 7) : Statement (.sshr b a d) := low _ _ rfl
theorem ssar (b : BitVec 7) (a : BitVec 7) (d : BitVec 7) : Statement (.ssar b a d) := low _ _ rfl
theorem scmpEq (b : BitVec 7) (a : BitVec 7) (d : BitVec 7) : Statement (.scmpEq b a d) := low _ _ rfl
theorem scmpNe (b : BitVec 7) (a : BitVec 7) (d : BitVec 7) : Statement (.scmpNe b a d) := low _ _ rfl
theorem scmpLtI (b : BitVec 7) (a : BitVec 7) (d : BitVec 7) : Statement (.scmpLtI b a d) := low _ _ rfl
theorem scmpLeI (b : BitVec 7) (a : BitVec 7) (d : BitVec 7) : Statement (.scmpLeI b a d) := low _ _ rfl
theorem scmpLtN (b : BitVec 7) (a : BitVec 7) (d : BitVec 7) : Statement (.scmpLtN b a d) := low _ _ rfl
theorem scmpLeN (b : BitVec 7) (a : BitVec 7) (d : BitVec 7) : Statement (.scmpLeN b a d) := low _ _ rfl
theorem ssel (b : BitVec 7) (a : BitVec 7) (d : BitVec 7) : Statement (.ssel b a d) := low _ _ rfl
theorem sclz (a : BitVec 7) (d : BitVec 7) : Statement (.sclz a d) := low _ _ rfl
theorem spopc (a : BitVec 7) (d : BitVec 7) : Statement (.spopc a d) := low _ _ rfl
theorem sbrev (a : BitVec 7) (d : BitVec 7) : Statement (.sbrev a d) := low _ _ rfl
theorem sctz (a : BitVec 7) (d : BitVec 7) : Statement (.sctz a d) := low _ _ rfl
theorem sadd64 (b : BitVec 7) (a : BitVec 7) (d : BitVec 7) : Statement (.sadd64 b a d) := low _ _ rfl
theorem ssub64 (b : BitVec 7) (a : BitVec 7) (d : BitVec 7) : Statement (.ssub64 b a d) := low _ _ rfl
theorem sshl64 (b : BitVec 7) (a : BitVec 7) (d : BitVec 7) : Statement (.sshl64 b a d) := low _ _ rfl
theorem sshr64 (b : BitVec 7) (a : BitVec 7) (d : BitVec 7) : Statement (.sshr64 b a d) := low _ _ rfl
theorem smul64 (b : BitVec 7) (a : BitVec 7) (d : BitVec 7) : Statement (.smul64 b a d) := low _ _ rfl
theorem saddi (i : BitVec 11) (a : BitVec 7) (d : BitVec 7) : Statement (.saddi i a d) := low _ _ rfl
theorem sandi (i : BitVec 11) (a : BitVec 7) (d : BitVec 7) : Statement (.sandi i a d) := low _ _ rfl
theorem sshli (i : BitVec 5) (a : BitVec 7) (d : BitVec 7) : Statement (.sshli i a d) := low _ _ rfl
theorem sshri (i : BitVec 5) (a : BitVec 7) (d : BitVec 7) : Statement (.sshri i a d) := low _ _ rfl
theorem slti (i : BitVec 11) (a : BitVec 7) (d : BitVec 7) : Statement (.slti i a d) := low _ _ rfl
theorem srd (n : BitVec 7) (d : BitVec 7) : Statement (.srd n d) := low _ _ rfl
theorem swr (n : BitVec 7) (a : BitVec 7) : Statement (.swr n a) := low _ _ rfl
theorem sysClockRead (d : BitVec 7) : Statement (.sysClockRead d) := trivial
theorem sysGangWrite (a : BitVec 7) : Statement (.sysGangWrite a) := trivial
theorem sysFpflagsWrite (a : BitVec 7) : Statement (.sysFpflagsWrite a) := trivial
theorem sysFaultmaskClear (a : BitVec 7) : Statement (.sysFaultmaskClear a) := trivial
theorem contextRegisterWrite (n : BitVec 7) (a : BitVec 7) : Statement (.contextRegisterWrite n a) := trivial
theorem preemptRequest (core : Nat) (mask : BitVec 8) : Statement (.preemptRequest core mask) := trivial
theorem contextSuspend (ctx : Nat) : Statement (.contextSuspend ctx) := trivial
theorem contextResume (ctx : Nat) : Statement (.contextResume ctx) := trivial
theorem contextMarkFailed (ctx : Nat) : Statement (.contextMarkFailed ctx) := trivial
theorem tlbinvRange (b : BitVec 7) (a : BitVec 7) (d : BitVec 7) : Statement (.tlbinvRange b a d) := low _ _ rfl
theorem tlbinvCtx (a : BitVec 7) (d : BitVec 7) : Statement (.tlbinvCtx a d) := low _ _ rfl
theorem dharv (b : BitVec 7) (a : BitVec 7) (d : BitVec 7) : Statement (.dharv b a d) := low _ _ rfl
theorem tagpurge (a : BitVec 7) : Statement (.tagpurge a) := low _ _ rfl
theorem iadd (b : BitVec 8) (a : BitVec 8) (d : BitVec 8) : Statement (.iadd b a d) := low _ _ rfl
theorem isub (b : BitVec 8) (a : BitVec 8) (d : BitVec 8) : Statement (.isub b a d) := low _ _ rfl
theorem imul (b : BitVec 8) (a : BitVec 8) (d : BitVec 8) : Statement (.imul b a d) := low _ _ rfl
theorem imulhI (b : BitVec 8) (a : BitVec 8) (d : BitVec 8) : Statement (.imulhI b a d) := low _ _ rfl
theorem imulhN (b : BitVec 8) (a : BitVec 8) (d : BitVec 8) : Statement (.imulhN b a d) := low _ _ rfl
theorem imad (b : BitVec 8) (a : BitVec 8) (d : BitVec 8) : Statement (.imad b a d) := low _ _ rfl
theorem iminI (b : BitVec 8) (a : BitVec 8) (d : BitVec 8) : Statement (.iminI b a d) := low _ _ rfl
theorem imaxI (b : BitVec 8) (a : BitVec 8) (d : BitVec 8) : Statement (.imaxI b a d) := low _ _ rfl
theorem iminN (b : BitVec 8) (a : BitVec 8) (d : BitVec 8) : Statement (.iminN b a d) := low _ _ rfl
theorem imaxN (b : BitVec 8) (a : BitVec 8) (d : BitVec 8) : Statement (.imaxN b a d) := low _ _ rfl
theorem and (b : BitVec 8) (a : BitVec 8) (d : BitVec 8) : Statement (.and b a d) := low _ _ rfl
theorem or (b : BitVec 8) (a : BitVec 8) (d : BitVec 8) : Statement (.or b a d) := low _ _ rfl
theorem xor (b : BitVec 8) (a : BitVec 8) (d : BitVec 8) : Statement (.xor b a d) := low _ _ rfl
theorem andn (b : BitVec 8) (a : BitVec 8) (d : BitVec 8) : Statement (.andn b a d) := low _ _ rfl
theorem shl (b : BitVec 8) (a : BitVec 8) (d : BitVec 8) : Statement (.shl b a d) := low _ _ rfl
theorem shr (b : BitVec 8) (a : BitVec 8) (d : BitVec 8) : Statement (.shr b a d) := low _ _ rfl
theorem sar (b : BitVec 8) (a : BitVec 8) (d : BitVec 8) : Statement (.sar b a d) := low _ _ rfl
theorem rol (b : BitVec 8) (a : BitVec 8) (d : BitVec 8) : Statement (.rol b a d) := low _ _ rfl
theorem clz (a : BitVec 8) (d : BitVec 8) : Statement (.clz a d) := low _ _ rfl
theorem popc (a : BitVec 8) (d : BitVec 8) : Statement (.popc a d) := low _ _ rfl
theorem brev (a : BitVec 8) (d : BitVec 8) : Statement (.brev a d) := low _ _ rfl
theorem ctz (a : BitVec 8) (d : BitVec 8) : Statement (.ctz a d) := low _ _ rfl
theorem iabs (a : BitVec 8) (d : BitVec 8) : Statement (.iabs a d) := low _ _ rfl
theorem ineg (a : BitVec 8) (d : BitVec 8) : Statement (.ineg a d) := low _ _ rfl
theorem frcp (a : BitVec 8) (d : BitVec 8) : Statement (.frcp a d) := low _ _ rfl
theorem frsq (a : BitVec 8) (d : BitVec 8) : Statement (.frsq a d) := low _ _ rfl
theorem fsqrt (a : BitVec 8) (d : BitVec 8) : Statement (.fsqrt a d) := low _ _ rfl
theorem fexp2 (a : BitVec 8) (d : BitVec 8) : Statement (.fexp2 a d) := low _ _ rfl
theorem flog2 (a : BitVec 8) (d : BitVec 8) : Statement (.flog2 a d) := low _ _ rfl
theorem fsin (a : BitVec 8) (d : BitVec 8) : Statement (.fsin a d) := low _ _ rfl
theorem fcos (a : BitVec 8) (d : BitVec 8) : Statement (.fcos a d) := low _ _ rfl
theorem ffract (a : BitVec 8) (d : BitVec 8) : Statement (.ffract a d) := low _ _ rfl
theorem frintRne (a : BitVec 8) (d : BitVec 8) : Statement (.frintRne a d) := low _ _ rfl
theorem frintRtz (a : BitVec 8) (d : BitVec 8) : Statement (.frintRtz a d) := low _ _ rfl
theorem frintRdn (a : BitVec 8) (d : BitVec 8) : Statement (.frintRdn a d) := low _ _ rfl
theorem frintRup (a : BitVec 8) (d : BitVec 8) : Statement (.frintRup a d) := low _ _ rfl
theorem bfe (b : BitVec 8) (a : BitVec 8) (d : BitVec 8) : Statement (.bfe b a d) := low _ _ rfl
theorem bfi (b : BitVec 8) (a : BitVec 8) (d : BitVec 8) : Statement (.bfi b a d) := low _ _ rfl
theorem ilv2 (b : BitVec 8) (a : BitVec 8) (d : BitVec 8) : Statement (.ilv2 b a d) := low _ _ rfl
theorem ilv3 (b : BitVec 8) (a : BitVec 8) (d : BitVec 8) : Statement (.ilv3 b a d) := low _ _ rfl
theorem dilv2 (b : BitVec 8) (a : BitVec 8) (d : BitVec 8) : Statement (.dilv2 b a d) := low _ _ rfl
theorem dilv3 (b : BitVec 8) (a : BitVec 8) (d : BitVec 8) : Statement (.dilv3 b a d) := low _ _ rfl
theorem fadd (b : BitVec 8) (a : BitVec 8) (d : BitVec 8) : Statement (.fadd b a d) := low _ _ rfl
theorem fsub (b : BitVec 8) (a : BitVec 8) (d : BitVec 8) : Statement (.fsub b a d) := low _ _ rfl
theorem fmul (b : BitVec 8) (a : BitVec 8) (d : BitVec 8) : Statement (.fmul b a d) := low _ _ rfl
theorem ffma (b : BitVec 8) (a : BitVec 8) (d : BitVec 8) : Statement (.ffma b a d) := low _ _ rfl
theorem fmin (b : BitVec 8) (a : BitVec 8) (d : BitVec 8) : Statement (.fmin b a d) := low _ _ rfl
theorem fmax (b : BitVec 8) (a : BitVec 8) (d : BitVec 8) : Statement (.fmax b a d) := low _ _ rfl
theorem fdiv (b : BitVec 8) (a : BitVec 8) (d : BitVec 8) : Statement (.fdiv b a d) := low _ _ rfl
theorem fcpys (b : BitVec 8) (a : BitVec 8) (d : BitVec 8) : Statement (.fcpys b a d) := low _ _ rfl
theorem hadd2 (b : BitVec 8) (a : BitVec 8) (d : BitVec 8) : Statement (.hadd2 b a d) := low _ _ rfl
theorem hmul2 (b : BitVec 8) (a : BitVec 8) (d : BitVec 8) : Statement (.hmul2 b a d) := low _ _ rfl
theorem hfma2 (b : BitVec 8) (a : BitVec 8) (d : BitVec 8) : Statement (.hfma2 b a d) := low _ _ rfl
theorem bfma2 (b : BitVec 8) (a : BitVec 8) (d : BitVec 8) : Statement (.bfma2 b a d) := low _ _ rfl
theorem dadd (b : BitVec 8) (a : BitVec 8) (d : BitVec 8) : Statement (.dadd b a d) := low _ _ rfl
theorem dmul (b : BitVec 8) (a : BitVec 8) (d : BitVec 8) : Statement (.dmul b a d) := low _ _ rfl
theorem dfma (b : BitVec 8) (a : BitVec 8) (d : BitVec 8) : Statement (.dfma b a d) := low _ _ rfl
theorem ddiv (b : BitVec 8) (a : BitVec 8) (d : BitVec 8) : Statement (.ddiv b a d) := low _ _ rfl
theorem icmpEq (b : BitVec 8) (a : BitVec 8) (d : BitVec 7) : Statement (.icmpEq b a d) := low _ _ rfl
theorem icmpNe (b : BitVec 8) (a : BitVec 8) (d : BitVec 7) : Statement (.icmpNe b a d) := low _ _ rfl
theorem icmpLtI (b : BitVec 8) (a : BitVec 8) (d : BitVec 7) : Statement (.icmpLtI b a d) := low _ _ rfl
theorem icmpLeI (b : BitVec 8) (a : BitVec 8) (d : BitVec 7) : Statement (.icmpLeI b a d) := low _ _ rfl
theorem icmpLtN (b : BitVec 8) (a : BitVec 8) (d : BitVec 7) : Statement (.icmpLtN b a d) := low _ _ rfl
theorem icmpLeN (b : BitVec 8) (a : BitVec 8) (d : BitVec 7) : Statement (.icmpLeN b a d) := low _ _ rfl
theorem fcmpEq (b : BitVec 8) (a : BitVec 8) (d : BitVec 7) : Statement (.fcmpEq b a d) := low _ _ rfl
theorem fcmpNe (b : BitVec 8) (a : BitVec 8) (d : BitVec 7) : Statement (.fcmpNe b a d) := low _ _ rfl
theorem fcmpLt (b : BitVec 8) (a : BitVec 8) (d : BitVec 7) : Statement (.fcmpLt b a d) := low _ _ rfl
theorem fcmpLe (b : BitVec 8) (a : BitVec 8) (d : BitVec 7) : Statement (.fcmpLe b a d) := low _ _ rfl
theorem fcmpUn (b : BitVec 8) (a : BitVec 8) (d : BitVec 7) : Statement (.fcmpUn b a d) := low _ _ rfl
theorem vote (a : BitVec 8) (d : BitVec 7) : Statement (.vote a d) := low _ _ rfl
theorem sel (s : BitVec 7) (a : BitVec 8) (d : BitVec 8) : Statement (.sel s a d) := low _ _ rfl
theorem movs (s : BitVec 7) (d : BitVec 8) : Statement (.movs s d) := low _ _ rfl
theorem lea (s : BitVec 7) (a : BitVec 8) (d : BitVec 8) : Statement (.lea s a d) := low _ _ rfl
theorem readlane (s : BitVec 7) (a : BitVec 8) (d : BitVec 7) : Statement (.readlane s a d) := low _ _ rfl
theorem iaddi (i : BitVec 8) (a : BitVec 8) (d : BitVec 8) : Statement (.iaddi i a d) := low _ _ rfl
theorem shli (n : BitVec 5) (a : BitVec 8) (d : BitVec 8) : Statement (.shli n a d) := low _ _ rfl
theorem shri (n : BitVec 5) (a : BitVec 8) (d : BitVec 8) : Statement (.shri n a d) := low _ _ rfl
theorem sari (n : BitVec 5) (a : BitVec 8) (d : BitVec 8) : Statement (.sari n a d) := low _ _ rfl
theorem shflXor (k : BitVec 5) (a : BitVec 8) (d : BitVec 8) : Statement (.shflXor k a d) := low _ _ rfl
theorem shflUp (f : BitVec 1) (n : BitVec 5) (a : BitVec 8) (d : BitVec 8) : Statement (.shflUp f n a d) := low _ _ rfl
theorem shflDn (f : BitVec 1) (n : BitVec 5) (a : BitVec 8) (d : BitVec 8) : Statement (.shflDn f n a d) := low _ _ rfl
theorem sext (w : BitVec 8) (a : BitVec 8) (d : BitVec 8) : Statement (.sext w a d) := low _ _ rfl
theorem shflIdx (b : BitVec 8) (a : BitVec 8) (d : BitVec 8) : Statement (.shflIdx b a d) := low _ _ rfl
theorem fclass (a : BitVec 8) (d : BitVec 8) : Statement (.fclass a d) := low _ _ rfl
theorem redx (o : BitVec 4) (a : BitVec 8) (d : BitVec 8) : Statement (.redx o a d) := low _ _ rfl
theorem scanx (o : BitVec 4) (a : BitVec 8) (d : BitVec 8) : Statement (.scanx o a d) := low _ _ rfl
theorem cvtF32I32 (r : BitVec 3) (a : BitVec 8) (d : BitVec 8) : Statement (.cvtF32I32 r a d) := low _ _ rfl
theorem cvtF32N32 (r : BitVec 3) (a : BitVec 8) (d : BitVec 8) : Statement (.cvtF32N32 r a d) := low _ _ rfl
theorem cvtI32F32 (s : BitVec 1) (r : BitVec 3) (a : BitVec 8) (d : BitVec 8) : Statement (.cvtI32F32 s r a d) := low _ _ rfl
theorem cvtN32F32 (s : BitVec 1) (r : BitVec 3) (a : BitVec 8) (d : BitVec 8) : Statement (.cvtN32F32 s r a d) := low _ _ rfl
theorem cvtF64F32 (a : BitVec 8) (d : BitVec 8) : Statement (.cvtF64F32 a d) := low _ _ rfl
theorem cvtF32F64 (s : BitVec 1) (r : BitVec 3) (a : BitVec 8) (d : BitVec 8) : Statement (.cvtF32F64 s r a d) := low _ _ rfl
theorem cvtF64I32 (a : BitVec 8) (d : BitVec 8) : Statement (.cvtF64I32 a d) := low _ _ rfl
theorem cvtF64N32 (a : BitVec 8) (d : BitVec 8) : Statement (.cvtF64N32 a d) := low _ _ rfl
theorem cvtI32F64 (s : BitVec 1) (r : BitVec 3) (a : BitVec 8) (d : BitVec 8) : Statement (.cvtI32F64 s r a d) := low _ _ rfl
theorem cvtN32F64 (s : BitVec 1) (r : BitVec 3) (a : BitVec 8) (d : BitVec 8) : Statement (.cvtN32F64 s r a d) := low _ _ rfl
theorem cvtF16F32 (s : BitVec 1) (r : BitVec 3) (a : BitVec 8) (d : BitVec 8) : Statement (.cvtF16F32 s r a d) := low _ _ rfl
theorem cvtF32F16 (a : BitVec 8) (d : BitVec 8) : Statement (.cvtF32F16 a d) := low _ _ rfl
theorem cvtBf16F32 (s : BitVec 1) (r : BitVec 3) (a : BitVec 8) (d : BitVec 8) : Statement (.cvtBf16F32 s r a d) := low _ _ rfl
theorem cvtF32Bf16 (a : BitVec 8) (d : BitVec 8) : Statement (.cvtF32Bf16 a d) := low _ _ rfl
theorem cvtI64F64 (s : BitVec 1) (r : BitVec 3) (a : BitVec 8) (d : BitVec 8) : Statement (.cvtI64F64 s r a d) := low _ _ rfl
theorem cvtN64F64 (s : BitVec 1) (r : BitVec 3) (a : BitVec 8) (d : BitVec 8) : Statement (.cvtN64F64 s r a d) := low _ _ rfl
theorem cvtF64I64 (r : BitVec 3) (a : BitVec 8) (d : BitVec 8) : Statement (.cvtF64I64 r a d) := low _ _ rfl
theorem cvtF64N64 (r : BitVec 3) (a : BitVec 8) (d : BitVec 8) : Statement (.cvtF64N64 r a d) := low _ _ rfl
theorem cvtI16I32 (s : BitVec 1) (a : BitVec 8) (d : BitVec 8) : Statement (.cvtI16I32 s a d) := low _ _ rfl
theorem cvtN16N32 (s : BitVec 1) (a : BitVec 8) (d : BitVec 8) : Statement (.cvtN16N32 s a d) := low _ _ rfl
theorem cvtI8I32 (s : BitVec 1) (a : BitVec 8) (d : BitVec 8) : Statement (.cvtI8I32 s a d) := low _ _ rfl
theorem cvtN8N32 (s : BitVec 1) (a : BitVec 8) (d : BitVec 8) : Statement (.cvtN8N32 s a d) := low _ _ rfl
theorem cvtFp19F32 (s : BitVec 1) (r : BitVec 3) (a : BitVec 8) (d : BitVec 8) : Statement (.cvtFp19F32 s r a d) := low _ _ rfl
theorem cvtF32Fp19 (a : BitVec 8) (d : BitVec 8) : Statement (.cvtF32Fp19 a d) := low _ _ rfl
theorem cullbf (b : BitVec 8) (a : BitVec 8) (d : BitVec 7) : Statement (.cullbf b a d) := low _ _ rfl
theorem cullfr (b : BitVec 8) (a : BitVec 8) (d : BitVec 7) : Statement (.cullfr b a d) := low _ _ rfl
theorem cullsz (a : BitVec 8) (d : BitVec 7) : Statement (.cullsz a d) := low _ _ rfl
theorem bary (b : BitVec 8) (a : BitVec 8) (d : BitVec 8) : Statement (.bary b a d) := low _ _ rfl
theorem spld (s : BitVec 7) (a : BitVec 8) (d : BitVec 8) (z : BitVec 2) : Statement (.spld s a d z) := low _ _ rfl
theorem spst (s : BitVec 7) (a : BitVec 8) (d : BitVec 8) (z : BitVec 2) : Statement (.spst s a d z) := low _ _ rfl
theorem spatXchg (s : BitVec 5) (a : BitVec 8) (d : BitVec 8) : Statement (.spatXchg s a d) := low _ _ rfl
theorem spatCas (s : BitVec 5) (a : BitVec 8) (d : BitVec 8) : Statement (.spatCas s a d) := low _ _ rfl
theorem spatIadd (s : BitVec 5) (a : BitVec 8) (d : BitVec 8) : Statement (.spatIadd s a d) := low _ _ rfl
theorem spatIminI (s : BitVec 5) (a : BitVec 8) (d : BitVec 8) : Statement (.spatIminI s a d) := low _ _ rfl
theorem spatImaxI (s : BitVec 5) (a : BitVec 8) (d : BitVec 8) : Statement (.spatImaxI s a d) := low _ _ rfl
theorem spatIminN (s : BitVec 5) (a : BitVec 8) (d : BitVec 8) : Statement (.spatIminN s a d) := low _ _ rfl
theorem spatImaxN (s : BitVec 5) (a : BitVec 8) (d : BitVec 8) : Statement (.spatImaxN s a d) := low _ _ rfl
theorem spatAnd (s : BitVec 5) (a : BitVec 8) (d : BitVec 8) : Statement (.spatAnd s a d) := low _ _ rfl
theorem spatOr (s : BitVec 5) (a : BitVec 8) (d : BitVec 8) : Statement (.spatOr s a d) := low _ _ rfl
theorem spatXor (s : BitVec 5) (a : BitVec 8) (d : BitVec 8) : Statement (.spatXor s a d) := low _ _ rfl
theorem spatFadd (s : BitVec 5) (a : BitVec 8) (d : BitVec 8) : Statement (.spatFadd s a d) := low _ _ rfl
theorem spatFmin (s : BitVec 5) (a : BitVec 8) (d : BitVec 8) : Statement (.spatFmin s a d) := low _ _ rfl
theorem spatFmax (s : BitVec 5) (a : BitVec 8) (d : BitVec 8) : Statement (.spatFmax s a d) := low _ _ rfl
theorem ctins (f : BitVec 2) (t : BitVec 2) (a : BitVec 8) (d : BitVec 8) : Statement (.ctins f t a d) := low _ _ rfl
theorem ctprb (f : BitVec 1) (t : BitVec 2) (a : BitVec 8) (d : BitVec 8) : Statement (.ctprb f t a d) := low _ _ rfl
theorem ctdel (f : BitVec 1) (t : BitVec 2) (a : BitVec 8) (d : BitVec 8) : Statement (.ctdel f t a d) := low _ _ rfl
theorem ctacc (f : BitVec 2) (t : BitVec 2) (a : BitVec 8) (d : BitVec 8) : Statement (.ctacc f t a d) := low _ _ rfl
theorem ctinit (d : BitVec 7) (a : BitVec 7) : Statement (.ctinit d a) := low _ _ rfl
theorem ctfree (a : BitVec 7) : Statement (.ctfree a) := low _ _ rfl
theorem ctstat (d : BitVec 7) (a : BitVec 7) : Statement (.ctstat d a) := low _ _ rfl
theorem ctdrain (cur : BitVec 7) (out : BitVec 7) (ctl : BitVec 7) : Statement (.ctdrain cur out ctl) := low _ _ rfl
theorem spmap (size : BitVec 7) (va : BitVec 7) (ctl : BitVec 7) : Statement (.spmap size va ctl) := low _ _ rfl
theorem spunmap (m : BitVec 7) : Statement (.spunmap m) := low _ _ rfl
theorem spwb (m : BitVec 7) : Statement (.spwb m) := low _ _ rfl
theorem ldG (s : BitVec 7) (a : BitVec 8) (d : BitVec 8) (z : BitVec 2) : Statement (.ldG s a d z) := low _ _ rfl
theorem ldfwd (s : BitVec 7) (a : BitVec 8) (d : BitVec 8) : Statement (.ldfwd s a d) := low _ _ rfl
theorem stG (s : BitVec 7) (a : BitVec 8) (d : BitVec 8) (z : BitVec 2) : Statement (.stG s a d z) := low _ _ rfl
theorem stfwd (s : BitVec 7) (a : BitVec 8) (d : BitVec 8) : Statement (.stfwd s a d) := low _ _ rfl
theorem atomGXchg (s : BitVec 5) (a : BitVec 8) (d : BitVec 8) : Statement (.atomGXchg s a d) := low _ _ rfl
theorem atomGCas (s : BitVec 5) (a : BitVec 8) (d : BitVec 8) : Statement (.atomGCas s a d) := low _ _ rfl
theorem atomGIadd (s : BitVec 5) (a : BitVec 8) (d : BitVec 8) : Statement (.atomGIadd s a d) := low _ _ rfl
theorem atomGIminI (s : BitVec 5) (a : BitVec 8) (d : BitVec 8) : Statement (.atomGIminI s a d) := low _ _ rfl
theorem atomGImaxI (s : BitVec 5) (a : BitVec 8) (d : BitVec 8) : Statement (.atomGImaxI s a d) := low _ _ rfl
theorem atomGIminN (s : BitVec 5) (a : BitVec 8) (d : BitVec 8) : Statement (.atomGIminN s a d) := low _ _ rfl
theorem atomGImaxN (s : BitVec 5) (a : BitVec 8) (d : BitVec 8) : Statement (.atomGImaxN s a d) := low _ _ rfl
theorem atomGAnd (s : BitVec 5) (a : BitVec 8) (d : BitVec 8) : Statement (.atomGAnd s a d) := low _ _ rfl
theorem atomGOr (s : BitVec 5) (a : BitVec 8) (d : BitVec 8) : Statement (.atomGOr s a d) := low _ _ rfl
theorem atomGXor (s : BitVec 5) (a : BitVec 8) (d : BitVec 8) : Statement (.atomGXor s a d) := low _ _ rfl
theorem atomGFadd (s : BitVec 5) (a : BitVec 8) (d : BitVec 8) : Statement (.atomGFadd s a d) := low _ _ rfl
theorem atomGFmin (s : BitVec 5) (a : BitVec 8) (d : BitVec 8) : Statement (.atomGFmin s a d) := low _ _ rfl
theorem atomGFmax (s : BitVec 5) (a : BitVec 8) (d : BitVec 8) : Statement (.atomGFmax s a d) := low _ _ rfl
theorem redGIadd (s : BitVec 5) (a : BitVec 8) : Statement (.redGIadd s a) := low _ _ rfl
theorem redGIminI (s : BitVec 5) (a : BitVec 8) : Statement (.redGIminI s a) := low _ _ rfl
theorem redGImaxI (s : BitVec 5) (a : BitVec 8) : Statement (.redGImaxI s a) := low _ _ rfl
theorem redGIminN (s : BitVec 5) (a : BitVec 8) : Statement (.redGIminN s a) := low _ _ rfl
theorem redGImaxN (s : BitVec 5) (a : BitVec 8) : Statement (.redGImaxN s a) := low _ _ rfl
theorem redGAnd (s : BitVec 5) (a : BitVec 8) : Statement (.redGAnd s a) := low _ _ rfl
theorem redGOr (s : BitVec 5) (a : BitVec 8) : Statement (.redGOr s a) := low _ _ rfl
theorem redGXor (s : BitVec 5) (a : BitVec 8) : Statement (.redGXor s a) := low _ _ rfl
theorem redGFadd (s : BitVec 5) (a : BitVec 8) : Statement (.redGFadd s a) := low _ _ rfl
theorem redGFmin (s : BitVec 5) (a : BitVec 8) : Statement (.redGFmin s a) := low _ _ rfl
theorem redGFmax (s : BitVec 5) (a : BitVec 8) : Statement (.redGFmax s a) := low _ _ rfl
theorem lds (o : BitVec 7) (b : BitVec 7) (d : BitVec 7) : Statement (.lds o b d) := low _ _ rfl
theorem lds64 (o : BitVec 7) (b : BitVec 7) (d : BitVec 7) : Statement (.lds64 o b d) := low _ _ rfl
theorem sts (o : BitVec 7) (b : BitVec 7) (a : BitVec 7) : Statement (.sts o b a) := low _ _ rfl
theorem sts64 (o : BitVec 7) (b : BitVec 7) (a : BitVec 7) : Statement (.sts64 o b a) := low _ _ rfl
theorem pref (o : BitVec 7) (b : BitVec 7) (h : BitVec 7) : Statement (.pref o b h) := low _ _ rfl
theorem post (arg : BitVec 7) (card : BitVec 7) (target : BitVec 7) : Statement (.post arg card target) := low _ _ rfl
theorem depdec (b : BitVec 7) : Statement (.depdec b) := low _ _ rfl
theorem ringarr (r : BitVec 7) : Statement (.ringarr r) := low _ _ rfl
theorem ringwait (p : BitVec 7) (r : BitVec 7) : Statement (.ringwait p r) := low _ _ rfl
theorem mboxsend (m : BitVec 7) (v : BitVec 7) : Statement (.mboxsend m v) := low _ _ rfl
theorem cpTensor (d : BitVec 7) : Statement (.cpTensor d) := low _ _ rfl
theorem cpGather (d : BitVec 7) : Statement (.cpGather d) := low _ _ rfl
theorem cpScatter (d : BitVec 7) : Statement (.cpScatter d) := low _ _ rfl
theorem cpMcast (d : BitVec 7) : Statement (.cpMcast d) := low _ _ rfl
theorem cpPack (d : BitVec 7) : Statement (.cpPack d) := low _ _ rfl
theorem cpUnpack (d : BitVec 7) : Statement (.cpUnpack d) := low _ _ rfl
theorem cpFill (d : BitVec 7) : Statement (.cpFill d) := low _ _ rfl
theorem cpCancel (b : BitVec 7) : Statement (.cpCancel b) := low _ _ rfl
theorem barinit (e : BitVec 7) (o : BitVec 7) : Statement (.barinit e o) := low _ _ rfl
theorem barexp (n : BitVec 7) (o : BitVec 7) : Statement (.barexp n o) := low _ _ rfl
theorem barwait (p : BitVec 7) (o : BitVec 7) (d : BitVec 7) : Statement (.barwait p o d) := low _ _ rfl
theorem bartest (o : BitVec 7) (d : BitVec 7) : Statement (.bartest o d) := low _ _ rfl
theorem tagalloc (c : BitVec 7) (d : BitVec 7) : Statement (.tagalloc c d) := low _ _ rfl
theorem tagallocTree (n : BitVec 7) (c : BitVec 7) (d : BitVec 7) : Statement (.tagallocTree n c d) := low _ _ rfl
theorem tagfree (t : BitVec 7) : Statement (.tagfree t) := low _ _ rfl
theorem fsend (m : BitVec 7) (o : BitVec 7) : Statement (.fsend m o) := low _ _ rfl
theorem tagqry (t : BitVec 7) (d : BitVec 7) : Statement (.tagqry t d) := low _ _ rfl
theorem mma (p : BitVec 5) (t : BitVec 1) (o : BitVec 1) (c : BitVec 3) (b : BitVec 4) (a : BitVec 4) (k : BitVec 3) : Statement (.mma p t o c b a k) := low _ _ rfl
theorem oclaim (s : BitVec 7) (i : BitVec 4) : Statement (.oclaim s i) := low _ _ rfl
theorem orelease (i : BitVec 4) : Statement (.orelease i) := low _ _ rfl
theorem osetfmt (s : BitVec 7) (i : BitVec 4) : Statement (.osetfmt s i) := low _ _ rfl
theorem aclaim (s : BitVec 7) (i : BitVec 3) : Statement (.aclaim s i) := low _ _ rfl
theorem arelease (i : BitVec 3) : Statement (.arelease i) := low _ _ rfl
theorem ainit (i : BitVec 3) : Statement (.ainit i) := low _ _ rfl
theorem ainitSet (s : BitVec 7) (i : BitVec 3) : Statement (.ainitSet s i) := low _ _ rfl
theorem ainitSlot (s : BitVec 7) (i : BitVec 3) : Statement (.ainitSlot s i) := low _ _ rfl
theorem ald (s : BitVec 7) (i : BitVec 3) (d : BitVec 8) : Statement (.ald s i d) := low _ _ rfl
theorem aldCol (s : BitVec 7) (i : BitVec 3) (d : BitVec 8) : Statement (.aldCol s i d) := low _ _ rfl
theorem aldStat (i : BitVec 3) (d : BitVec 8) : Statement (.aldStat i d) := low _ _ rfl
theorem ast (s : BitVec 7) (i : BitVec 3) (d : BitVec 8) : Statement (.ast s i d) := low _ _ rfl
theorem astCol (s : BitVec 7) (i : BitVec 3) (d : BitVec 8) : Statement (.astCol s i d) := low _ _ rfl
theorem qbfp (s : BitVec 7) (i : BitVec 4) (d : BitVec 8) : Statement (.qbfp s i d) := low _ _ rfl
theorem ofill (s : BitVec 7) (i : BitVec 4) (d : BitVec 8) : Statement (.ofill s i d) := low _ _ rfl
theorem oread (s : BitVec 7) (i : BitVec 4) (d : BitVec 8) : Statement (.oread s i d) := low _ _ rfl
theorem oreadRec (i : BitVec 4) (d : BitVec 8) : Statement (.oreadRec i d) := low _ _ rfl
theorem rtrace (s : BitVec 4) (a : BitVec 8) (d : BitVec 8) : Statement (.rtrace s a d) := low _ _ rfl
theorem rtany (s : BitVec 4) (a : BitVec 8) (d : BitVec 8) : Statement (.rtany s a d) := low _ _ rfl
theorem rtqry (s : BitVec 4) (a : BitVec 8) (d : BitVec 8) : Statement (.rtqry s a d) := low _ _ rfl
theorem ltwalk (s : BitVec 4) (a : BitVec 8) (d : BitVec 8) : Statement (.ltwalk s a d) := low _ _ rfl
theorem ltpdf (s : BitVec 4) (a : BitVec 8) (d : BitVec 8) : Statement (.ltpdf s a d) := low _ _ rfl
theorem texld (s : BitVec 4) (a : BitVec 8) (d : BitVec 8) : Statement (.texld s a d) := low _ _ rfl
theorem texg (s : BitVec 4) (a : BitVec 8) (d : BitVec 8) : Statement (.texg s a d) := low _ _ rfl
theorem rngctr (a : BitVec 8) (d : BitVec 8) : Statement (.rngctr a d) := low _ _ rfl
theorem rngf (a : BitVec 8) (d : BitVec 8) : Statement (.rngf a d) := low _ _ rfl
theorem rsvinit (d : BitVec 8) : Statement (.rsvinit d) := low _ _ rfl
theorem rsvupd (a : BitVec 8) (d : BitVec 8) : Statement (.rsvupd a d) := low _ _ rfl
theorem rsvmrg (a : BitVec 8) (d : BitVec 8) : Statement (.rsvmrg a d) := low _ _ rfl
theorem rsvnorm (d : BitVec 8) : Statement (.rsvnorm d) := low _ _ rfl
theorem rsvld (s : BitVec 4) (a : BitVec 8) (d : BitVec 8) : Statement (.rsvld s a d) := low _ _ rfl
theorem rsvst (s : BitVec 4) (a : BitVec 8) (d : BitVec 8) : Statement (.rsvst s a d) := low _ _ rfl
theorem reuse (s : BitVec 4) : Statement (.reuse s) := low _ _ rfl
theorem tgtret (a : BitVec 8) (d : BitVec 8) : Statement (.tgtret a d) := low _ _ rfl
theorem brimx (s : BitVec 4) : Statement (.brimx s) := low _ _ rfl
theorem splitPromotion (core : Nat) (slot : Nat) (split : Nat) : Statement (.splitPromotion core slot split) := trivial
theorem sleepExpiry (core : Nat) (slot : Nat) (split : Nat) : Statement (.sleepExpiry core slot split) := trivial
theorem flagOperationComplete (core : Nat) (slot : Nat) (op : Nat) : Statement (.flagOperationComplete core slot op) := trivial
theorem globalLoadReturn (core : Nat) (slot : Nat) (op : Nat) : Statement (.globalLoadReturn core slot op) := trivial
theorem regionCommit (core : Nat) (slot : Nat) : Statement (.regionCommit core slot) := trivial
theorem reservationLapse (line : Nat) : Statement (.reservationLapse line) := trivial
theorem capacityCommit (core : Nat) (slot : Nat) : Statement (.capacityCommit core slot) := trivial
theorem atomicCommit (core : Nat) (slot : Nat) (op : Nat) : Statement (.atomicCommit core slot op) := trivial
theorem lineFill (team : Nat) (map : Nat) (line : Nat) : Statement (.lineFill team map line) := trivial
theorem peerScratchpadAccess (msg : Nat) : Statement (.peerScratchpadAccess msg) := trivial
theorem copyCommandStart (core : Nat) (cmd : Nat) : Statement (.copyCommandStart core cmd) := trivial
theorem copyRowComplete (core : Nat) (cmd : Nat) : Statement (.copyRowComplete core cmd) := trivial
theorem copyFault (core : Nat) (cmd : Nat) : Statement (.copyFault core cmd) := trivial
theorem copyRestart (core : Nat) (cmd : Nat) : Statement (.copyRestart core cmd) := trivial
theorem copyResume (core : Nat) (cmd : Nat) (terminate : Bool) : Statement (.copyResume core cmd terminate) := trivial
theorem mmaStart (core : Nat) (mma : Nat) : Statement (.mmaStart core mma) := trivial
theorem mmaComplete (core : Nat) (mma : Nat) : Statement (.mmaComplete core mma) := trivial
theorem signalStore (sender : Sender) (die : Nat) (box : Nat) (value : BitVec 32) : Statement (.signalStore sender die box value) := trivial
theorem fullingOperandArrival (msg : Nat) : Statement (.fullingOperandArrival msg) := trivial
theorem fullingSpillRefill (ctx : Nat) (capacity : BitVec 32) : Statement (.fullingSpillRefill ctx capacity) := trivial
theorem fullingReload (node : Nat) : Statement (.fullingReload node) := trivial
theorem fsendRetry (msg : Nat) : Statement (.fsendRetry msg) := trivial
theorem fsendOverflow (msg : Nat) : Statement (.fsendOverflow msg) := trivial
theorem orphanExpiry (msg : Nat) : Statement (.orphanExpiry msg) := trivial
theorem spillSweep (node : Nat) : Statement (.spillSweep node) := trivial
theorem fullingDelivery (msg : Nat) : Statement (.fullingDelivery msg) := trivial
theorem heldDeliveryExpiry (msg : Nat) : Statement (.heldDeliveryExpiry msg) := trivial
theorem teamPlacement (die : Nat) : Statement (.teamPlacement die) := trivial
theorem launchMessage (block : Nat) : Statement (.launchMessage block) := trivial
theorem teamEnd (team : Nat) : Statement (.teamEnd team) := trivial
theorem gridEnd (grid : Nat) : Statement (.gridEnd grid) := trivial
theorem pageWalk (core : Nat) (ctx : Nat) (va : BitVec 80) (kind : Nat) : Statement (.pageWalk core ctx va kind) := trivial
theorem migratingRetry (core : Nat) (ctx : Nat) (va : BitVec 80) (kind : Nat) : Statement (.migratingRetry core ctx va kind) := trivial
theorem invalidationAck (req : Nat) : Statement (.invalidationAck req) := trivial
theorem supervisorEntry (core : Nat) : Statement (.supervisorEntry core) := trivial
theorem hostTrapAction (core : Nat) (slot : Nat) (action : BitVec 32) (hwm : BitVec 32) : Statement (.hostTrapAction core slot action hwm) := trivial
theorem preemptSave (core : Nat) (tslot : Nat) : Statement (.preemptSave core tslot) := trivial
theorem preemptLimitExpiry (core : Nat) (tslot : Nat) : Statement (.preemptLimitExpiry core tslot) := trivial
theorem watchdog (team : Nat) : Statement (.watchdog team) := trivial
theorem debugHalt (core : Nat) : Statement (.debugHalt core) := trivial
theorem debugResume (core : Nat) : Statement (.debugResume core) := trivial
theorem peerLinkDown (port : Nat) : Statement (.peerLinkDown port) := trivial
theorem peerLinkUp (port : Nat) : Statement (.peerLinkUp port) := trivial
theorem flitReplay (link : Nat) : Statement (.flitReplay link) := trivial
theorem uncorrectableFlit (link : Nat) (line : Nat) (core : Nat) (slot : Nat) (control : Bool) : Statement (.uncorrectableFlit link line core slot control) := trivial
theorem moduleLaneFailure (link : Nat) : Statement (.moduleLaneFailure link) := trivial
theorem powerThrottle (die : Nat) : Statement (.powerThrottle die) := trivial
theorem thermalThrottle (die : Nat) : Statement (.thermalThrottle die) := trivial
theorem thermtrip : Statement (.thermtrip) := trivial
theorem reset : Statement (.reset) := trivial
theorem attestationRequest (nonce : BitVec 256) : Statement (.attestationRequest nonce) := trivial
theorem slPin (line : Nat) : Statement (.slPin line) := trivial
theorem slUnpin (line : Nat) : Statement (.slUnpin line) := trivial
theorem slBypassClear (slice : Nat) (mask : BitVec 32) : Statement (.slBypassClear slice mask) := trivial
theorem contextBindingWrite (index : Nat) (ctx : Nat) (port : Nat) (remote : Nat) : Statement (.contextBindingWrite index ctx port remote) := trivial
theorem controlNodeMemoryAccess (pa : Nat) (msg : Nat) (write : Bool) : Statement (.controlNodeMemoryAccess pa msg write) := trivial
theorem shootdownRequest (ctx : Nat) (va : BitVec 80) (pages : Nat) : Statement (.shootdownRequest ctx va pages) := trivial
theorem harvestRequest (ctx : Nat) (va : BitVec 80) (pages : Nat) : Statement (.harvestRequest ctx va pages) := trivial
theorem cardingSpillAllocation (team : Nat) (table : Nat) (base : BitVec 64) (refuse : Bool) : Statement (.cardingSpillAllocation team table base refuse) := trivial
theorem dramScrub (line : Nat) : Statement (.dramScrub line) := trivial
theorem sramScrub (line : Nat) : Statement (.sramScrub line) := trivial
theorem scrublate : Statement (.scrublate) := trivial
theorem ucieRetraining (link : Nat) : Statement (.ucieRetraining link) := trivial
theorem gddr7Retraining (device : Nat) : Statement (.gddr7Retraining device) := trivial
theorem agingMonitor : Statement (.agingMonitor) := trivial
theorem flashWearLevelling : Statement (.flashWearLevelling) := trivial
theorem telemetry : Statement (.telemetry) := trivial
theorem rayUnitComplete (core : Nat) (op : Nat) : Statement (.rayUnitComplete core op) := trivial
theorem rayLaneRestart (core : Nat) (op : Nat) (lane : Nat) : Statement (.rayLaneRestart core op lane) := trivial
theorem reuseJobStart (core : Nat) (job : Nat) : Statement (.reuseJobStart core job) := trivial
theorem reuseBatch (core : Nat) (job : Nat) : Statement (.reuseBatch core job) := trivial
theorem reuseMerge (core : Nat) (job : Nat) : Statement (.reuseMerge core job) := trivial
theorem reuseJobComplete (core : Nat) (job : Nat) : Statement (.reuseJobComplete core job) := trivial
theorem brimArrival (core : Nat) (op : Nat) : Statement (.brimArrival core op) := trivial
theorem illegalEncoding (word : BitVec 32) : Statement (.illegalEncoding word) := trivial
theorem tagNodeAcknowledgement (req : Nat) : Statement (.tagNodeAcknowledgement req) := trivial
theorem dirtyHarvestComplete (req : Nat) : Statement (.dirtyHarvestComplete req) := trivial
theorem zeroingComplete (core : Nat) (slot : Nat) : Statement (.zeroingComplete core slot) := trivial
theorem taskQueueAcceptance (msg : Nat) : Statement (.taskQueueAcceptance msg) := trivial
theorem thermalThrottleEnd (die : Nat) : Statement (.thermalThrottleEnd die) := trivial
theorem peerPortRequest (port : Nat) (pa : Nat) (msg : Nat) (write : Bool) : Statement (.peerPortRequest port pa msg write) := trivial

end Sys2Proof.Laws.Encoding
end

