-- ==== Sys2Proof/Tests/Slice0.lean ====
section
/-! SUPPORT. Sys2Proof/Tests/Slice0.lean: small tests of the model. Witnesses: for every statement with hypotheses, a state and operands that
meet them, clause by clause. Decoding: a word of every encoded instruction. Well-formedness: for each check a term that it refuses. Single
steps with the results of the spec's worked examples. -/

namespace Sys2Proof.Tests

open Sys2Proof Sys2Proof.Machine

/-! ## The states that the tests speak of -/

/-- A translation of context 1: its low 256 MiB to M-die 2. -/
def page1 : Tlb :=
  { ctx := 1, global := false, va := 0, size := 28, pa := 2 * 2 ^ 52, r := true, w := true, x := true, streaming := false, peer := false }

/-- A team of one group on core 3, with 4,096 bytes of scratchpad and two queues. -/
def team7 : Team :=
  { core := 3, tslot := 0, grid := 5, cluster := 6, pos := 0, index := 0, groups := 1, ctx := 1
    card := { queues := 2, rings := 1, spad := 4096, regs := 64 }, spsize := 4096 }

/-- A general group in a clause at 0x100, four lanes active, its checks passing; a clause header stands at 0x110. -/
def tst : State :=
  { State.reset with
    agenda := [], clock := 100, nextId := 50, mem := [(2 * 2 ^ 52 + 0x110, 1#8)]
    cores := [(3, { tlb := [page1] })]
    dev := { teams := [(7, team7)], clusters := [(6, { teams := [7], core := 3, w := 1, h := 1, grid := 5 })]
             grids := [(5, { task := { id := 1, card := team7.card, ctx := 1 } })] }
    g := { core := 3, slot := 0, ctx := 1, team := 7, gid := 0, nregs := 64, role := 3#2, sys := { privhwm := 0xFFFFFFFF#32 }
           s := [(0, 0x110#32), (4, 8#32), (6, 0x80000000#32), (8, 4096#32), (10, 2#32), (12, 1#32)] }
    p := { pc := 0x100#32, inClause := true, exec := 0xF#32, seta := 0#4 }
    cur := { pc := 0x100#32, len := 4 } }

/-- The same with other registers of the split. -/
def tstP (f : Split → Split) : State := { tst with p := f tst.p }
/-- The same with other contents of the group. -/
def tstG (f : Group → Group) : State := { tst with g := f tst.g }
/-- The supervisor of core 0 at an instruction. -/
def sup : State := { State.reset with agenda := [], clock := 100, nextId := 50, cur := { pc := 0x100#32, len := 4 } }

/-- Every use passes its checks in a state. -/
def allPass (l : List Uses) (s : State) : Bool := l.all fun u => passes u s

theorem targetOk_of {s : State} {a : Word}
    (h : (decide (a.toNat % 4 = 0) && (match s.fetch a 1 with | .bytes h => h % 128 == 1 | _ => false)) = true) : TargetOk s a := by
  simp only [Bool.and_eq_true, decide_eq_true_eq] at h
  refine ⟨h.1, ?_⟩
  have h2 := h.2
  split at h2
  · next x hx => exact ⟨x, hx, by simpa using h2⟩
  · cases h2

theorem noneEnabled (m : Word) (f : Nat → FFlags) : enabledLanes m 0#5 f = 0#32 := by
  unfold enabledLanes
  have : (fun l => bitOf m l && (f l &&& 0#5 != 0#5)) = fun _ => false := by
    funext l; simp
  rw [this]; decide

/-! ## Witnesses: states and operands that meet the hypotheses of the statements -/

theorem witness_scalar : allPass [{ rd := [.s 0#7 1, .s 127#7 1], wr := [.s 124#7 1] }, { rd := [.s 123#7 1], wr := [.s 125#7 1] },
    { rd := [.s 0#7 1, .s 123#7 1, .s 5#7 1], wr := [.s 5#7 1] }, { rd := [.s 0#7 2, .s 122#7 2], wr := [.s 125#7 2] },
    { rd := [.s 0#7 2, .s 5#7 1], wr := [.s 122#7 2] }] tst = true := by decide

theorem witness_VectorIntegerResults : allPass [use2 mxABsat 0#8 63#8 0xEA#8, use2 mxAB 0xE7#8 0#8 63#8, use3 mxABsat 1#8 2#8 63#8,
    use3 mxAB 0#8 0xEB#8 3#8, use1 mxA 63#8 0#8, use1 mxAsat 0xEC#8 0xE0#8] tst = true := by decide

theorem witness_ShortFormResults : allPass [use2 {} (dst6 63#6) (src5 31#5) (dst6 63#6), use1 {} (src5 0#5) (dst6 0#6), {}] tst = true ∧
    ∀ f, enabledLanes tst.p.exec tst.g.sys.fpen f = 0#32 := ⟨by decide, fun f => noneEnabled _ f⟩

theorem witness_FloatArithmeticResults : allPass [use2 mxFr 0#8 63#8 1#8, use3 mxFc 0#8 1#8 63#8, use2 mxF 0xE8#8 0xE9#8 0xEA#8,
    use1 mxFu 63#8 0#8] tst = true ∧ ∀ f, enabledLanes tst.p.exec tst.g.sys.fpen f = 0#32 := ⟨by decide, fun f => noneEnabled _ f⟩

theorem witness_AsynchronousFloatIssues : allPass [use2 { mxFr with flag := true } 0#8 63#8 1#8,
    use1 { mxFu with round := false, flag := true } 0#8 63#8, use1 { mxFu with round := true, flag := true } 63#8 0#8,
    { rd := [.v 0#8 2, .v 62#8 2], wr := [.v 4#8 2], modx := { mxFr with flag := true } },
    { rd := [.v 0#8 2, .v 2#8 2, .v 62#8 2], wr := [.v 62#8 2], modx := { mxFc with flag := true } }] tst = true := by decide

theorem witness_LaneMaskResults : allPass [{ rd := [.v 0#8 1, .v 63#8 1], wr := [.s 124#7 1], modx := mxAB },
    { rd := [.v 0#8 1, .v 1#8 1], wr := [.s 123#7 1], modx := mxF }, { rd := [.v 63#8 1], wr := [.s 0#7 1], modx := mxA },
    { rd := [.v 58#8 6, .v 0#8 1], wr := [.s 0#7 1] }, { rd := [.v 0#8 6, .v 60#8 4], wr := [.s 0#7 1] },
    { rd := [.v 58#8 6], wr := [.s 125#7 1] }] tst = true ∧ ∀ f, enabledLanes tst.p.exec tst.g.sys.fpen f = 0#32 :=
  ⟨by decide, fun f => noneEnabled _ f⟩

theorem witness_ConversionResults : allPass [use1 { selA := true, negA := false } 0#8 63#8, use1 { selA := true, negA := true } 63#8 0#8,
    { rd := [.v 62#8 2], wr := [.v 0#8 1], modx := { selA := true, negA := true } }, use32to64 true 63#8 62#8, use32to64 false 0#8 0#8,
    { use64to64 0#8 62#8 with modx := { selA := true, negA := true } }, use64to64 62#8 0#8] tst = true ∧
    ∀ f, enabledLanes tst.p.exec tst.g.sys.fpen f = 0#32 := ⟨by decide, fun f => noneEnabled _ f⟩

theorem witness_CrossLaneResults : allPass [{ rd := [.v 0#8 1, .s 124#7 1, .v 63#8 1], wr := [.v 63#8 1], modx := mxA },
    { rd := [.s 123#7 1], wr := [.v 0#8 1] }, { rd := [.v 63#8 1, .s 122#7 2], wr := [.v 62#8 2], modx := mxA },
    { rd := [.v 63#8 1, .s 123#7 1], wr := [.s 124#7 1] }, use1 { selA := true, negA := true } 0#8 63#8,
    { rd := [.v 58#8 6, .v 0#8 2], wr := [.v 62#8 2] }] tst = true ∧
    ∀ f, enabledLanes tst.p.exec tst.g.sys.fpen f = 0#32 := ⟨by decide, fun f => noneEnabled _ f⟩

theorem witness_ShufflesAndReductionsIssue : allPass [{ rd := [.v 63#8 1], wr := [.v 0#8 1], modx := { flag := true } },
    { rd := [.v 63#8 1, .v 0#8 1], wr := [.v 63#8 1], modx := { flag := true } },
    { rd := [.v 0#8 1], wr := [.v 63#8 1], modx := redModx 10#4 }] tst = true := by decide

/-- Every prefix pending. -/
def chained : State := tstP fun p =>
  { p with mods := { laneSel := some 0#18, negAbs := some 0#6, address := some 0#10, rounding := some 0#3, setb := true, saturate := some 0#1
                     start := some (0x0FC#32, 3, 0x3#32) } }

theorem witness_PrefixesJoinTheirInstruction : tst.p.mods = {} ∧ chained.g.evaluates = none ∧ chained.p.mods.laneSel ≠ none ∧
    chained.p.mods.negAbs ≠ none ∧ chained.p.mods.address ≠ none ∧ chained.p.mods.rounding ≠ none ∧ chained.p.mods.setb ≠ false ∧
    chained.p.mods.saturate ≠ none := by decide

theorem witness_ClauseHeaderOpensItsClause :
    (tst.p.mods.start = none ∧ tst.cur.lit.extractLsb' 30 2 = 0#2 ∧ tst.cur.pc.toNat % 4 = 0 ∧ (tst.p.sp && tst.preemptWanted) = false) ∧
    chained.p.mods.start.isSome = true ∧ (0x40000000#32 : Word).extractLsb' 30 2 ≠ 0#2 ∧ (0x102#32 : Word).toNat % 4 ≠ 0 := by decide

/-- The branch offsets 8, 1 and 2 reach the header at 0x110, a place that no header can have, and no header. -/
theorem witness_BranchesGoToTheirTarget :
    allPass [{ rd := [] }, { rd := [.s 125#7 1] }, { wr := [.s 124#7 1] }] tst = true ∧
    TargetOk tst (tst.cur.pc + ((8#15).signExtend 32 <<< 1)) ∧ (tst.cur.pc + ((1#15).signExtend 32 <<< 1)).toNat % 4 ≠ 0 ∧
    (tst.cur.pc + ((2#15).signExtend 32 <<< 1)).toNat % 4 = 0 ∧ tst.fetch (tst.cur.pc + ((2#15).signExtend 32 <<< 1)) 1 = .bytes 0 ∧
    (tstP fun p => { p with exec := 0#32 }).p.exec = 0#32 ∧ tst.p.exec ≠ 0#32 ∧ tst.readS 125#7 = 0#32 ∧ tst.readS 4#7 ≠ 0#32 ∧
    (tst.readS 6#7).toInt < 0 ∧ TargetOk tst (tst.readS 0#7) ∧ (tst.readS 10#7).toNat % 4 ≠ 0 ∧
    (tst.readS 4#7).toNat % 4 = 0 ∧ tst.fetch (tst.readS 4#7) 1 = .bytes 0 := by
  and_intros <;> first | decide | exact ⟨_, rfl, by decide⟩

/-- Every offset of the inline dword reaches the header. -/
def splits : State := { tst with cur := { tst.cur with dword := 0x0008000800080008#64, len := 12 } }

theorem witness_SplitMakesOneChildPerHeldPath : passes { rd := [.s 4#7 1, .s 10#7 1] } splits = true ∧
    (∀ p, p < 4 → TargetOk splits (splits.cur.pc + ((splits.cur.dword.extractLsb' (16 * p) 16).signExtend 32 <<< 1))) ∧
    splits.g.splits.length + 3 ≤ 4 ∧ splits.g.sets.length < 4 ∧
    4 < (tstG fun g => { g with splits := [{ idx := 1 }, { idx := 2 }, { idx := 3 }, { idx := 4 }] }).g.splits.length + 1 := by
  refine ⟨by decide, fun p h => ?_, by decide, by decide, by decide⟩
  match p, h with
  | 0, _ => exact targetOk_of (by decide)
  | 1, _ => exact targetOk_of (by decide)
  | 2, _ => exact targetOk_of (by decide)
  | 3, _ => exact targetOk_of (by decide)

/-- A child of a set of two whose sibling is parked at its JOIN, in a transaction. -/
def child : State :=
  { tst with
    p := { tst.p with set := some 9 }
    g := { tst.g with sets := [{ num := 9, joinId := 1#2, parent := {} }], tx := some { num := 4, lanes := 0xF#32 }
                      splits := [{ idx := 1, set := some 9, wait := .parked 0x100#32 }] } }
/-- The group seen from outside: a set 9 within a set 8, the children of set 9 as given. -/
def family (kids : List Split) (within : Option Nat) : Group :=
  { tst.g with sets := [{ num := 9, joinId := 1#2, parent := { set := within } }, { num := 8, joinId := 2#2, parent := {} }], splits := kids }
theorem witness_JoinAndExit : passes {} child = true ∧ child.g.tx ≠ none ∧ child.g.live = true ∧
    (child.p.set.bind fun n => child.g.sets.find? fun e => e.num == n) = some { num := 9, joinId := 1#2, parent := {} } ∧
    (∀ q ∈ child.g.splits, q.set = some 9 → q.wait = .parked child.cur.pc) ∧ (2#2 : BitVec 2) ≠ 1#2 ∧ passes {} tst = true ∧
    (∃ q ∈ ({ child with cur := { pc := 0x104#32 } } : State).g.splits, q.set = some 9 ∧ q.wait = .parked 0x100#32 ∧ (0x100#32 : Word) ≠ 0x104#32) ∧
    tst.p.set = none ∧ child.g.splits ≠ [] ∧ tst.g.splits = [] ∧ settled tst = true ∧ tst.g.live = true := by
  and_intros <;> decide

/-- The parts of a set's joining: its children parked, all gone, one running, and a set within it that has not joined. -/
theorem witness_JoinAndExit_sets : (∀ k w, (family k w).sets.find? (fun e => e.num == 9) = some { num := 9, joinId := 1#2, parent := { set := w } }) ∧
    (family [{ idx := 1, set := some 9, wait := .parked 0x100#32 }] none).splits.length ≤ 4 ∧
    (∀ q ∈ (family [{ idx := 1, set := some 9, wait := .parked 0x100#32 }] none).splits, q.set = some 9 ∧ q.wait = .parked 0x100#32) ∧
    ((family [{ idx := 2 }] none).splits.filter fun q => q.set == some 9) = [] ∧
    (∃ q ∈ (family [{ idx := 1, set := some 9 }] none).splits, q.set = some 9 ∧ q.wait = .none) ∧
    (∀ f ∈ (family [] none).sets, f.parent.set ≠ some 9) ∧ (∃ f ∈ (family [] (some 8)).sets, f.parent.set = some 8) ∧
    (∃ g, (tst.modGroup tst.g.core tst.g.slot fun g => joinSets tst.clock tst.p 5 tst.p.set g).group tst.g.core tst.g.slot = some g ∧
      ∀ q ∈ g.movers, q.wait = .none) := by
  refine ⟨fun _ _ => rfl, ?_⟩
  and_intros <;> decide

theorem witness_WaitsAndYields : allPass [{}, { rd := [.s 125#7 1] }] tst = true ∧ (tst.readS 125#7).toNat + (0#6).toNat = 0 ∧
    (tst.readS 125#7).toNat + (63#6).toNat = 63 ∧ tst.p.stage = 0 ∧ tst.g.region.held = [] ∧ tst.g.ops = [] ∧ settled tst = true ∧
    allPass [{}, { rd := [.s 125#7 1] }] (tstP fun p => { p with stage := 1 }) = true ∧ tst.p.pushing = [] ∧
    (tst.readS 125#7).toNat < (tstG fun g => { g with ops := [{ id := 1, flag := none, path := some 0 }] }).g.pathCount 0 ∧
    (tstG fun g => { g with ops := [{ id := 20, flag := none, path := some 2, command := some 3 }] }).commandsIn (tst.myScope 0#5) ≠ [] := by
  and_intros <;> decide

theorem witness_ScratchpadLoadsAndStores :
    allPass [{ rd := [.s 125#7 2, .v 0xEA#8 1], wr := [.v 63#8 1], modx := { addr := .spLoad 0#2, addrReg := 0xEA#8, flag := true } },
      { rd := [.s 125#7 2, .v 0xEA#8 1, .v 60#8 4], modx := { addr := .spStore 2#2, addrReg := 0xEA#8, flag := true } }] tst = true ∧
    tst.myTeam.core = tst.g.core ∧ tst.p.kept = none ∧ (∀ l ∈ tst.active, tst.spPlace (tst.spadAddr 125#7 0xEA#8 l).toNat 4 = some (tst.g.team, 0)) ∧
    (∀ l ∈ tst.active, tst.spPlace (tst.spadAddr 8#7 0xEA#8 l).toNat 4 = none) ∧ tst.g.sys.mode.getLsbD 1 = false ∧
    (∀ l ∈ tst.active, tst.spPlace (tst.spadAddr 10#7 0xEA#8 l).toNat 4 = some (tst.g.team, 2)) := by decide

theorem witness_ScratchpadAtomics :
    allPass [{ rd := [.s ((14#5 : BitVec 5).setWidth 7) 2, .v 0#8 2], wr := [.v 63#8 1],
               modx := { addr := .spAtomic false, addrReg := 0#8, addrData := 1, flag := true } },
      { rd := [.s ((14#5 : BitVec 5).setWidth 7) 2, .v 0#8 3], wr := [.v 63#8 1],
        modx := { addr := .spAtomic false, addrReg := 0#8, addrData := 2, flag := true } },
      { rd := [.s ((14#5 : BitVec 5).setWidth 7) 2, .v 0#8 2], wr := [.v 63#8 1],
        modx := { addr := .spAtomic true, addrReg := 0#8, addrData := 1, flag := true } }] tst = true ∧ tst.myTeam.core = tst.g.core ∧
    (∀ l ∈ tst.active, tst.spPlace (tst.spadAddr ((14#5 : BitVec 5).setWidth 7) 0#8 l).toNat 4 = some (tst.g.team, 0)) ∧
    tst.active.length = 4 ∧ (tstP fun p => { p with exec := 8#32 }).active = [3] := by decide

theorem placesOk_of {acc n : Nat} {served : Bool} {lanes : List (Nat × Nat)} {s : State} {l : List LaneAt}
    (h : ((lanes.all fun e => e.2 % n == 0 && (s.privOver n e.2).isNone) && s.dev.poisoned.isEmpty) = true)
    (hr : s.resolve acc n served lanes = .ok l) : PlacesOk acc n served lanes s l := by
  simp only [Bool.and_eq_true, List.all_eq_true, beq_iff_eq, List.isEmpty_iff, Option.isNone_iff_eq_none] at h
  exact ⟨fun e he => (h.1 e he).1, fun e he => (h.1 e he).2, hr, fun e _ pa t _ => by rw [h.2]; exact List.not_mem_nil⟩

/-- The lanes resolve to places that pass every check, and of which `f` holds. -/
def placed (acc n : Nat) (served : Bool) (lanes : List (Nat × Nat)) (s : State) (f : List LaneAt → Bool) : Bool :=
  (lanes.all fun e => e.2 % n == 0 && (s.privOver n e.2).isNone) && s.dev.poisoned.isEmpty &&
    match s.resolve acc n served lanes with
    | .ok l => f l
    | _ => false

theorem placed_ok {acc n : Nat} {served : Bool} {lanes : List (Nat × Nat)} {s : State} {f : List LaneAt → Bool}
    (h : placed acc n served lanes s f = true) : ∃ l, PlacesOk acc n served lanes s l ∧ f l = true := by
  unfold placed at h
  rw [Bool.and_eq_true] at h
  have h2 := h.2
  split at h2
  · next l hl => exact ⟨l, placesOk_of h.1 hl, h2⟩
  · cases h2

/-- A transaction of lanes 0 and 1, lane 0 aborted, opened by the split or by another; lanes 2 and 3 are active beside it. -/
def inTx (mine : Bool) : State :=
  { tstG fun g => { g with tx := some { num := 4, lanes := 0x3#32, perLane := [(0, {}), (1, {})], aborted := 0x1#32 } } with
    p := { tst.p with tx := if mine then some 4 else some 3 } }
theorem witness_Transactions :
    passes {} tst = true ∧ tst.g.tx = none ∧ settled tst = true ∧ (∀ b, passes {} (inTx b) = true ∧ (inTx b).g.tx ≠ none) ∧
    allPass [{ wr := [.s 122#7 2] }, { wr := [.s 124#7 1] }, { wr := [.s 125#7 1] }] tst = true ∧
    (∀ b, allPass [{ wr := [.s 122#7 2] }, { wr := [.s 124#7 1] }, { wr := [.s 125#7 1] }] (inTx b) = true ∧ settled (inTx b) = true) ∧
    (∀ x, (inTx false).g.tx = some x → (inTx false).p.tx ≠ some x.num) ∧
    (∀ x, (inTx true).g.tx = some x → (inTx true).p.tx = some x.num ∧ ∀ k ∈ x.perLane, ∀ e ∈ k.2.stores,
      (inTx true).ownedLine e.1 = false ∧ (inTx true).reservedElse (inTx true).g.core (inTx true).g.slot e.1 = false) := by
  and_intros <;> decide

/-- The four lanes' address 4096, and an odd one. -/
def at4096 : List (Nat × Nat) := tst.laneAddresses (tst.readS64 8#7) 0xEA#8
def at2 : List (Nat × Nat) := tst.laneAddresses (tst.readS64 10#7) 0xEA#8

theorem witness_GlobalLoadsIssueTheirValues :
    (∀ b : Bool, allPass [{ rd := [.s 8#7 2, offsetRegs tst.p.mods 0xEA#8], wr := [.v 63#8 1], path := some 0, modx := { addr := .load 0#2, addrReg := 0xEA#8 } },
      { rd := [.s 8#7 2, offsetRegs tst.p.mods 0xEA#8], wr := [.v 63#8 1], path := some 0, modx := { addr := .fwdLoad, addrReg := 0xEA#8 } },
      { rd := [.s 8#7 2, .s 125#7 1], wr := [.s 123#7 1], path := some 0 }, { rd := [.s 8#7 2, .s 125#7 1], wr := [.s 122#7 2], path := some 0 }]
      (if b then inTx true else tst) = true) ∧
    (∃ l, PlacesOk accR 4 true at4096 tst l ∧ loadable 4 true l tst = true) ∧ (∃ l, PlacesOk accR 4 false at4096 tst l ∧ loadable 4 false l tst = true) ∧
    ((inTx true).g.tx.isSome = true ∧ ∃ l, PlacesOk accTx 4 true at4096 (inTx true) l ∧ loadable 4 true l (inTx true) = true) ∧
    (∃ l, PlacesOk accR 4 false at4096 (inTx true) l ∧ loadable 4 false l (inTx true) = true) ∧
    (∃ l, PlacesOk accR 8 false [(0, tst.scalarVa 125#7 8#7)] tst l ∧ (l.length == 1 && loadable 8 false l tst) = true) ∧
    (∃ e ∈ at2, e.2 % 4 ≠ 0) ∧ tst.scalarVa 125#7 10#7 % 4 ≠ 0 := by
  and_intros <;> first | exact placed_ok (by decide) | exact ⟨(0, 2), by decide⟩ | decide

theorem witness_GlobalStoresFillTheBuffer :
    (∀ b : Bool, allPass [{ rd := [.s 8#7 2, offsetRegs tst.p.mods 0xEA#8, .v 63#8 1], path := some 1, modx := { addr := .store 0#2, addrReg := 0xEA#8 } },
      { rd := [.s 8#7 3, offsetRegs tst.p.mods 0xEA#8, .v 63#8 1], path := some 1, modx := { addr := .fwdStore, addrReg := 0xEA#8 } },
      { rd := [.s 8#7 2, .s 125#7 1, .s 123#7 1], path := some 1 }, { rd := [.s 8#7 2, .s 125#7 1, .s 122#7 2], path := some 1 },
      { rd := [.s 8#7 2, .s 125#7 1, .s 0#7 1] }] (if b then inTx true else tst) = true) ∧ tst.g.tx = none ∧
    (∃ l, PlacesOk accW 4 true at4096 tst l ∧ (decide (tst.readOnlyLanes l = []) && storable 4 true l tst) = true) ∧
    ((inTx true).g.tx.isSome = true ∧
      ∃ l, PlacesOk accRW 4 true at4096 (inTx true) l ∧ (decide ((inTx true).readOnlyLanes l = []) && storable 4 true l (inTx true)) = true) ∧
    (∃ l, PlacesOk accW 4 false at4096 (inTx true) l ∧ storable 4 false l (inTx true) = true) ∧ (∃ e ∈ at2, e.2 % 4 ≠ 0) ∧
    (∃ l, PlacesOk accW 8 false [(0, tst.scalarVa 125#7 8#7)] tst l ∧ (l.length == 1 && storable 8 false l tst) = true) ∧
    (∃ l, PlacesOk accW 4 false [(0, tst.scalarVa 125#7 8#7)] tst l ∧ (l.length == 1 && storable 4 false l tst) = true) ∧
    tst.scalarVa 125#7 10#7 % 4 ≠ 0 ∧ tst.lookup (tst.scalarVa 125#7 8#7) accR ≠ .miss ∧ tst.lookup (2 ^ 28) accR = .miss := by
  and_intros <;> first | exact placed_ok (by decide) | exact ⟨(0, 2), by decide⟩ | decide

/-- A group with a line in its store buffer: its commit is still to be made. -/
def unsettled : State := tstG fun g => { g with region := { stores := [(3, { mask := 1, bytes := [] })] } }

theorem witness_GlobalAtomicsIssue :
    allPass [{ rd := [.s 8#7 2, .v 0#8 2], wr := [.v 63#8 1], path := some 0, modx := { addr := .atomic false, addrReg := 0#8, addrData := 1 } },
      { rd := [.s 8#7 2, .v 0#8 3], wr := [.v 63#8 1], path := some 0, modx := { addr := .atomic false, addrReg := 0#8, addrData := 2 } },
      { rd := [.s 8#7 2, .v 0#8 2], wr := [.v 63#8 1], path := some 0, modx := { addr := .atomic true, addrReg := 0#8, addrData := 1 } },
      { rd := [.s 8#7 2, .v 0#8 2], wr := [.v 0xEA#8 1], path := some 1, modx := { addr := .atomic false, addrReg := 0#8, addrData := 1 } },
      { rd := [.s 8#7 2, .v 0#8 3], wr := [.v 0xEA#8 1], path := some 1, modx := { addr := .atomic false, addrReg := 0#8, addrData := 2 } },
      { rd := [.s 8#7 2, .v 0#8 2], wr := [.v 0xEA#8 1], path := some 1, modx := { addr := .atomic true, addrReg := 0#8, addrData := 1 } }] tst = true ∧
    (∃ l, PlacesOk accRW 4 false (tst.laneAddresses (tst.readS64 8#7) 0#8) tst l ∧ settledFor true tst = true) ∧
    (∃ l, PlacesOk accRW 4 false (unsettled.laneAddresses (unsettled.readS64 8#7) 0#8) unsettled l ∧ (!settledFor true unsettled) = true) ∧
    (∃ e ∈ tst.laneAddresses (tst.readS64 10#7) 0#8, e.2 % 4 ≠ 0) ∧ tst.p.kept = none ∧
    (∀ l, l = [{ lane := 0, va := 4096, place := .pa (2 * 2 ^ 52 + 4096) page1 }] →
      PlacesFound accRW 4 [] { tst with p := { tst.p with stage := 1, kept := some (.places l) } } l) := by
  and_intros <;> first
    | decide | exact placed_ok (by decide) | exact ⟨(0, 2), by decide⟩
    | exact fun l h => .inl ⟨rfl, rfl, fun e he => by subst h; cases List.mem_singleton.mp he; exact ⟨_, _, rfl⟩⟩

theorem witness_SystemRegisterReads : allPass [{ wr := [.s 0#7 1] }, { wr := [.s 123#7 1] }, { wr := [.s 124#7 1] }, { wr := [.s 125#7 1] }] tst = true := by
  decide

theorem witness_SystemRegisterWrites : passes { rd := [.s 0#7 1] } tst = true ∧ passes { rd := [.s 30#7 1], priv := true } sup = true ∧
    tst.isSup = false ∧ tst.g.evaluates = none ∧ tst.p.mods = {} := by decide

/-- A matrix group, number 0 of its team. -/
def matrixGroup : State := tstG fun g => { g with role := 1#2 }

theorem witness_GangWritesAreChecked :
    passes { rd := [.s 12#7 1] } matrixGroup = true ∧ laneList.filter (bitOf (matrixGroup.readS 12#7)) = [0] ∧
    bitOf (matrixGroup.readS 12#7) matrixGroup.g.gid = true ∧ 0 < matrixGroup.myTeam.groups ∧ matrixGroup.g.role = 1#2 ∧
    passes { rd := [.s 125#7 1] } tst = true ∧ laneList.filter (bitOf (tst.readS 125#7)) = [] := by decide

theorem witness_TrapsAreTakenAndRecorded : passes {} tst = true ∧ passes {} sup = true ∧ passes { priv := true } sup = true ∧
    tst.isSup = false ∧ sup.isSup = true ∧ tst.g.evaluates = none ∧ tst.p.mods.start = none ∧ modxOk {} tst.p.mods = true := by decide

/-- A trap of the group in slot 0 of core 0 that its supervisor is to serve, and one that the control node is to serve. -/
def trappedBy (host : Bool) (action : Word) : State :=
  { sup with others := [{ core := 0, slot := 0, trapped := true, splits := [{}] }]
             cores := [(0, { traps := [(0, { cause := cTRAP, action := action, host := host })] })] }
def parkedSup (host : Bool) : State := { trappedBy host 1#32 with p := { sup.p with wait := .idle } }

theorem witness_TrapRecordsAreServed :
    ((parkedSup false).core 0).oldest = some 0 ∧ ((parkedSup false).core 0).halted = false ∧
    ((parkedSup false).focus 0 supSlot 0).g.trapped = false ∧ ((parkedSup false).focus 0 supSlot 0).p.wait = .idle ∧
    passes { priv := true } sup = true ∧ sup.isSup = true ∧ (sup.core 0).selected = false ∧
    (∀ a, a = 0#32 ∨ a = 1#32 → passes { priv := true } (trappedBy false a) = true ∧ (trappedBy false a).isSup = true) ∧
    (trappedBy false 1#32).p.live = true ∧ ((trappedBy false 1#32).core 0).trsel.toNat < 64 ∧ ((trappedBy false 1#32).core 0).trsel.toNat ≠ supSlot ∧
    (∀ a, keyFind ((trappedBy false a).core 0).traps 0 = some { cause := cTRAP, action := a }) ∧
    (parkedSup true).g.at 0 0 = false ∧
    (∀ h, keyFind ((parkedSup h).core 0).traps 0 = some { cause := cTRAP, action := 1#32, host := h }) := by
  and_intros <;> first | exact fun _ => rfl | exact fun a h => by rcases h with h | h <;> subst h <;> decide | decide

/-- The test state with another core 3, other contents of the module, another team. -/
def tstK (f : Core → Core) : State := tst.modCore 3 f
def tstD (f : Dev → Dev) : State := { tst with dev := f tst.dev }
def tstT (f : Team → Team) : State := tst.modTeam 7 f

/-- The supervisor's instruction in its second part, with an answer. -/
def answered (v : Nat) : State := { sup with p := { sup.p with stage := 1, reply := some v } }

theorem witness_InvalidationAndHarvest :
    passes { rd := [.s 30#7 2, .s 2#7 2], wr := [.s 31#7 1], priv := true } sup = true ∧ sup.p.stage = 0 ∧
    ((sup.readS64 2#7).extractLsb' 32 32).toNat = 0 ∧
    (∀ s, s = { sup with g := { sup.g with s := [(3, 65536#32)] } } → passes { rd := [.s 30#7 2, .s 2#7 2], wr := [.s 31#7 1], priv := true } s = true ∧
      ((s.readS64 2#7).extractLsb' 32 32).toNat ≠ 0) ∧
    (∀ v, (answered v).p.stage ≠ 0 ∧ (answered v).p.reply = some v) ∧ (BitVec.ofNat 32 20 : Word) ≠ 0#32 ∧
    passes { rd := [.s 30#7 2, .s 2#7 2], wr := [.s 125#7 1], priv := true } (answered 20) = true ∧
    passes { rd := [.s 0#7 1], wr := [.s 125#7 1], priv := true } (answered 0) = true ∧
    passes { rd := [.s 0#7 1], wr := [.s 31#7 1], priv := true } sup = true ∧
    tst.isSup = false ∧ tst.g.evaluates = none ∧ tst.p.mods = {} := by
  and_intros <;> first | decide | exact fun s h => by subst h; decide | exact fun v => ⟨by simp [answered], rfl⟩

/-- A request of the control node in progress. -/
def asked (k : ReqKind) (removed : Bool) : State :=
  tstD fun d => { d with requests := [(9, { core := 320, slot := 0, split := 0, kind := k, removed := removed })], hmode := if removed then 0x30#10 else 0#10 }
theorem witness_InvalidationAndHarvest_requests :
    (∀ k b, keyFind (asked k b).dev.requests 9 = some { core := 320, slot := 0, split := 0, kind := k, removed := b }) ∧
    (∃ p, (ReqKind.invalidate 1 0 0 (2 ^ 32 - 1)).removes = some p ∧ p page1 = true ∧ p { page1 with ctx := 2 } = false) ∧
    (∃ p, (ReqKind.invalidateCtx 1 false).removes = some p ∧ p page1 = true ∧ p { page1 with global := true } = false) ∧
    (∃ p, (ReqKind.invalidateCtx 65535 true).removes = some p ∧ p page1 = true) ∧
    (∃ r, keyFind (asked (.invalidate 1 0 0 1) true).dev.requests 9 = some r ∧ (asked (.invalidate 1 0 0 1) true).quiet r = true ∧
      (asked (.invalidate 1 0 0 1) true).quiet { r with loads := [(3, 0, 20)] } = true) ∧
    (({ asked (.invalidate 1 0 0 1) true with g := { tst.g with ops := [{ id := 20, flag := none, path := some 0 }] } } : State).quiet
      { core := 320, slot := 0, split := 0, kind := .invalidate 1 0 0 1, removed := true, loads := [(3, 0, 20)] } = false) ∧
    ((asked (.harvest 1 0 1) false).harvest 1 0 1 0 1 0).rest = none ∧
    (∀ n, n = 4 ∨ n = 5 → (asked (.harvest 1 0 1) true).dev.hmode.getLsbD n = true ∧ (asked (.harvest 1 0 1) false).dev.hmode.getLsbD n = false) := by
  and_intros <;> first
    | exact fun _ _ => rfl | exact fun n (h : n = 4 ∨ n = 5) => by rcases h with h | h <;> subst h <;> decide | decide
    | exact ⟨_, rfl, by decide, by decide⟩ | exact ⟨_, rfl, by decide⟩

theorem witness_ContextsAndCoresChangeState : (tst.ctx 1).suspended = false ∧
    (({ tst with ctxs := [(1, { suspended := true })] } : State).ctx 1).suspended = true ∧ keyFind (tst.core 3).traps supSlot = none := by decide

/-- The cluster asked to stop at clock 90, with its save block; its only split at its safe point, or in its clause. -/
def asksStop (stopped : Bool) : State :=
  { tstD fun d => { d with clusters := [(6, { teams := [7], core := 3, w := 1, h := 1, grid := 5, preempt := some (90, [2 ^ 30]) })] } with
    p := { tst.p with wait := if stopped then .preempted else .none } }
/-- The test state whose core has its pre-emption bit of team 7 set, or whose hmode hears the control node. -/
def hears (core host : Bool) : State :=
  { (tstK fun k => { k with preempt := if core then 1#8 else 0#8 }) with dev := { tst.dev with hmode := if host then 0x80#10 else 0#10 } }
theorem witness_PreemptionAndWatchdog :
    (∀ c h : Bool, ((hears c h).dev.hmode.getLsbD 7 = true ∨ ((hears c h).core 3).preempt.getLsbD 0 = true) ↔ (c || h) = true) ∧
    (∀ c h, (hears c h).teamAt 3 7 = none ∧ (hears c h).teamAt 3 0 = some (7, team7) ∧
      keyFind (hears c h).dev.clusters 6 = some { teams := [7], core := 3, w := 1, h := 1, grid := 5 }) ∧ team7.ending = false ∧
    (∀ b, (asksStop b).teamAt 3 0 = some (7, team7) ∧
      keyFind (asksStop b).dev.clusters 6 = some { teams := [7], core := 3, w := 1, h := 1, grid := 5, preempt := some (90, [2 ^ 30]) } ∧
      (keyFind (asksStop b).dev.grids 5).isSome = true ∧ (asksStop b).clock < 90 + ((asksStop b).core 3).preemptLimit.toNat ∧
      (asksStop b).clusterGroups 7 ≠ [] ∧ ((asksStop b).clusterGroups 7).all Group.atSafePoint = b ∧
      ((asksStop b).clusterGroups 7).all (fun g => !g.trapped && g.ops.all Async.done) = true ∧ (asksStop b).engineBusy 7 = false ∧
      (asksStop b).slotsBusy 7 = false ∧ (asksStop b).nonRestart 7 = false) ∧
    90 + (((asksStop false).modCore 3 fun k => { k with preemptLimit := 10#32 }).core 3).preemptLimit.toNat ≤ (asksStop false).clock := by
  and_intros <;> decide

/-- The watchdog's limit at 50 clk: the team has issued at clock 60, or at none. -/
def watched (last : Nat) : State := (tstT fun t => { t with lastIssue := last }).modCore 3 fun k => { k with wdlimit := 50#32 }

theorem witness_PreemptionAndWatchdog_watchdog :
    (∀ n, keyFind (watched n).dev.teams 7 = some { team7 with lastIssue := n } ∧ (watched n).paused { team7 with lastIssue := n } = false) ∧
    0 < ((watched 0).core 3).wdlimit.toNat ∧ (watched 60).clock < 60 + 50 ∧ 0 + 50 ≤ (watched 0).clock ∧
    lowestGroup ((watched 0).teamGroups 7) = some (watched 0).whole ∧ keyFind ((watched 0).core 3).traps 0 = none ∧
    (watched 0).group 3 0 = some (watched 0).whole ∧ (watched 0).whole.movers.head?.or (watched 0).whole.splits.head? = some (watched 0).p := by
  and_intros <;> first | decide | exact fun _ => ⟨rfl, rfl⟩

/-- An operation in flight. -/
def flying (o : Async) : State := tstG fun g => { g with ops := [{ o with id := 20 }] }
/-- A queue of the core is full. -/
def full0 (s : State) : State := s.modCore 3 fun k => { k with queues := [(0, List.replicate 16 [])] }

theorem witness_CompletionsLand :
    (tst.group 3 0).bind (fun g => g.op 20) = none ∧ (tst.core 3).late = [] ∧
    (∀ o : Async, o.done = false → ∃ g, (flying o).group 3 0 = some g ∧ g.op 20 = some { o with id := 20 }) ∧
    (∀ o, (flying o).cardingBehind 3 0 20 = false) ∧ (((flying {id := 0, flag := none, path := none}).core 3).queue 0).length < queueDepth ∧
    queueDepth ≤ (((full0 (flying {id := 0, flag := none, path := none})).core 3).queue 0).length ∧
    keyFind (tstT fun t => { t with maps := [(2, { off := 0, size := 128, va := 0, ro := false, nofill := true })] }).dev.teams 7 =
      some { team7 with maps := [(2, { off := 0, size := 128, va := 0, ro := false, nofill := true })] } ∧
    tst.group 3 0 = some tst.whole ∧ (∀ q ∈ tst.whole.splits, q.live = true) ∧ tst.whole.splits = [tst.p] ∧
    (∀ c, (tstP fun p => { p with wait := .sleep c }).group 3 0 = some (tstP fun p => { p with wait := .sleep c }).whole ∧
      (tstP fun p => { p with wait := .sleep c }).whole.splits = [{ tst.p with wait := .sleep c }]) := by
  and_intros <;> first
    | decide | exact fun _ => rfl | exact fun _ => ⟨rfl, rfl⟩
    | exact fun o ho => ⟨_, rfl, by obtain ⟨⟩ := o; simp_all [Group.op, flying, tstG, State.whole]⟩

/-- A group whose region commits: one line read as 0, or as 1, one byte stored. -/
def commits (r : Byte) : State := tstG fun g =>
  { g with region := { committing := some 0, stores := [(32, { mask := 1, bytes := [(0, 7#8)] })]
                       reads := [(2 * 2 ^ 45 + 1, { mask := 1, bytes := if r = 0#8 then [] else [(0, r)] })] } }

theorem witness_CommitsPublishOrFail :
    (∀ r, (commits r).group 3 0 = some (commits r).whole ∧ (commits r).whole.region.committing = some 0 ∧ (commits r).whole.region.acting = false ∧
      (commits r).whole.region.marked = [] ∧ (commits r).commitWaits (commits r).whole = false ∧ (commits r).whole.region.depdecs = []) ∧
    (commits 0#8).whole.region.drops = [] ∧ (commits 0#8).whole.region.held = [] ∧
    (∃ e ∈ (commits 1#8).whole.region.reads, validLine { commits 1#8 with dev := { tst.dev with versions := [(2 * 2 ^ 45 + 1, 3)] } } e = false) ∧
    (∀ e ∈ (commits 0#8).whole.region.reads, validLine (commits 0#8) e = true) ∧ isMmio (128 * 32) = false ∧
    ({ commits 0#8 with dev := { tst.dev with owned := [(32, 3, 20)] } } : State).commitWaits (commits 0#8).whole = true := by
  and_intros <;> decide

/-- Two lanes' additions to one word on their way to its slice. -/
def adds : Async := { id := 20, flag := none, path := some 0, atomic := some { op := 2, size := 4, lanes := [(0, 4096, 5, 0), (3, 4096, 6, 0)], dst := 1, mask := 9#32 } }

theorem witness_CommitsPublishOrFail_atomics :
    (flying adds).group 3 0 = some (flying adds).whole ∧ (flying adds).whole.op 20 = some adds ∧
    (∀ a, adds.atomic = some a → 0 < a.size ∧ ∀ e ∈ a.lanes, e.2.1 % a.size = 0 ∧
      ((flying adds).ownedLine (lineOf e.2.1) || (flying adds).reservedElse 3 0 (lineOf e.2.1)) = false) ∧
    ({ flying adds with dev := { tst.dev with owned := [(32, 3, 20)] } } : State).ownedLine (lineOf 4096) = true := by
  and_intros <;> decide

/-- A map of the team's first page, filled in no line. -/
def map0 (nofill : Bool) : MapRegion := { off := 0, size := 4096, va := 4096, ro := false, nofill := nofill, serving := true }
def mapped (nofill : Bool) : State := tstT fun t => { t with maps := [(1, map0 nofill)] }

theorem witness_MapsAndPeerAccesses :
    keyFind tst.dev.teams tst.g.team = some team7 ∧
    allPass [{ rd := [.s 125#7 1, .s 8#7 2, .s 12#7 1], modx := { flag := true } }, { rd := [.s 125#7 1, .s 8#7 2, .s 125#7 1], modx := { flag := true } },
      { rd := [.s 12#7 1], modx := { flag := true } }] tst = true ∧
    ((tst.readS64 8#7).toNat % 128 = 0 ∧ 0 < (tst.readS 12#7).toNat * 4096 ∧ (tst.readS 12#7).toNat * 4096 ≤ team7.spsize ∧
      (tst.readS 125#7).extractLsb' 7 5 = 0#5 ∧ team7.tables = [] ∧ team7.maps = [] ∧
      ((tst.dev.teams.filter fun e => e.2.core == tst.g.core).map fun e => e.2.maps.length).sum < 8) ∧
    ¬ 0 < (tst.readS 125#7).toNat * 4096 ∧ settled tst = true ∧ keyFind (mapped false).dev.teams 7 = some { team7 with maps := [(1, map0 false)] } ∧
    ((tst.readS 12#7).extractLsb' 0 2).toNat = 1 ∧ (∀ b, keyFind ((mapped b).team 7).maps 1 = some (map0 b)) ∧ (map0 true).filled.contains 31 = false ∧
    ∃ u pa, (mapped false).engineAt 3 1 (4096 + 128 * 31) accR (fun _ => false) = .ok u pa ∧ keyFind (u.team 7).maps 1 = some (map0 false) := by
  and_intros <;> first | decide | exact ⟨_, _, rfl, by decide⟩

/-- A store of one lane, on its way to the team; an earlier one of its sender's. -/
def peer : PeerAccess := { team := 7, core := 3, slot := 0, op := 20, kind := 0, code := 0, size := 4, lanes := [(0, 4092, 5, 0)], dst := 0xEA, mask := 1#32, ctx := 1 }

theorem witness_MapsAndPeerAccesses_peers :
    (let s := tstD fun d => { d with peers := [(9, peer)] }; keyFind s.dev.peers 9 = some peer ∧
      (s.dev.peers.any fun e => decide (e.1 < 9) && e.2.core == 3 && e.2.slot == 0 && e.2.team == 7) = false ∧
      (keyFind s.dev.teams 7).isSome = true ∧ ∀ e ∈ s.dev.peers, e.1 ≠ 9 → False) ∧
    (let s := tstD fun d => { d with peers := [(8, peer), (9, peer)] };
      (s.dev.peers.any fun e => decide (e.1 < 9) && e.2.core == 3 && e.2.slot == 0 && e.2.team == 7) = true) ∧
    keyFind tst.dev.teams 8 = none := by decide

/-- A claimed table of 4 KiB, keys of 4 bytes. -/
def table0 : CardTable := { claimed := true, off := 0, size := 4096, shape := 0, op := 0, scale := 0, seed := 0, win := 0, spillBase := 0, spillCap := 0 }
def tabled : State := tstT fun t => { t with tables := [(0, table0)] }

theorem witness_CardingInstructions :
    passes { modx := { flag := true } } tst = true ∧ (tst.table tst.g.team 0).filter CardTable.claimed = none ∧
    (tabled.table tabled.g.team 0).filter CardTable.claimed = some table0 ∧ table0.keyBytes / 4 = 1 ∧ table0.valBytes / 4 = 1 ∧
    (cardRun 0#8 1 false && cardRun 62#8 2 false) = true ∧ (cardRun 223#8 1 false && cardRun 223#8 2 false) = false ∧
    (({ tabled with cores := [(3, { tlb := [page1], carding := some (0, 0) })] } : State).core 3).carding = some (tst.g.slot, tst.p.idx) ∧
    passes { rd := [.v 0#8 1], wr := [.v 62#8 2], modx := { flag := true } } tabled = true ∧ tabled.cardingHeld tabled.g.core = false ∧
    (∀ op, op < 4 → ∃ l u, tabled.cardLanes op tabled.g.team 0 false (tabled.dataOf 0#8 1) (tabled.dataOf 62#8 1) tabled.active tabled.active =
      .ok l u) ∧ tabled.p.carded = {} := by
  and_intros <;> first
    | decide
    | intro op (h : op < 4); rcases op with _ | _ | _ | _ | op <;> exact ⟨_, _, rfl⟩

/-- Scalars for CTDRAIN: s14 is a count of 1 record at offset 0 of table 0; s15 a cursor that has ended. -/
def drains : State := tstG fun g => { g with s := [(6, 0x80000000#32), (8, 4096#32), (10, 2#32), (12, 1#32), (14, 0x10000#32), (15, 0x80000000#32)] }

theorem witness_CardingInstructions_scalar :
    tst.cardingHeld tst.g.core = false ∧ passes { rd := [.s 125#7 1], wr := [.s 123#7 1], modx := { flag := true } } tst = true ∧
    tst.ownBounds (tst.readS 8#7).toNat 32 = false ∧ tst.ownBounds (tst.readS 125#7).toNat 32 = true ∧ (tst.readS 125#7).toNat % 32 = 0 ∧
    tst.ownBounds (tst.readS 10#7).toNat 32 = true ∧ (tst.readS 10#7).toNat % 32 ≠ 0 ∧ keyFind tst.dev.teams tst.g.team = some team7 ∧
    (∃ st x, tst.cardClaim (tst.teamRead tst.g.team (tst.readS 125#7).toNat 32) = (st, some x)) ∧
    (∃ st, tabled.cardClaim (tabled.teamRead tabled.g.team (tabled.readS 125#7).toNat 32) = (st, none)) ∧
    passes { rd := [.s 125#7 1], wr := [.s 121#7 3], modx := { flag := true } } tst = true ∧ table0.count = 0 ∧
    allPass [{ rd := [.s 14#7 1, .s 125#7 1, .s 15#7 1], wr := [.s 15#7 1], modx := { flag := true } },
      { rd := [.s 14#7 1, .s 125#7 1, .s 0#7 1], wr := [.s 0#7 1], modx := { flag := true } }] drains = true ∧
    drains.ownBounds (drains.readS 8#7).toNat (16 * ((drains.readS 14#7).extractLsb' 16 16).toNat) = false ∧
    drains.ownBounds (drains.readS 125#7).toNat (16 * ((drains.readS 14#7).extractLsb' 16 16).toNat) = true ∧
    (drains.readS 15#7).getLsbD 31 = true ∧ (drains.readS 0#7).getLsbD 31 = false ∧
    (drains.table drains.g.team ((drains.readS 14#7).extractLsb' 0 2).toNat).filter CardTable.claimed = none ∧
    (drains.readS 125#7).toNat % 16 = 0 ∧
    ((drains.modTeam 7 fun t => { t with tables := [(0, table0)] }).table 7 ((drains.readS 14#7).extractLsb' 0 2).toNat).filter CardTable.claimed = some table0 ∧
    allPass [{ rd := [.s 14#7 1, .s 125#7 1, .s 0#7 1], wr := [.s 0#7 1], modx := { flag := true } }] (drains.modTeam 7 fun t => { t with tables := [(0, table0)] }) = true := by
  and_intros <;> first | decide | exact ⟨_, _, rfl⟩ | exact ⟨_, rfl⟩

theorem witness_CardingInstructions_spill : keyFind tabled.dev.teams 7 = some { team7 with tables := [(0, table0)] } ∧
    keyFind ({ team7 with tables := [(0, table0)] } : Team).tables 0 = some table0 := by decide

/-! ## Engines -/

/-- A copy descriptor of one element of four bytes: its kinds, its target and scope, its strides. -/
def cpDesc (n kinds target scope src dst : Nat) : Nat :=
  n + 2 * 2 ^ 8 + kinds * 2 ^ 16 + 0x80 * 2 ^ 24 + target * 2 ^ 32 + scope * 2 ^ 48 + 512 * 2 ^ 128 +
    ((List.range n).map fun k => (1 + src * 2 ^ 32 + dst * 2 ^ 80) * 2 ^ (512 + 128 * k)).sum

/-- Descriptors for CP.TENSOR to CP.FILL, by F of Table 11.1. -/
def cpDescs : List Nat :=
  [cpDesc 1 1 0 0 4 4, cpDesc 2 1 0 0 4 4, cpDesc 2 1 0 0 4 4, cpDesc 1 9 1 0 4 4, cpDesc 1 1 0 0 4 0, cpDesc 1 1 0 0 0 4, cpDesc 1 2 0 0 0 4]
/-- CP.TENSOR from the team's scratchpad to global memory, from global memory to the scratchpad, within the scratchpad; each of one element, or
of none. -/
def boxDesc (kinds : Nat) (empty : Bool) : Nat := cpDesc 1 kinds 0 0 4 4 - (if empty then 2 ^ 512 else 0)
/-- The test state with 64 KiB of scratchpad and a descriptor at its start. -/
def described (n d : Nat) : State :=
  (tstT fun t => { t with spsize := 65536 }).modCore 3 fun k => { k with spad := putBytes [] 0 (leBytes n d) }

theorem witness_CopyCommandsAreAccepted :
    (cpDescs.zipIdx.all fun e => let s := described 256 e.1;
      allPass [{ rd := [.s 125#7 1], roles := 9#4, path := some 2 }, { rd := [.s 125#7 1], roles := 9#4, path := some 2, copy := true }] s &&
        (leNat (s.teamBytes s.g.team 0 256) == e.1) && s.copyChecks e.2 0 e.1 && copyAligned e.1) = true ∧
    copyAligned (cpDesc 1 2 0 0 0 5) = false ∧ (described 256 (cpDesc 1 2 0 0 0 5)).copyChecks 6 0 (cpDesc 1 2 0 0 0 5) = true ∧
    (described 256 0).copyChecks 6 0 0 = false ∧ tst.p.stage = 0 ∧ settled (described 256 0) = true ∧
    copyMax ≤ (((described 256 0).modCore 3 fun k => { k with copies := (List.range 256).map fun i => (i, { number := i, kind := 6, team := 7, slot := 0, op := i, ctx := 1, desc := 0, srcWin := 0, dstWin := 0 }) }).core 3).copies.length := by
  decide +kernel

/-- The kinds of source and destination, with one row or none: from global memory, to it, with the region settled or not. -/
theorem witness_CopyCommandsAreAccepted_boxes :
    ([0, 1, 13].all fun k => [true, false].all fun e =>
      (described 256 (boxDesc k e)).copyChecks 0 0 (boxDesc k e) && copyAligned (boxDesc k e) && decide ((boxOf (boxDesc k e)).rows = if e then 0 else 1) &&
        (leNat ((described 256 (boxDesc k e)).teamBytes 7 0 256) == boxDesc k e)) = true ∧
    ([0, 1, 13].map fun k => ((boxOf (boxDesc k false)).sk, (boxOf (boxDesc k false)).dk)) = [(0, 0), (1, 0), (1, 3)] ∧
    settled { described 256 (boxDesc 13 false) with g := unsettled.g } = false ∧
    passes { rd := [.s 125#7 1], roles := 9#4, path := some 2, copy := true } { described 256 (boxDesc 13 false) with g := unsettled.g } = true := by
  decide +kernel

/-- A command to global memory whose commit has been made. -/
def posted (empty : Bool) : State :=
  { tstK fun k => { k with copies := [(20, { number := 0, kind := 0, team := 7, slot := 0, op := 20, ctx := 1, desc := boxDesc 13 empty, srcWin := 0, dstWin := 0, posting := true, held := true })] } with
    p := { tst.p with stage := 1, reply := some 20 } }

theorem witness_CopyCommandsAreAccepted_posted : ∀ e, (posted e).p.stage ≠ 0 ∧ (posted e).p.reply = some 20 ∧
    passes { rd := [.s 125#7 1], roles := 9#4, path := some 2, copy := true } (posted e) = true ∧
    (∃ c, keyFind ((posted e).core (posted e).g.core).copies 20 = some c ∧ c.kind = 0 ∧ c.team = (posted e).g.team ∧ c.slot = (posted e).g.slot ∧
      c.row = 0 ∧ c.ctx = (posted e).g.ctx ∧ c.lines = [] ∧ ((boxOf c.desc).rows = 0 ↔ e = true)) := by
  intro e; cases e
  · exact ⟨by decide, rfl, by decide, _, rfl, rfl, rfl, rfl, by decide +kernel⟩
  · exact ⟨by decide, rfl, by decide, _, rfl, rfl, rfl, rfl, by decide +kernel⟩

theorem witness_BarrierObjects :
    allPass [{ rd := [.s 125#7 1, .s 12#7 1], roles := 9#4 }, { rd := [.s 125#7 1], wr := [.s 122#7 2] }, { rd := [.s 125#7 1, .s 12#7 1], wr := [.s 0#7 2] }] tst = true ∧
    (tst.ownBounds (tst.readS 125#7).toNat 16 = true ∧ (tst.readS 125#7).toNat % 16 = 0) ∧ tst.ownBounds (tst.readS 8#7).toNat 16 = false ∧
    (tst.ownBounds (tst.readS 10#7).toNat 16 = true ∧ (tst.readS 10#7).toNat % 16 ≠ 0) ∧ tst.g.region.held = [] ∧ tst.p.stage = 0 ∧
    (tstG fun g => { g with region := { held := [{ agent := 0, id := 20, path := some 2 }] } }).g.region.held ≠ [] ∧ tst.p.kept = none ∧
    tst.teamWord 7 8 = tst.readS 125#7 ∧ tst.teamWord 7 12 = 0#32 ∧ tst.teamWord 7 8 ≠ tst.readS 12#7 := by decide

/-- BARWAIT behind its commit, and with the words that it was woken with. -/
theorem witness_BarrierObjects_wait : ∀ k, k = none ∨ k = some (.bar 1#32 0#32) →
    (∃ s, s = (tstP fun p => { p with stage := 1, reply := some (tst.readS 125#7).toNat, kept := k }) ∧ s.p.kept = k ∧ s.p.stage ≠ 0 ∧
      s.p.reply = some (s.readS 125#7).toNat ∧ passes { rd := [.s 125#7 1, .s 12#7 1], wr := [.s 0#7 2] } s = true ∧
      s.teamWord 7 8 ≠ s.readS 12#7 ∧ s.teamWord 7 8 = s.readS 125#7) := by
  rintro k (h | h) <;> subst h <;> exact ⟨_, rfl, by decide⟩

/-- A CP.FILL in flight. -/
def fillCmd : CopyCmd := { number := 0, kind := 6, team := 7, slot := 0, op := 20, ctx := 1, desc := cpDesc 1 2 0 0 0 4, srcWin := 0, dstWin := 0, started := true }
def copying (c : CopyCmd) : State := tstK fun k => { k with copies := [(20, c)] }
/-- A CP.TENSOR of two rows; another engine owns the line that its first row reads. -/
def againCmd : CopyCmd := { fillCmd with kind := 0, desc := cpDesc 2 0 0 0 4 4 + 2 ^ (512 + 128) + 4096 * 2 ^ 64 }

/-- How a row of a command ends: 0 done, 1 again, 2 a fault, 3 stopped; and whether it was the last. -/
def rowEnd (s : State) (c : CopyCmd) : Option (Nat × Bool) :=
  match (s.claimLines 3 20 c).1.copyRow 3 20 (s.claimLines 3 20 c).2 (boxOf c.desc) with
  | .done u k _ => if (keyFind (u.core 3).copies 20).isSome then some (0, k.row + 1 == (boxOf c.desc).rows) else none
  | .again _ _ => some (1, false)
  | .fault _ _ _ _ => some (2, false)
  | .stop _ _ _ _ => some (3, false)

theorem witness_CopyCommandsRun :
    (∀ c, keyFind ((copying c).core 3).copies 20 = some c) ∧ fillCmd.kind ≠ 7 ∧ fillCmd.suspended = false ∧ fillCmd.fault = none ∧
    (∀ id ∈ ({ fillCmd with kind := 7 } : CopyCmd).cancels, keyFind ((copying { fillCmd with kind := 7 }).core 3).copies id = none) ∧
    (∃ id ∈ ({ fillCmd with kind := 7, cancels := [20] } : CopyCmd).cancels, keyFind ((copying { fillCmd with kind := 7, cancels := [20] }).core 3).copies id ≠ none) ∧
    (boxOf againCmd.desc).rows = 2 ∧ rowEnd (copying fillCmd) fillCmd = some (0, true) ∧ rowEnd (copying againCmd) againCmd = some (0, false) ∧
    rowEnd (copying { fillCmd with cancelled := true }) { fillCmd with cancelled := true } = some (3, false) ∧
    rowEnd ({ copying againCmd with dev := { tst.dev with owned := [(2 * 2 ^ 45 + 32, 5, 99)] } }) againCmd = some (1, false) ∧
    rowEnd (copying againCmd) { againCmd with ctx := 2 } = some (2, false) ∧ (copying fillCmd).faultRoom 3 = true ∧
    ((copying fillCmd).modCore 3 fun k => { k with faults := List.replicate 128 { agent := 0, op := 0, words := [] } }).faultRoom 3 = false := by
  and_intros <;> first | exact fun _ => rfl | exact ⟨_, List.mem_singleton_self _, by decide⟩ | decide +kernel

/-- An operand slot and a tile of the issuing group's, or of another group's. -/
def claims (owner : Nat) (rel : Bool) (order : List Nat) : State :=
  tstK fun k => { k with slots := [(15, { owner := owner, team := 7, releasing := rel, order := order })], tiles := [(7, { owner := owner, team := 7, releasing := rel, order := order })] }
/-- The three ways to stand in an order: nothing before, something before, a place of its own, at its turn or behind another. -/
def standsIn (s : State) (names : List Nat) (turn : Option Nat) (free : Bool) : Bool :=
  (s.p.turn == turn) && match turn with
    | none => names.all (fun n => s.orderFree s.g.core n) == free
    | some id => names.all (fun n => s.atTurn s.g.core n id) == free
def atTurn20 (s : State) : State := { s with p := { s.p with turn := some 20, stage := 1 } }
theorem witness_SlotsAndTilesAreClaimed :
    allPass [{ wr := [.s 123#7 1], roles := 10#4 }, { wr := [.s 124#7 1], roles := 10#4 }, { roles := 10#4 }] tst = true ∧ tst.opSlot tst.g.core 15 = none ∧
    tst.tile tst.g.core 7 = none ∧ (∀ n, n < 2 → ∀ r, passes { wr := [.s 123#7 1], roles := 10#4 } (claims n r []) = true ∧
      passes { roles := 10#4 } (claims n r []) = true ∧ (claims n r []).opSlot 3 15 = some { owner := n, team := 7, releasing := r } ∧
      (claims n r []).tile 3 7 = some { owner := n, team := 7, releasing := r }) ∧ tst.g.slot = 0 ∧ tst.g.team = 7 ∧
    (∀ n, n = 15 ∨ n = 16 + 7 → standsIn (claims 0 false []) [n] none true = true ∧ standsIn (claims 0 false [19]) [n] none false = true ∧
      standsIn (atTurn20 (claims 0 false [19, 20])) [n] (some 20) false = true ∧ standsIn (atTurn20 (claims 0 false [20])) [n] (some 20) true = true) ∧
    passes { roles := 10#4 } (atTurn20 (claims 0 true [20])) = true := by
  and_intros <;> first | exact fun n (h : n = 15 ∨ n = 16 + 7) => by rcases h with h | h <;> subst h <;> decide | decide

/-- A record of BFP elements (Table 12.1), one of plain elements, and the slot that holds it. -/
def recorded (r : BitVec 64) : State := tstK fun k => { k with slots := [(15, { owner := 0, team := 7, record := r })] }

theorem witness_SlotAccesses :
    allPass [{ rd := [.s 8#7 2], roles := 10#4 }, { rd := [.s 8#7 1, .v 63#8 1], roles := 10#4 }, { rd := [.s 8#7 1], wr := [.v 63#8 1], roles := 10#4 },
      { wr := [.v 63#8 1], roles := 10#4 }, { rd := [.s 8#7 1, .v 63#8 1], modx := { flag := true }, roles := 10#4 }] (recorded 0) = true ∧
    (recorded 0).ownsSlot 15 = true ∧ standsIn (recorded 0) [15] none true = true ∧ (claims 1 false []).ownsSlot 15 = false ∧
    (claims 1 false []).p.turn = none ∧ standsIn (claims 0 false [19]) [15] none false = true ∧
    standsIn (atTurn20 (claims 0 false [20])) [15] (some 20) true = true ∧ standsIn (atTurn20 (claims 0 false [19, 20])) [15] (some 20) false = true ∧
    (let s := tstK fun k => { k with slots := [(15, { owner := 0, team := 7, zeroing := true })] }; s.ownsSlot 15 = true ∧ s.orderFree 3 15 = false) ∧
    recordOk ((recorded 0).readS64 125#7) = true ∧ recordOk ((recorded 0).readS64 4#7) = true ∧ recordOk 0x40#64 = false ∧
    (tst.readS 8#7).toNat % 128 = 0 ∧ (tst.readS 8#7).toNat < 16384 ∧ (tst.readS 10#7).toNat % 128 ≠ 0 ∧ 16384 ≤ (tst.readS 6#7).toNat ∧
    (tst.readS 6#7).toNat % 128 = 0 ∧ ((List.range 32).any fun f => fmtBfp f && decide (8 * fmtBits f ≤ 16384)) = true ∧
    ((List.range 32).any fun f => !fmtBfp f) = true := by
  and_intros <;> decide

/-- A tile of the issuing group, with an MMA that names it, or an operation in its order. -/
def tiled (t : AccTile) (m : List Mma) (ops : List Async) : State :=
  { tstK fun k => { k with tiles := [(7, t)], mmas := m } with g := { tst.g with ops := ops } }
def aldOp (act : OpAct) : Async := { id := 20, flag := none, path := none, act := some act }

theorem witness_TileAccesses :
    (∀ t, (tiled t [] []).tile 3 7 = some t) ∧ (tiled { owner := 0, team := 7 } [] []).p.turn = none ∧
    allPass [{ roles := 10#4 }, { rd := [.s 8#7 1], roles := 10#4 }, tileUses [.s 8#7 1] [.v 62#8 2], tileUses [] [.v 63#8 1], tileUses [.s 8#7 1, .v 62#8 2] []]
      (tiled { owner := 0, team := 7 } [] []) = true ∧
    (tiled { owner := 0, team := 7 } [] []).ownsTile 7 = true ∧ ((tiled { owner := 0, team := 7 } [] []).core 3).mmas = [] ∧
    standsIn (tiled { owner := 0, team := 7 } [] []) [16 + 7] none true = true ∧ (tiled { owner := 1, team := 7 } [] []).ownsTile 7 = false ∧
    ({ id := 1, seq := 0, pair := 0, tb := false, ovw := false, acc := 7, slb := 0, sla := 0, k := 8, team := 7, members := [] } : Mma).names 7 = true ∧
    (tiled { owner := 0, team := 7, zeroing := true } [] []).ownsTile 7 = true ∧
    (recorded 0).ownsSlot 15 = true ∧ (recorded 0).ownsSlot ((tst.readS 8#7).toNat % 16) = false ∧
    standsIn (claims 0 false []) [16 + 7, 15] none true = true ∧ standsIn (claims 0 false [19]) [16 + 7, 15] none false = true ∧
    standsIn (atTurn20 (claims 0 false [20])) [16 + 7, 15] (some 20) true = true ∧ standsIn (atTurn20 (claims 0 false [19, 20])) [16 + 7, 15] (some 20) false = true ∧
    (∀ act, (tiled { owner := 0, team := 7, order := [20] } [] [aldOp act]).group 3 0 = some (tiled { owner := 0, team := 7, order := [20] } [] [aldOp act]).whole ∧
      (tiled { owner := 0, team := 7, order := [20] } [] [aldOp act]).whole.op 20 = some (aldOp act) ∧
      (tiled { owner := 0, team := 7, order := [20] } [] [aldOp act]).cardingBehind 3 0 20 = false ∧
      (tiled { owner := 0, team := 7, order := [20] } [] [aldOp act]).atTurn 3 23 20 = true) ∧
    (tiled { owner := 0, team := 7, order := [19, 20] } [] []).atTurn 3 23 20 = false := by
  and_intros <;> first | exact fun _ => rfl | exact fun _ => ⟨rfl, rfl, rfl, rfl⟩ | decide

/-- A matrix group whose gang is itself, with its slots and tile; an MMA held at the latch of the team. -/
def gangs (gang : Word) (latch : List Held32) : State :=
  { tst with g := { tst.g with role := 1#2, sys := { tst.g.sys with gang := gang } }
             dev := { tst.dev with teams := [(7, { team7 with latch := latch })] }
             others := [{ core := 3, slot := 1, ctx := 1, team := 7, gid := 1, role := 1#2, splits := [{}] }]
             cores := [(3, { tlb := [page1], slots := [(0, { owner := 0, team := 7 }), (15, { owner := 0, team := 7 })]
                             tiles := [(6, { owner := 0, team := 7 }), (7, { owner := 0, team := 7 })] })] }

theorem witness_MatrixMultiplies :
    (passes { roles := 10#4, path := some 6 } (gangs 1#32 []) = true ∧ passes { roles := 10#4, path := some 6 } (gangs 3#32 []) = true) ∧
    (∀ m l, (gangs m l).g.live = true ∧ (gangs m l).p.live = true ∧ keyFind (gangs m l).dev.teams 7 = some { team7 with latch := l }) ∧
    (∀ g, g < 32 → bitOf 1#32 g = (g == (gangs 1#32 []).g.gid)) ∧
    (∀ n ∈ [15, 0], ∃ x, (gangs 1#32 []).opSlot 3 n = some x ∧ x.team = 7 ∧ x.owner = 0 ∧ x.releasing = false) ∧
    (∀ n ∈ [6, 7], ∃ x, (gangs 1#32 []).tile 3 n = some x ∧ x.team = 7 ∧ x.owner = 0 ∧ x.releasing = false) ∧
    (bitOf 3#32 1 = true ∧ 1 ≠ (gangs 3#32 []).g.gid) ∧
    (∃ h ∈ [({ slot := 1, split := 0, mask := 3#32, word := 0#32 } : Held32)],
      bitOf 3#32 ((gangs 3#32 [h]).latchGid 3 h) = true ∧ (h.mask == 3#32 && h.word == mmaWord 0#5 0#1 0#1 6#3 15#4 0#4 7#3) = false) := by
  and_intros <;> first | decide | exact fun _ _ => ⟨rfl, rfl, rfl⟩

/-- An MMA that waits for its start, or that has started. -/
def arrayMma (started : Bool) : Mma :=
  { id := 20, seq := 0, pair := 0, tb := false, ovw := false, acc := 7, slb := 15, sla := 0, k := 8, team := 7, members := [(0, 21)], started := started }
def withMmas (l : List Mma) : State := (gangs 1#32 []).modCore 3 fun k => { k with mmas := l }

theorem witness_MatrixMultiplies_array :
    ((withMmas [arrayMma false]).core 3).mmas.find? (fun e => e.id == 20 && !e.started) = some (arrayMma false) ∧
    ((withMmas [arrayMma true]).core 3).mmas.find? (fun e => e.id == 20 && e.started) = some (arrayMma true) ∧
    (∀ e ∈ ((withMmas [arrayMma true]).core 3).mmas, 20 ≤ e.id) ∧ (∃ e ∈ ((withMmas [{ arrayMma true with id := 19 }, arrayMma true]).core 3).mmas, e.id < 20) ∧
    ((withMmas [arrayMma false]).modCore 3 fun k => { k with slots := [(0, { owner := 0, team := 7, order := [20] }), (15, { owner := 0, team := 7, order := [20] })], tiles := [(7, { owner := 0, team := 7, order := [20] })] }).mmaReady 3 (arrayMma false) = true ∧
    ((withMmas [arrayMma false]).modCore 3 fun k => { k with slots := [(0, { owner := 0, team := 7, order := [19, 20] }), (15, { owner := 0, team := 7, order := [20] })] }).mmaReady 3 (arrayMma false) = false := by
  refine ⟨by decide, by decide, by decide, ⟨_, List.mem_cons_self .., by decide⟩, by decide, by decide⟩

/-- A reuse descriptor of a rectangle of 4 by 4 pixels from plane 0 to plane 1, without its canonical spatial candidates. -/
def reuseDesc : Nat := 4 * 2 ^ 32 + 4 * 2 ^ 40 + 1 * 2 ^ 52
/-- A BRIMX descriptor of one pixel, reported to box 15 of the other die. -/
def brimDesc0 : Nat := 1 * 2 ^ 32 + 1 * 2 ^ 48 + 1 * 2 ^ 66 + 15 * 2 ^ 96 + 16 * 2 ^ 128
def launched (n d : Nat) : State :=
  { described n d with dev := { (described n d).dev with launches := [(0, { ctx := 1, planes := 2, w := 16, h := 16 })] } }

theorem witness_UnitInstructionsAreHeld :
    ([(0, 8), (1, 8), (2, 2), (3, 7), (4, 7), (5, 3), (6, 6)].all fun e =>
      passes { rd := [.s 14#7 1, .v 0#8 e.2], wr := [.v 56#8 (rayDest e.1)], roles := 8#4, path := some 3 } tst && tst.unitFree 3 (unitOf e.1)) = true ∧
    tst.p.exec ≠ 0#32 ∧ (tstP fun p => { p with exec := 0#32 }).p.exec = 0#32 ∧ (tst.readS 10#7).toNat % 32 ≠ 0 ∧ (tst.readS 8#7).toNat % 32 = 0 ∧
    tst.ownBounds (tst.readS 8#7).toNat 32 = false ∧ (tst.readS 14#7).toNat % 32 = 0 ∧ tst.ownBounds (tst.readS 14#7).toNat 32 = true ∧
    (tstK fun k => { k with rays := (List.range 32).map fun i => (i, { kind := 0, team := 7, slot := 0, op := i, ctx := 1, desc := 0, win := 0, priv := (0, 0), dst := 0, lanes := [], held := false }) }).unitFree 3 0 = false ∧
    passes { rd := [.s 14#7 1], roles := 8#4, path := some 4 } (launched 128 reuseDesc) = true ∧ ((launched 128 reuseDesc).core 3).jobs.length < 16 ∧
    (launched 128 reuseDesc).ownBounds 0 128 = true ∧ (launched 128 reuseDesc).reuseChecks (leNat ((launched 128 reuseDesc).teamBytes 7 0 128)) = true ∧
    tst.reuseChecks 0 = false ∧ passes { rd := [.s 14#7 1], roles := 8#4, path := some 7 } (launched 32 brimDesc0) = true ∧
    (launched 32 brimDesc0).brimChecks 0 (leNat ((launched 32 brimDesc0).teamBytes 7 0 32)) = true ∧ tst.brimChecks 0 0 = false := by decide +kernel

/-! ## Units, reservoirs, fulling, tasks, the module -/

/-- An instruction of the ray unit with one lane, whose result is there or is missing. -/
def rayOp (held : Bool) (job : Option Nat) (lane : RayLane) : RayOp :=
  { kind := 2, team := 7, slot := 0, op := 20, ctx := 1, desc := 0, win := 0, priv := (0, 0), dst := 0, lanes := [(3, lane)], held := held, job := job }
def raying (o : RayOp) : State := tstK fun k => { k with rays := [(20, o)] }
def doneLane : RayLane := { args := [], result := some [0#32, 0#32, 0#32, 0#32] }

theorem witness_UnitsAndJobsRun :
    (∀ o, keyFind ((raying o).core 3).rays 20 = some o ∧ ∀ o, ∃ u l again, (raying o).workLanes 3 20 o o.lanes = (u, l, again)) ∧
    (∀ j, (raying (rayOp false j doneLane)).workLanes 3 20 (rayOp false j doneLane) (rayOp false j doneLane).lanes =
      (raying (rayOp false j doneLane), [(3, doneLane)], false)) ∧ doneLane.result.isSome = true ∧
    (∀ b, keyFind (rayOp false none { args := [], suspended := b }).lanes 3 = some { args := [], suspended := b }) ∧
    (match (raying (rayOp false none { args := [], suspended := true })).workLanes 3 20 (rayOp false none { args := [], suspended := true })
        [(3, { args := [], suspended := true })] with
      | (_, l, again) => l.all (fun e => e.2.result.isNone) && !again) = true := by
  and_intros <;> first | exact fun _ => ⟨rfl, fun _ => ⟨_, _, _, rfl⟩⟩ | exact fun _ => rfl | decide

/-- A job of a 4 by 4 rectangle, its evaluator, and candidates. -/
def reuseJob (started : Bool) (cands : List Cand) (pix : Nat) : ReuseJob :=
  { team := 7, slot := 0, op := 20, ctx := 1, launch := 0, off := 0, desc := reuseDesc, accel := 0, win := 0, accelWin := 0, priv := (0, 0)
    held := false, started := started, cands := cands, pix := pix }
def reusing (j : ReuseJob) : State := { launched 0 0 with cores := [(3, { tlb := [page1], jobs := [(20, j)] })] }
def cand1 : Cand := { pix := 0, i := 1, record := [] }

theorem witness_UnitsAndJobsRun_jobs :
    (∀ j, keyFind ((reusing j).core 3).jobs 20 = some j) ∧
    (match (reusing (reuseJob false [] 0)).allCands 3 20 (reuseJob false [] 0) 0 (reuseJob false [] 0).pixels with
      | .ok u _ => keyFind (u.core 3).jobs 20 == some (reuseJob false [] 0)
      | _ => false) = true ∧
    (reuseJob true [] 0).nextBatch = [] ∧ (reuseJob true [cand1] 0).nextBatch = [0] ∧
    (∀ g ∈ (reusing (reuseJob true [cand1] 0)).groups, g.at 3 evalSlot = false) ∧
    (∃ g ∈ ({ reusing (reuseJob true [cand1] 0) with others := [{ core := 3, slot := evalSlot }] } : State).groups, g.at 3 evalSlot = true) ∧
    (reuseJob true [] 16).pixels.length ≤ 16 ∧ 0 < (reuseJob true [] 0).pixels.length ∧ (reuseJob true [cand1] 0).pixelReady 0 = false ∧
    (reuseJob true [] 0).pixelReady 0 = true ∧
    (reusing (reuseJob true [] 0)).firstOwner 3 20 ((reusing (reuseJob true [] 0)).outLine (reuseJob true [] 0) (dieOf 3) ((reuseJob true [] 0).pixels.getD 0 (0, 0))) = true ∧
    (reusing (reuseJob true [] 16)).group 3 0 = some (reusing (reuseJob true [] 16)).whole := by
  and_intros <;> first
    | exact fun _ => rfl | decide | decide +kernel | exact ⟨_, List.mem_cons_of_mem _ (List.mem_singleton_self _), by decide⟩

/-- A brim exchange of one pixel that no brim holds. -/
def brimOp (held : Bool) : BrimOp := { team := 7, slot := 0, op := 20, ctx := 1, launch := 0, desc := brimDesc0, held := held }
/-- The evaluator of job 20 at its TGTRET. -/
def evaluating (j : ReuseJob) : State :=
  { reusing j with g := { core := 3, slot := evalSlot, ctx := 1, team := 7, nregs := 32, role := 3#2, evaluates := some 20 } }

theorem witness_UnitsAndJobsRun_ends :
    (∀ h, keyFind ((tstK fun k => { k with brims := [(20, brimOp h)] }).core 3).brims 20 = some (brimOp h)) ∧
    (brimOp false).pixels { ctx := 1, planes := 2, w := 16, h := 16 } 0 = [] ∧ (brimDesc brimDesc0).box = true ∧
    passes { rd := [.v 63#8 1, .v 56#8 8], roles := 8#4 } tst = true ∧
    (∀ r ∈ ({ rd := [.v 31#8 1, .v 24#8 8], roles := 8#4 } : Uses).regs, callableReg r = true ∧ hazard (evaluating (reuseJob true [cand1] 0)) r = none) ∧
    precheck { rd := [.v 31#8 1, .v 24#8 8], roles := 8#4 } (evaluating (reuseJob true [cand1] 0)) = none ∧
    mcsetBound { rd := [.v 31#8 1, .v 24#8 8], roles := 8#4 } (evaluating (reuseJob true [cand1] 0)) = none ∧
    notReady { rd := [.v 31#8 1, .v 24#8 8], roles := 8#4 } (evaluating (reuseJob true [cand1] 0)) = none ∧
    keyFind ((evaluating (reuseJob true [cand1] 0)).core 3).jobs 20 = some (reuseJob true [cand1] 0) ∧ rdVis reuseDesc = 0 ∧
    rdVis (reuseDesc + 2 ^ 56) ≠ 0 := by
  and_intros <;> first | exact fun _ => rfl | decide

theorem witness_RsvinitClearsItsRun : passes { wr := [.v 0#8 8] } tst = true ∧ passes { wr := [.v 56#8 8] } tst = true := by decide

theorem witness_ReservoirArithmetic :
    allPass [{ rd := [.v 60#8 4], wr := [.v 0#8 4] }, { rd := [.v 63#8 1], wr := [.v 0#8 1] }, { rd := [.v 57#8 7], wr := [.v 0#8 8] },
      { rd := [.v 54#8 10], wr := [.v 0#8 8] }, { wr := [.v 56#8 8] }] tst = true ∧ (∀ f, enabledLanes tst.p.exec tst.g.sys.fpen f = 0#32) ∧
    (let s := tstG fun g => { g with sys := { g.sys with fpen := 0x1F#5 }, v := (List.range 8).map fun i => (32 * i, 0x7F7FFFFF#32) };
      passes { wr := [.v 0#8 8] } s = true ∧ enabledLanes s.p.exec s.g.sys.fpen (fun l => (rsvNorm (s.runOf 0#8 8 l)).2) ≠ 0#32) :=
  ⟨by decide, fun f => noneEnabled _ f, by decide +kernel⟩

/-- A launch of 16 by 16 pixels; lane 0 at (0, 0) of plane 0, the other lanes outside. -/
def imaged : State := { launched 0 0 with p := { tst.p with exec := 1#32 } }

theorem witness_ReservoirStoreAccesses :
    passes { rd := [.s 14#7 1, .v 0#8 2], wr := [.v 56#8 8] } imaged = true ∧ passes { rd := [.s 14#7 1, .v 0#8 2, .v 56#8 8] } imaged = true ∧
    imaged.pixels (imaged.launchOf 7) 0 0#8 = [(0, 0, 0)] ∧ imaged.pixels (imaged.launchOf 7) 3 0#8 = [] ∧ imaged.dev.rsvWays = 0 ∧
    imaged.ownedLine (rsvLine ((imaged.launchOf 7).recordPa 0 0 0 0)) = false ∧ imaged.dev.poisoned = [] ∧
    ({ imaged with dev := { imaged.dev with owned := [(2 ^ 60, 3, 20)] } } : State).ownedLine (rsvLine ((imaged.launchOf 7).recordPa 0 0 0 0)) = true ∧
    lineOf ((imaged.launchOf 7).recordPa 0 0 0 0) = 0 := by decide

/-- A tag instruction in its second part, with its answer. -/
def replied (s : State) (v : Nat) : State := { s with p := { s.p with stage := 1, reply := some v } }
/-- Tag 65535 of context 1, allocated, at the node of core 3. -/
def tagW : Nat := tagWord 31 3 0 65535
def tagged (t : Tag) : State := tstD fun d => { d with tags := [(tagKey 1 65535, t)], tagGens := [(tagKey 1 65535, 31#5)] }
def asks (k : ReqKind) : State := tstD fun d => { d with requests := [(9, { core := 3, slot := 0, split := 0, kind := k })] }

theorem witness_TagInstructionsAskAndAreAnswered :
    allPass [{ rd := [.s 4#7 1], wr := [.s 123#7 1], roles := 9#4 }, { rd := [.s 4#7 1, .s 10#7 1], wr := [.s 124#7 1], roles := 9#4 },
      { rd := [.s 4#7 1], roles := 9#4 }] tst = true ∧ tst.p.stage = 0 ∧ passes { rd := [.s 0#7 1], priv := true } sup = true ∧
    (∀ v, (replied tst v).p.stage ≠ 0 ∧ (replied tst v).p.reply = some v ∧ (replied sup v).p.stage ≠ 0) ∧
    (∀ k, keyFind (asks k).dev.requests 9 = some { core := 3, slot := 0, split := 0, kind := k }) ∧
    freeRun 1 0 (tst.usedTags 1) = some 0 ∧ freeRun 4095 0 (tst.usedTags 1) = some 0 ∧ freeRun 65536 0 ((tagged { word := tagW, base := 65535, ranks := 0 }).usedTags 1) = none ∧
    tst.portOpen 1 7 = false ∧ (tagged { word := tagW, base := 65535, ranks := 0 }).tagByGen 1 tagW = some { word := tagW, base := 65535, ranks := 0 } ∧
    tagKind tagW ≠ 3 ∧ tagIndex tagW = 65535 := by
  and_intros <;> first | exact fun v => ⟨by simp [replied], rfl, by simp [replied]⟩ | exact fun _ => rfl | decide

/-- A message descriptor at offset 0: one granule to tag 0 of the node of core 0, to the launch 5. -/
theorem witness_TagInstructionsAskAndAreAnswered_fsend :
    passes { rd := [.s 14#7 1, .s 4#7 1], roles := 9#4, path := some 5 } tst = true ∧
    (tst.ownBounds 0 32 = true ∧ tst.ownBounds 128 128 = true ∧ fdOk (leNat (tst.teamBytes 7 0 32)) = true ∧ fdLen (leNat (tst.teamBytes 7 0 32)) = 128) ∧
    fdOk (2 ^ 37) = false ∧ settled tst = true := by decide

/-- Port 2 of the module carries context 1 as context 9 of the peer's. -/
def bound (s : State) : State := { s with dev := { s.dev with bindings := [(0, (1, 2, 9))] } }

/-- An operand of 128 bytes at a place of the node of core 3, its clock from `since` on, for the running team or for one that has none. -/
def operand (place : FPlace) (leg since team : Nat) : FMsg :=
  { ctx := 1, tag := tagW, leg := leg, op := 1, len := 128, data := [(0, 1#8)], launch := 5, team := team, offset := 0, barrier := 1024, mcap := 0, place := place
    node := 3, sender := some (3, 0, 20), since := since }
def withMsgs (l : Keyed FMsg) : State := { tagged { word := tagW, base := 65535, ranks := 0 } with dev := { (tagged { word := tagW, base := 65535, ranks := 0 }).dev with msgs := l } }

theorem witness_OperandsMeetAndAreDelivered :
    (∀ m, keyFind (withMsgs [(9, m)]).dev.msgs 9 = some m ∧ 9 < (withMsgs [(9, m)]).nextId) ∧ nodePort 3 = none ∧ nodePort 416 = some 2 ∧
    (tstD fun d => { d with msgs := [(9, operand .flight 0 0 0)] }).tagAt 1 tagW = none ∧
    (withMsgs []).tagAt 1 tagW = some { word := tagW, base := 65535, ranks := 0 } ∧
    ((withMsgs [(9, operand .flight 0 0 0)]).dropMsg 9).waiting 1 tagW 1 = none ∧ ((withMsgs [(9, operand .flight 0 0 0)]).dropMsg 9).waiting 1 tagW 0 = none ∧
    (withMsgs []).storeUse 3 + 128 + 128 ≤ storeCap 3 ∧ tst.ringRoom 1 128 = false ∧
    ({ withMsgs [] with ctxs := [(1, { fspcap := 0x10#32 })] } : State).ringRoom 1 128 = true ∧
    storeCap 3 < (withMsgs [(8, { operand .store 0 0 0 with tag := 0, len := storeCap 3 })]).storeUse 3 + 128 + 128 ∧
    ((withMsgs [(8, operand .store 1 0 0), (9, operand .flight 0 0 0)]).dropMsg 9).waiting 1 tagW 1 = some (8, operand .store 1 0 0) ∧
    (withMsgs []).agree (operand .flight 0 0 0) (operand .store 1 0 0) = true ∧ (withMsgs []).onward (operand .flight 0 0 0) = none ∧
    (withMsgs []).agree (operand .flight 0 0 0) { operand .store 1 0 0 with op := 2 } = false := by
  and_intros <;> first | exact fun _ => ⟨rfl, (by decide : 9 < 50)⟩ | decide

/-- An operand that goes to another module or comes from it, through a port that maps its context or one that does not; one that waits in a
suspended or a running context, past its time or before it, with others arriving in the same clk or none. -/
theorem witness_OperandsMeetAndAreDelivered_ports :
    tst.portOpen 1 2 = false ∧ (bound tst).portOpen 1 2 = true ∧ (bound tst).homeCtx 2 9 = some 1 ∧ tst.homeCtx 2 9 = none ∧
    (bound tst).dev.bindings.find? (fun b => b.2.2.1 == 2 && b.2.2.2 == 9) = some (0, (1, 2, 9)) ∧
    tst.dev.bindings.find? (fun b => b.2.2.1 == 2 && b.2.2.2 == 9) = none ∧ (operand (.port 2 false) 0 0 0).tree = none ∧
    (tst.ctx 1).suspended = false ∧ (withMsgs []).expired (operand .store 0 0 0) = false ∧
    ({ withMsgs [] with clock := 10000000 } : State).expired (operand .store 0 0 0) = true ∧ (withMsgs []).arrivesNow 3 = false ∧
    ({ withMsgs [(9, operand .flight 0 0 0)] with agenda := [{ id := 1, due := 100, ev := .fullingOperandArrival 9 }] } : State).arrivesNow 3 = true ∧
    (withMsgs []).destOf (operand .delivery 0 0 0) = .runs 7 ∧ (withMsgs []).destOf (operand .delivery 0 0 1) = .gone ∧
    ({ withMsgs [] with dev := { (withMsgs []).dev with grids := [(5, { task := { id := 1, card := { team7.card with teams := 4 }, ctx := 1 } })] } } : State).destOf
      (operand .held 0 0 1) = .waits ∧
    (withMsgs []).deliverable 7 0 128 = true := by
  and_intros <;> decide

theorem witness_OperandsMeetAndAreDelivered_rings :
    (∀ e ∈ (withMsgs []).dev.msgs, ¬ (e.2.node = 3 ∧ e.2.spilled = true)) ∧
    (∃ e ∈ (withMsgs [(9, operand .ring 0 90 0)]).dev.msgs, e.2.node = 3 ∧ e.2.spilled = true) ∧
    (∀ e ∈ (withMsgs [(9, operand .ring 0 90 0)]).dev.msgs, (withMsgs [(9, operand .ring 0 90 0)]).expired e.2 = false) ∧
    (let s : State := { withMsgs [(9, operand .ring 0 90 0)] with clock := 10000000 };
      s.dev.msgs.filter (fun e => e.2.node == (operand .ring 0 90 0).node && e.2.spilled && s.expired e.2) = [(9, operand .ring 0 90 0)] ∧ s.arrivesNow 3 = false) ∧
    (withMsgs [(9, operand .ring 0 90 0)]).storeUse 3 < storeCap 3 / 2 ∧ (9, operand .ring 0 90 0) ∈ (withMsgs [(9, operand .ring 0 90 0)]).dev.msgs ∧
    ((withMsgs [(9, operand .ring 0 90 0)]).ctx (operand .ring 0 90 0).ctx).suspended = false ∧
    (∀ e ∈ (withMsgs [(9, operand .ring 0 90 0)]).dev.msgs, e = (9, operand .ring 0 90 0)) ∧
    storeCap 3 / 2 ≤ (withMsgs [(8, { operand .store 0 0 0 with len := storeCap 3 / 2 })]).storeUse 3 := by
  and_intros <;> decide

/-- The card of one team of one group of 8 registers, and the state that holds it at 4096. -/
def cardBits : Nat := 2 ^ 128 + 2 ^ 132 + 2 ^ 136 + 3 * 2 ^ 168 + 2 ^ 448
def carded (c : Nat) : State := { tst with mem := putBytes tst.mem (2 * 2 ^ 52 + 4096) (leBytes 64 c) }

theorem witness_CardsArePostedAndDecremented :
    passes { rd := [.s 10#7 1, .s 8#7 2, .s 125#7 2], path := some 7 } tst = true ∧ 7 < (tst.readS 4#7).toNat ∧ (tst.readS 10#7).toNat ≤ 7 ∧
    ((tst.win 0).toNat * 2 ^ 64 + (tst.readS64 8#7).toNat) % 64 = 0 ∧ (tst.readS64 10#7).toNat % 64 ≠ 0 ∧ tst.lookup (2 ^ 28) accR = .miss ∧
    tst.p.kept = none ∧ tst.p.reply = none ∧
    (∀ c, (carded c).lookup 4096 accR = .hit (2 * 2 ^ 52 + 4096) page1 ∧ (carded c).lookup 4096 accW = .hit (2 * 2 ^ 52 + 4096) page1) ∧
    settled (carded cardBits) = true ∧ (carded cardBits).ownedLine (lineOf (2 * 2 ^ 52 + 4096)) = false ∧
    ({ carded cardBits with dev := { tst.dev with owned := [(2 ^ 46 + 32, 3, 20)] } } : State).ownedLine (lineOf (2 * 2 ^ 52 + 4096)) = true ∧
    depOf (carded cardBits).mem (2 * 2 ^ 52 + 4096) = 0 ∧ depOf (carded (cardBits + 65535 * 2 ^ 176)).mem (2 * 2 ^ 52 + 4096) ≠ 0 ∧
    ((carded cardBits).takeCard ((carded cardBits).postTask (2 * 2 ^ 52 + 4096) 4096 2 none 50)).2 = none ∧
    (tst.takeCard (tst.postTask (2 * 2 ^ 52 + 4096) 4096 2 none 50)).2.isSome = true ∧ passes { rd := [.s 8#7 2] } tst = true ∧
    overfull 64 tst.g.region.writeLines [lineOf (2 * 2 ^ 52 + 4096)] = false := by
  and_intros <;> first | exact fun _ => ⟨rfl, rfl⟩ | decide +kernel

/-- A POST whose commit has been made, and that has raised P7: it has its place, its operation and the line that it read. -/
theorem witness_CardsArePostedAndDecremented_kept :
    (let s : State := { carded cardBits with p := { tst.p with stage := 1, kept := some (.card (2 * 2 ^ 52 + 4096) 4096 page1), reply := some 20 } };
      passes { rd := [.s 10#7 1, .s 8#7 2, .s 125#7 2], path := some 7 } s = true ∧ settled s = true ∧ s.p.kept = some (.card (2 * 2 ^ 52 + 4096) 4096 page1) ∧
        s.p.stale = false ∧ s.p.reply ≠ none ∧ s.ownedLine (lineOf (2 * 2 ^ 52 + 4096)) = false) := by decide +kernel

/-- A posted card of the test group's, and one that waits for its count. -/
def postedTask (id : Nat) : Task := { id := id, card := cardOf cardBits, ctx := 1, target := 6, core := 3, scopeMask := 2 ^ 320 - 1, poster := some (3, 0, 20), grid := 5 }
def posts (p w : List Task) (q : Keyed (List Task)) : State := tstD fun d => { d with posted := p, pendingCards := w, queues := q }

theorem witness_CardsArePostedAndDecremented_queues :
    (posts [postedTask 9] [] []).dev.posted.find? (fun t => t.id == 9) = some (postedTask 9) ∧
    (((posts [postedTask 9] [] []).taskQueue (queueKey 3 6)).length < queueCap (queueKey 3 6)) ∧
    queueCap (queueKey 3 6) ≤ ((posts [postedTask 9] [] [(640, List.replicate 512 (postedTask 1))]).taskQueue (queueKey 3 6)).length ∧
    ((posts [] [postedTask 9] []).dev.pendingCards.find? (fun t => t.id == 9) = some (postedTask 9) ∧
      ((posts [] [postedTask 9] []).dev.pendingCards.takeWhile fun t => t.id != 9).length < pendingSize) ∧
    pendingSize ≤ ((List.replicate 1024 (postedTask 1) ++ [postedTask 9]).takeWhile fun t => t.id != 9).length ∧ (tst.ctx 1).failed = false := by
  decide +kernel

/-- A launch block of the card for context 1 (Table 15.5). -/
def blockBits : Nat := cardBits + 2 ^ 1536

theorem witness_TeamsStartAndEnd :
    (tst.heads 0).findSome? (fun e => (tst.findPlace e.2 (topsOf 0 e.1)).map fun p => (e, p)) = none ∧
    (match ((posts [] [] [(640, [postedTask 9])]).heads 0).findSome? (fun e => ((posts [] [] [(640, [postedTask 9])]).findPlace e.2 (topsOf 0 e.1)).map fun p => (e, p)) with
      | some ((key, k), top, [some f]) => key == 640 && k.card.w == 1 && k.card.h == 1 && k.again.isEmpty && k.saved.isEmpty && k.grid == 5 && top == 0 && f.slots == [(0, 0)]
      | _ => false) = true ∧
    ((keyFind tst.dev.grids 5).map fun g => g.credits.isEmpty && decide (g.ticket < (cardOf cardBits).teams)) = some true ∧
    (∀ e, (tstT fun t => { t with ending := e }).dev.teams = [(7, { team7 with ending := e })]) ∧
    (tstT fun t => { t with ending := true }).engineBusy 7 = false ∧ (tstT fun t => { t with ending := true }).slotsHeld 7 = false ∧
    (claims 0 true [19]).slotsHeld 7 = true ∧ team7.maps = [] ∧
    ((raying (rayOp false none doneLane)).engineBusy 7 = true ∧ ∀ e ∈ (raying (rayOp false none doneLane)).cores, e.2.copies = []) ∧
    ((keyFind tst.dev.clusters 6).map Cluster.aborted).getD false = false := by
  and_intros <;> first | exact fun _ => rfl | decide

/-- A walk's path of three table entries to an entry `e` of level 2, in the walk caches; a split that waits for page 0. -/
def walking (e : Nat) : State :=
  { tstD fun d => { d with walkCache := [(0, BitVec.ofNat 128 (2 ^ 53 + 1)), (2 ^ 53, BitVec.ofNat 128 (2 ^ 53 + 2 ^ 16 + 1)),
                                         (2 ^ 53 + 2 ^ 16, BitVec.ofNat 128 (2 ^ 53 + 2 ^ 17 + 1)), (2 ^ 53 + 2 ^ 17, BitVec.ofNat 128 e)] } with
    p := { tst.p with wait := .walk 0 accR } }

/-- A refused grid whose completion record goes to 4096; engines own the lines given. -/
def refusedGrid (owned : List (Nat × Nat × Nat)) : State :=
  { walking (2 ^ 53 + 0x3F) with dev := { (walking (2 ^ 53 + 0x3F)).dev with
      teams := [], owned := owned
      grids := [(5, { task := { id := 1, card := { team7.card with completion := 4096 }, ctx := 1, launched := true }, refused := some 72 })] } }

theorem witness_TeamsStartAndEnd_grids :
    (keyFind (refusedGrid []).dev.grids 5).map (fun g => g.refused == some 72 && g.task.launched && g.task.card.successor == 0) = some true ∧
    (∀ e ∈ (refusedGrid []).dev.teams, e.2.grid ≠ 5) ∧
    (match (refusedGrid []).reach 1 0 4096 with | (u, .pa pa) => pa == 2 ^ 53 + 4096 && (keyFind u.dev.launches 0).isNone | _ => false) = true ∧
    (match (refusedGrid [(2 ^ 46 + 32, 3, 20)]).reach 1 0 4096 with | (_, .again) => true | _ => false) = true ∧
    (∃ e ∈ tst.dev.teams, e.2.grid = 5) ∧ (keyFind tst.dev.grids 5).map (fun g => g.refused.isSome || g.failed || decide (g.task.card.teams ≤ g.ended.length)) = some false ∧
    firstFail (cardChecks (blockBits % 2 ^ 512) (scopeFits (tst.scopeMask 1 0 0 3).toNat 1 1) true ++ blockChecks blockBits) = none ∧
    firstFail (cardChecks (cardBits % 2 ^ 512) (scopeFits (tst.scopeMask 1 0 0 3).toNat 1 1) true ++ blockChecks cardBits) = some 192 ∧
    leNat ((leBytes 256 blockBits).take 256) = blockBits ∧ (cardOf cardBits).scope = 3 ∧ (tst.taskQueue deviceQueue).length < queueCap deviceQueue := by
  and_intros <;> first | exact ⟨_, List.mem_singleton_self _, rfl⟩ | decide +kernel

theorem witness_RingsMailboxesAndBarriers :
    allPass [{ rd := [.s 125#7 1], path := some 7 }, { rd := [.s 125#7 1, .s 12#7 1] }, { rd := [.s 10#7 1, .s 8#7 1], path := some 7 }, { rd := [.s 8#7 1] }, {}] tst = true ∧
    ((tst.readS 125#7).toNat % 16 < tst.myTeam.card.rings ∧ (tst.readS 125#7).toNat / 16 % 8 < tst.myTeam.card.stages) ∧
    ¬ (tst.readS 12#7).toNat % 16 < tst.myTeam.card.rings ∧ tst.g.region.held = [] ∧ tst.p.stage = 0 ∧
    (storeRead (tst.core 3).phases 0).toNat = (tst.readS 125#7).toNat % 2 ∧ (storeRead (tst.core 3).phases 0).toNat ≠ (tst.readS 12#7).toNat % 2 ∧
    settled tst = true ∧ settled unsettled = false ∧ allPass [{ rd := [.s 8#7 1] }, { rd := [.s 8#7 1, .s 10#7 1], path := some 7 }, {}] unsettled = true ∧
    tst.commandsIn (tst.myScope 3#5) = [] ∧
    (tstG fun g => { g with ops := [{ id := 20, flag := none, path := some 2, command := some 3 }] }).commandsIn (tst.myScope 0#5) ≠ [] ∧
    passes { rd := [.s 8#7 1, .s 10#7 1] } (tstP fun p => { p with stage := 2 }) = true ∧ settled (tstP fun p => { p with stage := 2 }) = true ∧
    (tst.readS 125#7).toNat = 0 ∧ tst.scopeLive tst.myTeam.grid (dieOf 3) (tst.myScope 0#5) = [(3, 0)] := by
  and_intros <;> decide +kernel

/-- A signal store whose sender's operation is in flight. -/
theorem witness_RingsMailboxesAndBarriers_signals :
    (flying { id := 0, flag := none, path := some 7 }).groups.find? (fun g => g.core == 3 && (g.op 20).isSome) =
      some (flying { id := 0, flag := none, path := some 7 }).whole ∧
    (flying { id := 0, flag := none, path := some 7 }).group 3 0 = some (flying { id := 0, flag := none, path := some 7 }).whole := by decide

/-- The group at barrier 15 of its team, which expects `n` groups. -/
def atBarrier (n : Nat) (auto : Bool) : State :=
  { tstT fun t => { t with bars := [(15, { expected := n, auto := auto, arrived := [] })] } with p := { tst.p with wait := .barTeam 15 } }

theorem witness_RingsMailboxesAndBarriers_release :
    ∀ n a, (atBarrier n a).group 3 0 = some (atBarrier n a).whole ∧ (atBarrier n a).whole.isThread = true ∧
      (atBarrier n a).whole.movers = [{ tst.p with wait := .barTeam 15 }] ∧
      keyFind (atBarrier n a).dev.teams 7 = some { team7 with bars := [(15, { expected := n, auto := a, arrived := [] })] } ∧
      keySorted ({ team7 with bars := [(15, { expected := n, auto := a, arrived := [] })] } : Team).bars = true :=
  fun _ _ => ⟨rfl, rfl, rfl, rfl, rfl⟩

theorem witness_ModuleEvents :
    (let s := tstD fun d => { d with tlb2 := [(0, [page1])] }; s.level2 3 1 0 = some page1 ∧ s.tlbFault page1 accR = none ∧
      s.tlbFault { page1 with w := false } accW = some { cause := cPAGEFAULT, kind := 2, level := 1 }) ∧
    ((walking 0).level2 3 1 0 = none ∧ (walking 0).group 3 0 = some (walking 0).whole ∧ (walking 0).whole.splits = [(walking 0).p]) ∧
    (match (walking (2 ^ 53 + 0x3F)).walkFor 1 0 accR with | (_, .leaf _ _ _) => true | _ => false) = true ∧
    (match (walking 0).walkFor 1 0 accR with | (_, .fault _) => true | _ => false) = true ∧
    (match (walking 0x101).walkFor 1 0 accR with | (u, .migrating _) => u.dev.retries.isEmpty | _ => false) = true ∧
    (let s := walking (2 ^ 53 + 0x1F);
      match ({ s with dev := { s.dev with owned := (List.range 2048).map fun i => (2 ^ 46 + i, 3, 20) } } : State).walkFor 1 0 accR with
      | (_, .waits) => true | _ => false) = true ∧
    slicedLine (2 * 2 ^ 45) = true ∧ slicedLine 0 = false ∧ 0 < tst.freeWays (2 * 2 ^ 45) ∧
    (tstD fun d => { d with rsvWays := 16 }).freeWays (2 * 2 ^ 45) = 0 ∧ isMmio (2 * 2 ^ 52) = false ∧ isMmio (2 ^ 52) = true ∧
    (let s := tstD fun d => { d with inbox := [(9, [1#8, 2#8])], poisoned := [1], owned := [(2, 3, 20)], reservations := [(3, 3, 0, 200)] };
      keyFind s.dev.inbox 9 = some [1#8, 2#8] ∧ s.ownedLine 2 = true ∧ s.ownedLine 3 = false) := by
  and_intros <;> decide +kernel

/-- A load of a lane's that crosses port 1, and one that has returned; groups that neither store to that port nor evaluate. -/
def loads (peer returned : Bool) : Async :=
  { id := 0, flag := none, path := some 0, returned := if returned then some 90 else none
    origin := some { issue := tst.cur, split := tst.p, places := [{ lane := 0, va := 4096, place := .pa (4 * 2 ^ 45) { page1 with peer := peer } }] } }

theorem witness_ModuleEvents_loads :
    (∀ b r, (flying (loads b r)).group 3 0 = some (flying (loads b r)).whole ∧ (flying (loads b r)).whole.isThread = true ∧
      (flying (loads b r)).whole.trapped = false ∧ (flying (loads b r)).dev.msgs = []) ∧
    (∀ b r, ∀ g ∈ (flying (loads b r)).groups, g.region.storesTo 1 = false ∧ g.evaluates = none) ∧ tst.p.live = true ∧
    (∃ port, (loads true false).origin.any (fun f => f.places.any (LaneAt.ofPeer port)) = true ∧ (loads false false).origin.any (fun f => f.places.any (LaneAt.ofPeer port)) = false) ∧
    (loads false false).origin.any (fun f => f.places.any (LaneAt.inLine (2 ^ 40))) = true ∧ (loads false true).returned.isSome = true ∧ slicedLine (2 ^ 47) = true ∧ tst.group 3 63 = none := by
  and_intros <;> first | exact fun _ _ => ⟨rfl, rfl, rfl, rfl⟩ | decide | exact ⟨2, by decide⟩

/-- Scrubbing in device mode, outside and within its windows. -/
theorem witness_ModuleEvents_scrub : tst.scrubs = true ∧ (tstD fun d => { d with hmode := 0x200#10 }).scrubs = false ∧
    (tstD fun d => { d with hmode := 0x200#10, scrubWindows := [(90, 200)] }).scrubs = true ∧ (1 : Nat) ∉ tst.dev.poisoned ∧ (1 : Nat) ∉ tst.dev.pins ∧
    (tstD fun d => { d with pins := [1] }).dev.pins = [1] := by decide

/-- The boot's constants are opaque: either every stage is accepted, or there is a first that is not. -/
theorem witness_ModuleEvents_boot : (∀ n ∈ [1, 2, 3, 4], bootAccepts n = true) ∨
    ∃ n ∈ [1, 2, 3, 4], (∀ m, 1 ≤ m → m < n → bootAccepts m = true) ∧ bootAccepts n = false := by
  rcases h1 : bootAccepts 1 with _ | _
  · exact .inr ⟨1, by simp, by omega, h1⟩
  rcases h2 : bootAccepts 2 with _ | _
  · exact .inr ⟨2, by simp, fun m h g => by obtain rfl : m = 1 := by omega
                                            exact h1, h2⟩
  rcases h3 : bootAccepts 3 with _ | _
  · exact .inr ⟨3, by simp, fun m h g => by rcases (by omega : m = 1 ∨ m = 2) with h | h <;> rw [h] <;> assumption, h3⟩
  rcases h4 : bootAccepts 4 with _ | _
  · exact .inr ⟨4, by simp, fun m h g => by rcases (by omega : m = 1 ∨ m = 2 ∨ m = 3) with h | h | h <;> rw [h] <;> assumption, h4⟩
  · exact .inl (by simp [h1, h2, h3, h4])

/-! ## Witnesses of further clauses -/

/-- A group with an operation on P1 that belongs to its region, the region's store buffer empty or not. -/
def ownStore (stores : Bool) : State :=
  tstG fun g => { g with ops := [{ id := 20, flag := none, path := some 1, inRegion := true }], region := if stores then unsettled.g.region else {} }
theorem witness_WaitsAndYields_commits : (∀ b, passes { rd := [.s 12#7 1] } (ownStore b) = true ∧ (ownStore b).p.stage = 0 ∧
      (∃ o ∈ (ownStore b).g.ops, o.path = some 1 ∧ o.inRegion = true) ∧ settled (ownStore b) = !b) ∧
    255 ≤ (tst.readS 6#7).toNat ∧ tst.commandsIn (tst.myScope 0#5) = [] := by
  refine ⟨fun b => ⟨?_, ?_, ⟨_, List.mem_singleton_self _, rfl, rfl⟩, ?_⟩, ?_, ?_⟩ <;> first | decide | (cases b <;> decide)

/-- The transaction of the test split, whose lane 0 has read line 7; that line is poisoned or not. -/
def txRead (poison : Bool) : State :=
  { inTx true with g := { (inTx true).g with tx := some { num := 4, lanes := 0x3#32, perLane := [(0, { reads := [(7, { mask := 1, bytes := [] })] })] } }
                   dev := { tst.dev with poisoned := if poison then [7] else [] } }
theorem witness_Transactions_poison : (∀ b x, (txRead b).g.tx = some x → (txRead b).p.tx = some x.num ∧ (txRead b).poisonedTx x = b ∧
      ∀ k ∈ x.perLane, ∃ e ∈ k.2.reads, e.1 = 7) ∧ (txRead true).dev.poisoned = [7] ∧ (∀ b, (txRead b).p.stage = 0 ∧ passes { wr := [.s 124#7 1] } (txRead b) = true) := by
  refine ⟨fun b x h => ?_, rfl, by decide⟩
  obtain rfl : _ = x := Option.some.inj h
  refine ⟨rfl, by cases b <;> decide, fun k hk => ?_⟩
  obtain rfl := List.mem_singleton.mp hk
  exact ⟨_, List.mem_singleton_self _, rfl⟩

theorem witness_SystemRegisters_teams : (tst.clusterOf tst.g.team).isSome = true ∧ sup.clusterOf sup.g.team = none ∧ passes { wr := [.s 123#7 1] } sup = true ∧
    tst.g.sys.scsel.toNat < 4 ∧ 4 ≤ (tstG fun g => { g with sys := { g.sys with scsel := 31#5 } }).g.sys.scsel.toNat ∧
    passes { rd := [.s 0#7 1] } (tstG fun g => { g with sys := { g.sys with scsel := 31#5 } }) = true := by decide

theorem witness_Traps_owed : (∀ a, ((trappedBy false a).core 0).owed = []) ∧ (∀ h, ((parkedSup h).core 0).owed = []) ∧ (∀ n, ((watched n).core 3).owed = []) ∧
    ∀ b, ∀ g ∈ (asksStop b).clusterGroups 7, ∀ q ∈ g.splits, q.pushing = [] := by
  refine ⟨fun _ => rfl, fun _ => rfl, fun _ => rfl, by decide⟩

/-- An operation with an entry for queue 0, its result there. -/
def queued0 : Async := { id := 20, flag := none, path := none, returned := some 90, writes := { q := [(0, [])] } }
theorem witness_CompletionsLand_queues : ((flying queued0).group 3 0).bind (fun g => g.op 20) = some queued0 ∧
    ((full0 (flying queued0)).group 3 0).bind (fun g => g.op 20) = some queued0 ∧
    queueDepth ≤ (((full0 (flying queued0)).core 3).queue 0).length ∧ (((flying queued0).core 3).queue 0).length < queueDepth ∧
    queued0.writes.q = [(0, [])] := by decide

theorem witness_CommitsPublishOrFail_poison : (commits 0#8).whole.live = true ∧ (commits 0#8).whole.evaluates = none ∧
    (∃ q ∈ (commits 0#8).whole.splits, q.idx = 0 ∧ q.live = true) ∧ (∀ q ∈ (commits 0#8).whole.splits, q.stale = false) ∧ (commits 0#8).dev.poisoned = [] ∧
    (let s : State := { commits 0#8 with dev := { tst.dev with poisoned := [32] } };
      s.commitWaits s.whole = false ∧ ∃ e ∈ s.whole.region.stores, e.1 ∈ s.dev.poisoned) ∧ adds.origin = none := by
  and_intros <;> decide

theorem witness_CardingInstructions_fresh : tst.p.carded = {} ∧ drains.p.carded = {} ∧ tabled.p.carded = {} := by decide

/-- A plain row: CP.FILL and CP.TENSOR within the scratchpad, CP.FILL into slot 15. -/
def plainCmd (kind kinds target : Nat) : CopyCmd := { fillCmd with kind := kind, desc := cpDesc 1 kinds target 0 (if kind = 6 then 0 else 4) 4 }
def plainIn (c : CopyCmd) : State := (copying c).modCore 3 fun k => { k with slots := [(15, { owner := 0, team := 7 })] }
theorem witness_CopyCommandsRun_rows :
    (∀ c, c = plainCmd 6 2 0 ∨ c = plainCmd 0 1 0 →
      let s := plainIn c; let b := boxOf c.desc
      (c.kind = 0 ∧ b.sk = 1 ∨ c.kind = 6 ∧ b.sk = 2) ∧ b.dk = 0 ∧ keyFind s.dev.teams c.team = some team7 ∧ (s.core 3).copyLog = [] ∧
        b.elems c.kind c.row 0 = [(0, 512)] ∧ s.peerOf c.team 0 = some c.team ∧ s.deliverable c.team 512 b.z = true ∧ b.z ≤ team7.spsize) ∧
    (let c := plainCmd 6 6 15; let s := plainIn c; let b := boxOf c.desc
      b.sk = 2 ∧ b.dk = 1 ∧ b.bfp = false ∧ b.elems c.kind c.row 0 = [(0, 512)] ∧ descTarget c.desc = 15 ∧
        (match s.slotTurn 3 15 c with | .now u _ => (keyFind (u.core 3).slots 15).isSome && (u.core 3).copyLog.isEmpty | _ => false) = true) := by
  refine ⟨fun c h => ?_, by decide +kernel⟩
  rcases h with h | h <;> subst h <;> decide +kernel

/-- A slot and a tile of the issuing group's, claimed by number `c`, with operation 20 in their order. -/
def claimed (c : Nat) : State :=
  tstK fun k => { k with slots := [(15, { owner := 0, team := 7, claim := c, order := [20] })], tiles := [(7, { owner := 0, team := 7, claim := c, order := [20] })] }
theorem witness_SlotsAndTiles_lost : (∀ n, (claims 0 false []).claimLost n = false) ∧ (atTurn20 tst).claimLost 20 = false ∧ (atTurn20 tst).claimLost 21 = true ∧
    (∀ c, c = 20 ∨ c = 21 → let s := atTurn20 (claimed c);
      s.opSlot 3 15 = some { owner := 0, team := 7, claim := c, order := [20] } ∧ s.tile 3 7 = some { owner := 0, team := 7, claim := c, order := [20] } ∧
        s.atTurn 3 15 20 = true ∧ s.p.turn.isSome = true) ∧ (atTurn20 tst).toPop [63#8] = [] ∧ (atTurn20 tst).p.turn ≠ none := by
  refine ⟨fun _ => rfl, by decide, by decide, fun c h => ?_, by decide, by decide⟩
  rcases h with h | h <;> subst h <;> decide

/-- A QBFP of row 1, half 1 into slot 15, claimed by number `c`, at its turn or behind another. -/
def quantising (c : Nat) (order : List Nat) : State :=
  { tstK fun k => { k with slots := [(15, { owner := 0, team := 7, claim := c, order := order, record := 0x0020002000100008#64 })] } with
    g := { tst.g with ops := [{ id := 20, flag := some 0, path := none, act := some (.qbfp 15 5 1 1 0 []) }] } }
theorem witness_SlotAccesses_quantising :
    (∀ c o, (quantising c o).group 3 0 = some (quantising c o).whole ∧ (quantising c o).cardingBehind 3 0 20 = false ∧
      (quantising c o).whole.op 20 = some { id := 20, flag := some 0, path := none, act := some (.qbfp 15 5 1 1 0 []) } ∧
      ∃ k, (quantising c o).opSlot 3 15 = some k ∧ k.releasing = false ∧ k.claim = c) ∧
    ((quantising 0 [20]).atTurn 3 15 20 = true ∧ (quantising 21 []).atTurn 3 15 20 = true ∧ (quantising 0 [19, 20]).atTurn 3 15 20 = false) ∧
    (let r : BitVec 64 := 0x0020002000100008#64;
      (recBMO r + 8 + 8 ≤ recEXO r + 16 ∨ recEXO r + 16 + 16 ≤ recBMO r + 8) ∧
        (recBMO r + 8 + 8 ≤ recDO r + 60 ∨ recDO r + 60 + 20 ≤ recBMO r + 8) ∧ (recEXO r + 16 + 16 ≤ recDO r + 60 ∨ recDO r + 60 + 20 ≤ recEXO r + 16)) := by
  refine ⟨fun _ _ => ⟨rfl, rfl, rfl, _, rfl, rfl, rfl⟩, by decide, by decide⟩

/-- A gang of two whose other member has arrived with the same MMA. -/
def gangLatch : Held32 := { slot := 1, split := 0, mask := 3#32, word := mmaWord 0#5 0#1 0#1 6#3 15#4 0#4 7#3 }
theorem witness_MatrixMultiplies_gang :
    passes { roles := 10#4, path := some 6 } (gangs 3#32 [gangLatch]) = true ∧
    (∀ h ∈ [gangLatch], h.slot ≠ (gangs 3#32 [gangLatch]).g.slot ∧ (h.mask == 3#32 && h.word == mmaWord 0#5 0#1 0#1 6#3 15#4 0#4 7#3) = true) ∧
    (∀ g, g < 32 → bitOf 3#32 g = true → g = (gangs 3#32 [gangLatch]).g.gid ∨ (gangs 3#32 [gangLatch]).latchGid 3 gangLatch = g) ∧
    (∃ q, (gangs 3#32 [gangLatch]).group 3 0 = some q ∧ q.team = 7 ∧ bitOf 3#32 q.gid = true) ∧
    (∃ q, (gangs 3#32 [gangLatch]).group 3 1 = some q ∧ ∃ x ∈ q.splits, x.idx = gangLatch.split) ∧ pairTwo 0 = true ∧
    ([gangLatch].filter fun j => j.slot == gangLatch.slot) = [gangLatch] ∧ ((arrayMma true).members.map Prod.fst).Nodup := by
  refine ⟨by decide, by decide, by decide, ⟨_, rfl, rfl, by decide⟩, ⟨_, rfl, _, List.mem_singleton_self _, rfl⟩, by decide, by decide, by decide⟩

/-- Rays of no direction, a hit id of no hit, and descriptors whose address is not aligned. -/
theorem witness_UnitsAndJobsRun_known :
    KnownRun 0 0 (List.replicate 8 0#32) [0#32, 0xFFFFFFFF#32, 0#32, 0#32, 0#32, 0#32, 0#32, 0#32] ∧
    KnownRun 1 1 (List.replicate 8 0#32) [0#32, 0xFFFFFFFF#32, 0#32, 0#32, 10#32, 0#32, 0#32, 0#32] ∧ KnownRun 2 0 [0xFFFFFFFF#32, 0#32] (List.replicate 4 0#32) ∧
    KnownRun 3 1 [] [0xFFFFFFFE#32, 0#32] ∧ KnownRun 4 1 [] [0#32] ∧ KnownRun 5 1 [] (List.replicate 4 0x7FC00000#32) ∧
    (let o : RayOp := { rayOp false none { args := [0xFFFFFFFF#32, 0#32] } with kind := 2 };
      ∀ e ∈ o.lanes, e.2.result = none ∧ e.2.suspended = false ∧ e.2.killed = false ∧ KnownRun o.kind o.desc e.2.args (List.replicate 4 0#32)) := by
  refine ⟨.inr (.inl ⟨by decide, by decide, .inr (.inr (.inl (by decide))), rfl⟩), .inl ⟨by decide, by decide, rfl⟩,
    .inr (.inr (.inl ⟨rfl, .inr rfl, rfl⟩)), .inr (.inr (.inr (.inl ⟨rfl, by decide, rfl⟩))), .inr (.inr (.inr (.inr (.inl ⟨rfl, .inl (by decide), rfl⟩)))),
    .inr (.inr (.inr (.inr (.inr ⟨.inl rfl, by decide, rfl⟩)))), fun e he => ?_⟩
  obtain rfl := List.mem_singleton.mp he
  exact ⟨rfl, rfl, rfl, .inr (.inr (.inl ⟨rfl, .inr rfl, rfl⟩))⟩

theorem witness_UnitsAndJobsRun_results :
    ((reusing (reuseJob true [{ cand1 with dropped := true }] 0)).ctx 1).failed = false ∧ (∀ c ∈ [{ cand1 with dropped := true }], c.pix = 0 → c.dropped = true) ∧
    (let s := reusing (reuseJob true [] 16);
      rdBarrier reuseDesc + 16 ≤ 124 ∧ s.deliverable 7 124 4 = true ∧ s.deliverable 7 (rdBarrier reuseDesc) 16 = true ∧
        (s.modTeam 7 fun t => { t with spsize := 0 }).deliverable 7 124 4 = false ∧ (s.modTeam 7 fun t => { t with spsize := 0 }).deliverable 7 (rdBarrier reuseDesc) 16 = false) := by
  and_intros <;> decide +kernel

/-- A brim exchange of pixel (40, 0) of an image of two tiles, one on each die, whose planes lie apart. -/
def brimLaunch : Launch := { ctx := 1, planes := 1, w := 128, h := 64, map := 2, bases := [2 ^ 40, 2 ^ 41], brims := [2 ^ 42, 2 ^ 43] }
def brimCopy : State :=
  { tstK fun k => { k with brims := [(20, { brimOp false with desc := 40 + 1 * 2 ^ 32 + 1 * 2 ^ 48 })] } with dev := { tst.dev with launches := [(0, brimLaunch)] } }
theorem witness_UnitsAndJobsRun_brims : ({ brimOp false with desc := 40 + 1 * 2 ^ 32 + 1 * 2 ^ 48 } : BrimOp).pixels brimLaunch (dieOf 3) = [(40, 0)] ∧
    brimCopy.firstOwner 3 20 (rsvLine (brimLaunch.recordPa 0 0 40 0)) = true ∧ brimCopy.firstOwner 3 20 (rsvLine (brimLaunch.recordPa 1 0 40 0)) = true ∧
    brimCopy.dev.rsvWays = 0 ∧ brimCopy.dev.rsv = [] ∧ brimCopy.group 3 0 = some brimCopy.whole ∧
    (brimLaunch.recordPa 0 0 40 0 + 32 ≤ brimLaunch.recordPa 1 0 40 0 ∨ brimLaunch.recordPa 1 0 40 0 + 32 ≤ brimLaunch.recordPa 0 0 40 0) := by decide +kernel

theorem witness_ReservoirStoreAccesses_atomics :
    (let s : State := { imaged with g := { imaged.g with ops := [adds] } };
      s.g.atomicsInFlight = true ∧ passes { rd := [.s 14#7 1, .v 0#8 2], wr := [.v 56#8 8] } s = true ∧ passes { rd := [.s 14#7 1, .v 0#8 2, .v 56#8 8] } s = true) ∧
    imaged.g.atomicsInFlight = false := by decide

/-- Word of the node of core 3 of the peer module, seen there. -/
theorem witness_TagInstructions_peers : (∀ k, keyFind (bound (asks k)).dev.requests 9 = some { core := 3, slot := 0, split := 0, kind := k } ∧ (3 : Nat) ≠ 320) ∧
    (∀ n, (bound (asks (.nodeTag 2 9 tagW 65535 0 n))).homeCtx 2 9 = some 1 ∧ (asks (.nodeTag 2 9 tagW 65535 0 n)).homeCtx 2 9 = none) ∧
    (bound tst).portOpen 1 2 = true ∧ tst.portOpen 1 2 = false := by
  refine ⟨fun _ => ⟨rfl, by decide⟩, fun _ => ⟨rfl, rfl⟩, by decide, by decide⟩

theorem witness_CardsArePostedAndDecremented_poison : (carded cardBits).dev.poisoned = [] ∧
    (∀ k, k = none ∨ k = some (.card (2 * 2 ^ 52 + 4096) 4096 page1) →
      let s : State := { carded cardBits with dev := { tst.dev with poisoned := [lineOf (2 * 2 ^ 52 + 4096)] }
                                              p := { tst.p with kept := k, stage := if k.isSome then 1 else 0, reply := k.map fun _ => 20 } }
      s.lookup 4096 accR = .hit (2 * 2 ^ 52 + 4096) page1 ∧ s.lookup 4096 accW = .hit (2 * 2 ^ 52 + 4096) page1 ∧ lineOf (2 * 2 ^ 52 + 4096) ∈ s.dev.poisoned ∧
        settled s = true ∧ s.ownedLine (lineOf (2 * 2 ^ 52 + 4096)) = false) := by
  refine ⟨rfl, fun k h => ?_⟩
  rcases h with h | h <;> subst h <;> decide +kernel

/-- The group at a barrier of its cluster, or of scope 3, whose count is `n`, or 0 with one group in the scope. -/
def atCluster (n : Nat) (auto : Bool) : State :=
  { tstD fun d => { d with clusters := [(6, { teams := [7], core := 3, w := 1, h := 1, grid := 5, bars := [(3, { expected := n, auto := auto, arrived := [] })] })] } with
    p := { tst.p with wait := .barClu 3 } }
def scopeBar (n : Nat) (auto : Bool) : Barrier := { expected := n, auto := auto, arrived := [], members := if auto then [(3, 0)] else [] }
def atScope (n : Nat) (auto : Bool) : State :=
  { tstD fun d => { d with scopeBars := [((1, 0, 3, 9), scopeBar n auto)] } with p := { tst.p with wait := .barScope 3 9 } }
theorem witness_RingsMailboxesAndBarriers_wide :
    (∀ n a, (atCluster n a).group 3 0 = some (atCluster n a).whole ∧ (atCluster n a).whole.isThread = true ∧
      (atCluster n a).whole.movers = [{ tst.p with wait := .barClu 3 }] ∧ keyFind (atCluster n a).dev.teams 7 = some team7 ∧
      ∃ e, keyFind (atCluster n a).dev.clusters team7.cluster = some e ∧ keyFind e.bars 3 = some { expected := n, auto := a, arrived := [] } ∧
        keySorted e.bars = true ∧ (e.teams.map fun k => ((atCluster n a).teamGroups k).length).sum = 1) ∧
    (∀ n a, (atScope n a).group 3 0 = some (atScope n a).whole ∧ (atScope n a).whole.isThread = true ∧
      (atScope n a).whole.movers = [{ tst.p with wait := .barScope 3 9 }] ∧ keyFind (atScope n a).dev.teams 7 = some team7 ∧
      (((atScope n a).whole.ctx, dieOf 3, 3, 9), scopeBar n a) ∈ (atScope n a).dev.scopeBars ∧ ∀ e ∈ (atScope n a).dev.scopeBars, e.2 = scopeBar n a) := by
  refine ⟨fun _ _ => ⟨rfl, rfl, rfl, rfl, _, rfl, rfl, rfl, rfl⟩, fun _ _ => ⟨rfl, rfl, rfl, rfl, List.mem_singleton_self _, fun e he => ?_⟩⟩
  rw [List.mem_singleton.mp he]

theorem witness_ModuleEvents_poison : tst.group 3 63 = none ∧ slicedLine (2 ^ 47) = true ∧ (2 ^ 47 : Nat) ∉ tst.dev.poisoned ∧
    (2 ^ 47 : Nat) ∈ (tstD fun d => { d with poisoned := [2 ^ 47] }).dev.poisoned ∧ (tstD fun d => { d with poisoned := [2 ^ 47] }).scrubs = true := by decide

theorem witness_YieldSetsItsReadyTime : passes {} tst = true := by decide

/-- A split at its issue, at code address 0x100, with these bytes there. -/
def codeAt (b : List Byte) : State := { tst with mem := putBytes [] (2 * 2 ^ 52 + 0x100) b, phase := .issue, p := { tst.p with ready := true } }
/-- That it is the next to issue, and what it fetches there. -/
noncomputable def fetchesAt (s : State) (halves v : Nat) : Bool :=
  let u := ({ s with sched := s.sched.tail, stir := true } : State).focus 3 0 0
  s.pick == some (.issue 3 0 0) && !s.dev.stopped && u.g.evaluates.isNone && u.p.inClause && decide (u.p.count < 32) &&
    (match u.fetch u.p.pc halves with | .bytes x => x == v | _ => false)

theorem witness_StepRunsTheDecodedInstruction :
    (fetchesAt (codeAt [0x00#8, 0x50#8]) 1 0x5000 = true ∧ decodeUnits (.half 0x5000#16) = .ok .nop) ∧
    (fetchesAt (codeAt [0x87#8, 0x01#8]) 2 0x187 = true ∧ litBytes 0x187#32 + dwordBytes 0x187#32 = 0 ∧ decodeUnits (.word 0x187#32) = .ok .exit) ∧
    (fetchesAt (codeAt [0x77#8, 0xEF#8, 0xFF#8, 0x01#8, 0#8, 0#8, 0#8, 0x80#8]) 4 0x8000000001ffef77 = true ∧
      litBytes 0x1ffef77#32 + dwordBytes 0x1ffef77#32 = 4 ∧ decodeUnits (.word 0x1ffef77#32) = .ok (.fsend 127#7 125#7)) ∧
    (fetchesAt (codeAt [0x7F#8]) 2 0x7F = true ∧ ∃ e, decodeUnits (.word 0x7F#32) = .error e) ∧ isHeader 1#32 = true := by
  and_intros <;> first | exact ⟨_, rfl⟩ | rfl

/-- A due event; a split that has been ready for 512 clk; a clk in which nothing more comes about. -/
theorem witness_StepRunsTheDecodedInstruction_other : State.reset.dev.stopped = false ∧
    ({ State.reset with phase := .arrive } : State).pick = some (.agenda { id := 0, due := 0, ev := .reset }) ∧ ({ codeAt [] with clock := 513 } : State).pick = some (.promote 3 0 0) ∧
    (tstP fun p => { p with wait := .idle }).pick = none ∧ ({ tst with phase := .arrive } : State).pick = none := by
  and_intros <;> decide +kernel

theorem witness_MemoryFormIsKept : Memory.wf State.reset.mem = true ∧ ∃ t, step (tstP fun p => { p with wait := .idle }) = .next t := ⟨by decide, _, rfl⟩

/-- The group with some register pending, and under another role. -/
def pends (v s : List Nat) : State := tstG fun g => { g with ops := [{ id := 20, flag := none, path := none, vdst := v, sdst := s }] }
/-- The same under QDEST, where bit 9 of the set of q1 names a queue that the team does not have. -/
def pendingSet : State := { pends [0] [] with g := { (pends [0] []).g with sys := { tst.g.sys with mode := 1#2, mcset := [(1, 0x200#16)] } } }
def roleIs (r : BitVec 2) : State := tstG fun g => { g with role := r }

theorem witness_SharedChecksTrap :
    tst.g.evaluates = none ∧ tst.p.mods = {} ∧ tst.isSup = false ∧ (∀ r, (roleIs r).g.role = r ∧ (roleIs r).isSup = false) ∧
    ((64#8).toNat < 0xE0 ∧ tst.g.nregs < (64#8).toNat + 1) ∧ ((63#8).toNat < 0xE0 ∧ tst.g.nregs < (63#8).toNat + 2) ∧
    (0xF0 ≤ (0xF2#8).toNat ∧ tst.myTeam.card.queues ≤ (0xF2#8).toNat - 0xF0) ∧
    (∀ r ∈ [(0#8, 1), (62#8, 2), (0xE6#8, 2)], (¬ (r.1.toNat < 0xE0 ∧ (pends [0, 63, 231] [0, 123]).g.nregs < r.1.toNat + r.2) ∧
        ¬ (0xF0 ≤ r.1.toNat ∧ (pends [0, 63, 231] [0, 123]).myTeam.card.queues ≤ r.1.toNat - 0xF0)) ∧ r.1.toNat < 0xE8 ∧
      ∃ n, n < r.2 ∧ (pends [0, 63, 231] [0, 123]).g.pendingV (r.1.toNat + n) = true) ∧
    (∀ r ∈ [(0#7, 1), (122#7, 2)], r.1.toNat < 124 ∧ ∃ n, n < r.2 ∧ (pends [0, 63, 231] [0, 123]).g.pendingS (r.1.toNat + n) = true) ∧
    (let s := pendingSet; s.g.sys.mode.getLsbD 0 = true ∧ (∃ j, j < 16 ∧ s.myTeam.card.queues ≤ j ∧ (storeRead s.g.sys.mcset 1).getLsbD j = true) ∧
      s.g.pendingV 0 = true ∧ (0xF1#8).toNat - 0xF0 < s.myTeam.card.queues) ∧ (pends [0] [0]).g.sys.mode.getLsbD 0 = false ∧
    (let s := tstG fun g => { g with sys := { g.sys with fpen := 0x1F#5 }, v := [(0, 0x7F7FFFFF#32)] };
      passes (use2 mxFr 0#8 0#8 63#8) s = true ∧ enabledLanes s.p.exec s.g.sys.fpen (fun l => (s.sat1 f32 (fadd f32 s.rmode (s.fa 0#8 l) (s.fb 0#8 l))).2) ≠ 0#32) ∧
    (let s := tstD fun d => { d with stopped := true }; s.dev.stopped = true ∧ (∀ a ∈ s.agenda, a.ev ≠ .reset)) ∧
    (∃ a ∈ State.reset.agenda, a.ev = .reset) := by
  and_intros <;> decide +kernel

/-! ## Decoding

One word of every encoded instruction: the fixed bits of its row of spec/opcode_table.json (the encodings of 02_instruction_formats.md and
Tables 3.1 to 3.10), with its fields filled bit by bit. -/

theorem test_decode_Control_1 :
    decodeTableWord 32 0x129d5501 = some (.clauseHeader 1#1 0#1 5#4 3#4 2730#12) ∧
    decodeTableWord 32 0x1003 = some (.modxLaneSelect 2#18) ∧
    decodeTableWord 32 0x10883 = some (.modxNegateAbs 33#6) ∧
    decodeTableWord 32 0x3103 = some (.modxAddress 6#10) ∧
    decodeTableWord 32 0x1983 = some (.modxRounding 3#3) ∧
    decodeTableWord 32 0x203 = some (.modxSetb) ∧
    decodeTableWord 32 0xa83 = some (.modxSaturate 1#1) ∧
    decodeTableWord 32 0xaaaa0005 = some (.bra 21845#15) ∧
    decodeTableWord 32 0xaaaa4005 = some (.brez 21845#15) ∧
    decodeTableWord 32 0xaaaa8005 = some (.brnez 21845#15) ∧
    decodeTableWord 32 0xaaaac305 = some (.brzS 21845#15 6#7) ∧
    decodeTableWord 32 0xaaab0305 = some (.brnzS 21845#15 6#7) ∧
    decodeTableWord 32 0xaaab4305 = some (.brnegS 21845#15 6#7) ∧
    decodeTableWord 32 0xaaab8305 = some (.call 21845#15 6#7) ∧
    decodeTableWord 32 0x7 = some (.nopW) ∧
    decodeTableWord 32 0x6087 = some (.ret 6#7) ∧
    decodeTableWord 32 0x6107 = some (.jmpi 6#7) ∧
    decodeTableWord 32 0x187 = some (.exit) ∧
    decodeTableWord 32 0x430c207 = some (.split 1#2 6#7 12#7) ∧
    decodeTableWord 32 0x4000287 = some (.join 1#2) ∧
    decodeTableWord 32 0x307 = some (.yield) ∧
    decodeTableWord 32 0x84006387 = some (.sleep 33#6 6#7) ∧
    decodeTableWord 32 0xc006407 = some (.waitp 3#3 6#7) ∧
    decodeTableWord 32 0x14006487 = some (.barTeam 5#4 6#7) := by
  and_intros <;> rfl

theorem test_decode_Control_2 :
    decodeTableWord 32 0x4006507 = some (.barClu 1#2 6#7) ∧
    decodeTableWord 32 0x830c587 = some (.barScope 2#5 6#7 12#7) ∧
    decodeTableWord 32 0x14006607 = some (.waitx 5#4 6#7) ∧
    decodeTableWord 32 0x6687 = some (.gangset 6#7) ∧
    decodeTableWord 32 0x907 = some (.rcommit) ∧
    decodeTableWord 32 0x8000b07 = some (.fence 2#5) :=
  ⟨rfl, rfl, rfl, rfl, rfl, rfl⟩

theorem test_decode_Vector_1 :
    decodeTableWord 16 0x5000 = some (.nop) ∧
    decodeTableWord 16 0x1420 = some (.mov16 2#5 33#6) ∧
    decodeTableWord 16 0x1422 = some (.iadd16 2#5 33#6) ∧
    decodeTableWord 16 0x1424 = some (.isub16 2#5 33#6) ∧
    decodeTableWord 16 0x1426 = some (.and16 2#5 33#6) ∧
    decodeTableWord 16 0x1428 = some (.or16 2#5 33#6) ∧
    decodeTableWord 16 0x142a = some (.xor16 2#5 33#6) ∧
    decodeTableWord 16 0x142c = some (.shl16 2#5 33#6) ∧
    decodeTableWord 16 0x142e = some (.shr16 2#5 33#6) ∧
    decodeTableWord 16 0x1430 = some (.sar16 2#5 33#6) ∧
    decodeTableWord 16 0x1432 = some (.iminI16 2#5 33#6) ∧
    decodeTableWord 16 0x1434 = some (.imaxI16 2#5 33#6) ∧
    decodeTableWord 32 0x10203019 = some (.iadd 16#8 32#8 48#8) ∧
    decodeTableWord 32 0x10203099 = some (.isub 16#8 32#8 48#8) ∧
    decodeTableWord 32 0x1020301b = some (.imul 16#8 32#8 48#8) ∧
    decodeTableWord 32 0x1020309b = some (.imulhI 16#8 32#8 48#8) ∧
    decodeTableWord 32 0x1020301d = some (.imulhN 16#8 32#8 48#8) ∧
    decodeTableWord 32 0x1020309d = some (.imad 16#8 32#8 48#8) ∧
    decodeTableWord 32 0x1020301f = some (.iminI 16#8 32#8 48#8) ∧
    decodeTableWord 32 0x1020309f = some (.imaxI 16#8 32#8 48#8) ∧
    decodeTableWord 32 0x10203021 = some (.iminN 16#8 32#8 48#8) ∧
    decodeTableWord 32 0x102030a1 = some (.imaxN 16#8 32#8 48#8) ∧
    decodeTableWord 32 0x10203023 = some (.and 16#8 32#8 48#8) ∧
    decodeTableWord 32 0x102030a3 = some (.or 16#8 32#8 48#8) := by
  and_intros <;> rfl

theorem test_decode_Vector_2 :
    decodeTableWord 32 0x10203025 = some (.xor 16#8 32#8 48#8) ∧
    decodeTableWord 32 0x102030a5 = some (.andn 16#8 32#8 48#8) ∧
    decodeTableWord 32 0x10203027 = some (.shl 16#8 32#8 48#8) ∧
    decodeTableWord 32 0x102030a7 = some (.shr 16#8 32#8 48#8) ∧
    decodeTableWord 32 0x10203029 = some (.sar 16#8 32#8 48#8) ∧
    decodeTableWord 32 0x102030a9 = some (.rol 16#8 32#8 48#8) ∧
    decodeTableWord 32 0x10202d = some (.clz 16#8 32#8) ∧
    decodeTableWord 32 0x110202d = some (.popc 16#8 32#8) ∧
    decodeTableWord 32 0x210202d = some (.brev 16#8 32#8) ∧
    decodeTableWord 32 0x310202d = some (.ctz 16#8 32#8) ∧
    decodeTableWord 32 0x410202d = some (.iabs 16#8 32#8) ∧
    decodeTableWord 32 0x510202d = some (.ineg 16#8 32#8) ∧
    decodeTableWord 32 0x1020302f = some (.bfe 16#8 32#8 48#8) ∧
    decodeTableWord 32 0x102030af = some (.bfi 16#8 32#8 48#8) ∧
    decodeTableWord 32 0x10203031 = some (.ilv2 16#8 32#8 48#8) ∧
    decodeTableWord 32 0x102030b1 = some (.ilv3 16#8 32#8 48#8) ∧
    decodeTableWord 32 0x10203033 = some (.dilv2 16#8 32#8 48#8) ∧
    decodeTableWord 32 0x102030b3 = some (.dilv3 16#8 32#8 48#8) ∧
    decodeTableWord 32 0x10203053 = some (.iaddi 16#8 32#8 48#8) ∧
    decodeTableWord 32 0x21020d3 = some (.shli 2#5 16#8 32#8) ∧
    decodeTableWord 32 0x2102055 = some (.shri 2#5 16#8 32#8) ∧
    decodeTableWord 32 0x21020d5 = some (.sari 2#5 16#8 32#8) ∧
    decodeTableWord 32 0x102030d9 = some (.sext 16#8 32#8 48#8) := by
  and_intros <;> rfl

theorem test_decode_VectorFloat_1 :
    decodeTableWord 16 0x1436 = some (.fadd16 2#5 33#6) ∧
    decodeTableWord 16 0x1438 = some (.fsub16 2#5 33#6) ∧
    decodeTableWord 16 0x143a = some (.fmul16 2#5 33#6) ∧
    decodeTableWord 16 0x143c = some (.fmin16 2#5 33#6) ∧
    decodeTableWord 16 0x143e = some (.fmax16 2#5 33#6) ∧
    decodeTableWord 32 0x1020ad = some (.frcp 16#8 32#8) ∧
    decodeTableWord 32 0x11020ad = some (.frsq 16#8 32#8) ∧
    decodeTableWord 32 0x21020ad = some (.fsqrt 16#8 32#8) ∧
    decodeTableWord 32 0x31020ad = some (.fexp2 16#8 32#8) ∧
    decodeTableWord 32 0x41020ad = some (.flog2 16#8 32#8) ∧
    decodeTableWord 32 0x51020ad = some (.fsin 16#8 32#8) ∧
    decodeTableWord 32 0x61020ad = some (.fcos 16#8 32#8) ∧
    decodeTableWord 32 0x71020ad = some (.ffract 16#8 32#8) ∧
    decodeTableWord 32 0x81020ad = some (.frintRne 16#8 32#8) ∧
    decodeTableWord 32 0x91020ad = some (.frintRtz 16#8 32#8) ∧
    decodeTableWord 32 0xa1020ad = some (.frintRdn 16#8 32#8) ∧
    decodeTableWord 32 0xb1020ad = some (.frintRup 16#8 32#8) ∧
    decodeTableWord 32 0x10203035 = some (.fadd 16#8 32#8 48#8) ∧
    decodeTableWord 32 0x102030b5 = some (.fsub 16#8 32#8 48#8) ∧
    decodeTableWord 32 0x10203037 = some (.fmul 16#8 32#8 48#8) ∧
    decodeTableWord 32 0x102030b7 = some (.ffma 16#8 32#8 48#8) ∧
    decodeTableWord 32 0x10203039 = some (.fmin 16#8 32#8 48#8) ∧
    decodeTableWord 32 0x102030b9 = some (.fmax 16#8 32#8 48#8) ∧
    decodeTableWord 32 0x1020303b = some (.fdiv 16#8 32#8 48#8) := by
  and_intros <;> rfl

theorem test_decode_VectorFloat_2 :
    decodeTableWord 32 0x102030bb = some (.fcpys 16#8 32#8 48#8) ∧
    decodeTableWord 32 0x1020303d = some (.hadd2 16#8 32#8 48#8) ∧
    decodeTableWord 32 0x102030bd = some (.hmul2 16#8 32#8 48#8) ∧
    decodeTableWord 32 0x1020303f = some (.hfma2 16#8 32#8 48#8) ∧
    decodeTableWord 32 0x102030bf = some (.bfma2 16#8 32#8 48#8) ∧
    decodeTableWord 32 0x10203041 = some (.dadd 16#8 32#8 48#8) ∧
    decodeTableWord 32 0x102030c1 = some (.dmul 16#8 32#8 48#8) ∧
    decodeTableWord 32 0x10203043 = some (.dfma 16#8 32#8 48#8) ∧
    decodeTableWord 32 0x102030c3 = some (.ddiv 16#8 32#8 48#8) ∧
    decodeTableWord 32 0x10200645 = some (.icmpEq 16#8 32#8 6#7) ∧
    decodeTableWord 32 0x102006c5 = some (.icmpNe 16#8 32#8 6#7) ∧
    decodeTableWord 32 0x10200647 = some (.icmpLtI 16#8 32#8 6#7) ∧
    decodeTableWord 32 0x102006c7 = some (.icmpLeI 16#8 32#8 6#7) ∧
    decodeTableWord 32 0x10200649 = some (.icmpLtN 16#8 32#8 6#7) ∧
    decodeTableWord 32 0x102006c9 = some (.icmpLeN 16#8 32#8 6#7) ∧
    decodeTableWord 32 0x1020064b = some (.fcmpEq 16#8 32#8 6#7) ∧
    decodeTableWord 32 0x102006cb = some (.fcmpNe 16#8 32#8 6#7) ∧
    decodeTableWord 32 0x1020064d = some (.fcmpLt 16#8 32#8 6#7) ∧
    decodeTableWord 32 0x102006cd = some (.fcmpLe 16#8 32#8 6#7) ∧
    decodeTableWord 32 0x1020064f = some (.fcmpUn 16#8 32#8 6#7) ∧
    decodeTableWord 32 0x1020db = some (.fclass 16#8 32#8) ∧
    decodeTableWord 32 0x3010205f = some (.cvtF32I32 3#3 16#8 32#8) ∧
    decodeTableWord 32 0x3110205f = some (.cvtF32N32 3#3 16#8 32#8) ∧
    decodeTableWord 32 0xb210205f = some (.cvtI32F32 1#1 3#3 16#8 32#8) := by
  and_intros <;> rfl

theorem test_decode_VectorFloat_3 :
    decodeTableWord 32 0xb310205f = some (.cvtN32F32 1#1 3#3 16#8 32#8) ∧
    decodeTableWord 32 0x410205f = some (.cvtF64F32 16#8 32#8) ∧
    decodeTableWord 32 0xb510205f = some (.cvtF32F64 1#1 3#3 16#8 32#8) ∧
    decodeTableWord 32 0x610205f = some (.cvtF64I32 16#8 32#8) ∧
    decodeTableWord 32 0x710205f = some (.cvtF64N32 16#8 32#8) ∧
    decodeTableWord 32 0xb810205f = some (.cvtI32F64 1#1 3#3 16#8 32#8) ∧
    decodeTableWord 32 0xb910205f = some (.cvtN32F64 1#1 3#3 16#8 32#8) ∧
    decodeTableWord 32 0xba10205f = some (.cvtF16F32 1#1 3#3 16#8 32#8) ∧
    decodeTableWord 32 0xb10205f = some (.cvtF32F16 16#8 32#8) ∧
    decodeTableWord 32 0xbc10205f = some (.cvtBf16F32 1#1 3#3 16#8 32#8) ∧
    decodeTableWord 32 0xd10205f = some (.cvtF32Bf16 16#8 32#8) ∧
    decodeTableWord 32 0xbe10205f = some (.cvtI64F64 1#1 3#3 16#8 32#8) ∧
    decodeTableWord 32 0xbf10205f = some (.cvtN64F64 1#1 3#3 16#8 32#8) ∧
    decodeTableWord 32 0x301020df = some (.cvtF64I64 3#3 16#8 32#8) ∧
    decodeTableWord 32 0x311020df = some (.cvtF64N64 3#3 16#8 32#8) ∧
    decodeTableWord 32 0x821020df = some (.cvtI16I32 1#1 16#8 32#8) ∧
    decodeTableWord 32 0x831020df = some (.cvtN16N32 1#1 16#8 32#8) ∧
    decodeTableWord 32 0x841020df = some (.cvtI8I32 1#1 16#8 32#8) ∧
    decodeTableWord 32 0x851020df = some (.cvtN8N32 1#1 16#8 32#8) ∧
    decodeTableWord 32 0xb61020df = some (.cvtFp19F32 1#1 3#3 16#8 32#8) ∧
    decodeTableWord 32 0x71020df = some (.cvtF32Fp19 16#8 32#8) := by
  and_intros <;> rfl

theorem test_decode_System :
    decodeTableWord 32 0x84000707 = some (.trap 33#6) ∧
    decodeTableWord 32 0x787 = some (.eret) ∧
    decodeTableWord 32 0x807 = some (.halt) ∧
    decodeTableWord 32 0x84000887 = some (.bkpt 33#6) ∧
    decodeTableWord 32 0x1800c17 = some (.srd 6#7 12#7) ∧
    decodeTableWord 32 0x21860017 = some (.swr 6#7 12#7) ∧
    decodeTableWord 32 0x41861417 = some (.tlbinvRange 6#7 12#7 20#7) ∧
    decodeTableWord 32 0x60030c17 = some (.tlbinvCtx 6#7 12#7) ∧
    decodeTableWord 32 0x81861417 = some (.dharv 6#7 12#7 20#7) := by
  and_intros <;> rfl

theorem test_decode_Global_1 :
    decodeTableWord 32 0x987 = some (.txbegin) ∧
    decodeTableWord 32 0x6a07 = some (.txend 6#7) ∧
    decodeTableWord 32 0x84000a87 = some (.txabort 33#6) ∧
    decodeTableWord 32 0xc2040ef = some (.ldG 6#7 16#8 32#8 1#2) ∧
    decodeTableWord 32 0xc2041ef = some (.ldfwd 6#7 16#8 32#8) ∧
    decodeTableWord 32 0xc2040f1 = some (.stG 6#7 16#8 32#8 1#2) ∧
    decodeTableWord 32 0xc2041f1 = some (.stfwd 6#7 16#8 32#8) ∧
    decodeTableWord 32 0x10810073 = some (.atomGXchg 2#5 16#8 32#8) ∧
    decodeTableWord 32 0x108100f3 = some (.atomGCas 2#5 16#8 32#8) ∧
    decodeTableWord 32 0x10810173 = some (.atomGIadd 2#5 16#8 32#8) ∧
    decodeTableWord 32 0x108101f3 = some (.atomGIminI 2#5 16#8 32#8) ∧
    decodeTableWord 32 0x10810273 = some (.atomGImaxI 2#5 16#8 32#8) ∧
    decodeTableWord 32 0x108102f3 = some (.atomGIminN 2#5 16#8 32#8) ∧
    decodeTableWord 32 0x10810373 = some (.atomGImaxN 2#5 16#8 32#8) ∧
    decodeTableWord 32 0x108103f3 = some (.atomGAnd 2#5 16#8 32#8) ∧
    decodeTableWord 32 0x10810473 = some (.atomGOr 2#5 16#8 32#8) ∧
    decodeTableWord 32 0x108104f3 = some (.atomGXor 2#5 16#8 32#8) ∧
    decodeTableWord 32 0x10810573 = some (.atomGFadd 2#5 16#8 32#8) ∧
    decodeTableWord 32 0x108105f3 = some (.atomGFmin 2#5 16#8 32#8) ∧
    decodeTableWord 32 0x10810673 = some (.atomGFmax 2#5 16#8 32#8) ∧
    decodeTableWord 32 0x10875173 = some (.redGIadd 2#5 16#8) ∧
    decodeTableWord 32 0x108751f3 = some (.redGIminI 2#5 16#8) ∧
    decodeTableWord 32 0x10875273 = some (.redGImaxI 2#5 16#8) ∧
    decodeTableWord 32 0x108752f3 = some (.redGIminN 2#5 16#8) := by
  and_intros <;> rfl

theorem test_decode_Global_2 :
    decodeTableWord 32 0x10875373 = some (.redGImaxN 2#5 16#8) ∧
    decodeTableWord 32 0x108753f3 = some (.redGAnd 2#5 16#8) ∧
    decodeTableWord 32 0x10875473 = some (.redGOr 2#5 16#8) ∧
    decodeTableWord 32 0x108754f3 = some (.redGXor 2#5 16#8) ∧
    decodeTableWord 32 0x10875573 = some (.redGFadd 2#5 16#8) ∧
    decodeTableWord 32 0x108755f3 = some (.redGFmin 2#5 16#8) ∧
    decodeTableWord 32 0x10875673 = some (.redGFmax 2#5 16#8) ∧
    decodeTableWord 32 0xc30a075 = some (.lds 6#7 12#7 20#7) ∧
    decodeTableWord 32 0xc30a0f5 = some (.lds64 6#7 12#7 20#7) ∧
    decodeTableWord 32 0xc30a175 = some (.sts 6#7 12#7 20#7) ∧
    decodeTableWord 32 0xc30a1f5 = some (.sts64 6#7 12#7 20#7) ∧
    decodeTableWord 32 0xc30a275 = some (.pref 6#7 12#7 20#7) := by
  and_intros <;> rfl

theorem test_decode_Scalar_1 :
    decodeTableWord 32 0x1861409 = some (.sadd 6#7 12#7 20#7) ∧
    decodeTableWord 32 0x21861409 = some (.ssub 6#7 12#7 20#7) ∧
    decodeTableWord 32 0x41861409 = some (.smul 6#7 12#7 20#7) ∧
    decodeTableWord 32 0x61861409 = some (.smulhI 6#7 12#7 20#7) ∧
    decodeTableWord 32 0x81861409 = some (.smulhN 6#7 12#7 20#7) ∧
    decodeTableWord 32 0xa1861409 = some (.sminI 6#7 12#7 20#7) ∧
    decodeTableWord 32 0xc1861409 = some (.smaxI 6#7 12#7 20#7) ∧
    decodeTableWord 32 0xe1861409 = some (.sminN 6#7 12#7 20#7) ∧
    decodeTableWord 32 0x1861489 = some (.smaxN 6#7 12#7 20#7) ∧
    decodeTableWord 32 0x21861489 = some (.sand 6#7 12#7 20#7) ∧
    decodeTableWord 32 0x41861489 = some (.sor 6#7 12#7 20#7) ∧
    decodeTableWord 32 0x61861489 = some (.sxor 6#7 12#7 20#7) ∧
    decodeTableWord 32 0x81861489 = some (.sandn 6#7 12#7 20#7) ∧
    decodeTableWord 32 0xa1861489 = some (.sshl 6#7 12#7 20#7) ∧
    decodeTableWord 32 0xc1861489 = some (.sshr 6#7 12#7 20#7) ∧
    decodeTableWord 32 0xe1861489 = some (.ssar 6#7 12#7 20#7) ∧
    decodeTableWord 32 0x186140b = some (.scmpEq 6#7 12#7 20#7) ∧
    decodeTableWord 32 0x2186140b = some (.scmpNe 6#7 12#7 20#7) ∧
    decodeTableWord 32 0x4186140b = some (.scmpLtI 6#7 12#7 20#7) ∧
    decodeTableWord 32 0x6186140b = some (.scmpLeI 6#7 12#7 20#7) ∧
    decodeTableWord 32 0x8186140b = some (.scmpLtN 6#7 12#7 20#7) ∧
    decodeTableWord 32 0xa186140b = some (.scmpLeN 6#7 12#7 20#7) ∧
    decodeTableWord 32 0xc186140b = some (.ssel 6#7 12#7 20#7) ∧
    decodeTableWord 32 0xe0030c0b = some (.sclz 6#7 12#7) := by
  and_intros <;> rfl

theorem test_decode_Scalar_2 :
    decodeTableWord 32 0x30c8b = some (.spopc 6#7 12#7) ∧
    decodeTableWord 32 0x20030c8b = some (.sbrev 6#7 12#7) ∧
    decodeTableWord 32 0x40030c8b = some (.sctz 6#7 12#7) ∧
    decodeTableWord 32 0x6186148b = some (.sadd64 6#7 12#7 20#7) ∧
    decodeTableWord 32 0x8186148b = some (.ssub64 6#7 12#7 20#7) ∧
    decodeTableWord 32 0xa186148b = some (.sshl64 6#7 12#7 20#7) ∧
    decodeTableWord 32 0xc186148b = some (.sshr64 6#7 12#7 20#7) ∧
    decodeTableWord 32 0xe186148b = some (.smul64 6#7 12#7 20#7) ∧
    decodeTableWord 32 0xbb81860d = some (.saddi 1500#11 6#7 12#7) ∧
    decodeTableWord 32 0xbb81860f = some (.sandi 1500#11 6#7 12#7) ∧
    decodeTableWord 32 0x418611 = some (.sshli 2#5 6#7 12#7) ∧
    decodeTableWord 32 0x418613 = some (.sshri 2#5 6#7 12#7) ∧
    decodeTableWord 32 0xbb818615 = some (.slti 1500#11 6#7 12#7) := by
  and_intros <;> rfl

theorem test_decode_Fulling :
    decodeTableWord 32 0xa0030017 = some (.tagpurge 6#7) ∧
    decodeTableWord 32 0xfa186677 = some (.tagalloc 6#7 12#7) ∧
    decodeTableWord 32 0xc30a677 = some (.tagallocTree 6#7 12#7 20#7) ∧
    decodeTableWord 32 0x36f7 = some (.tagfree 6#7) ∧
    decodeTableWord 32 0x186777 = some (.fsend 6#7 12#7) ∧
    decodeTableWord 32 0x1867f7 = some (.tagqry 6#7 12#7) :=
  ⟨rfl, rfl, rfl, rfl, rfl, rfl⟩

theorem test_decode_VectorCross :
    decodeTableWord 32 0x1006cf = some (.vote 16#8 6#7) ∧
    decodeTableWord 32 0xc204051 = some (.sel 6#7 16#8 32#8) ∧
    decodeTableWord 32 0xc0020d1 = some (.movs 6#7 16#8) ∧
    decodeTableWord 32 0xc204151 = some (.lea 6#7 16#8 32#8) ∧
    decodeTableWord 32 0xc2019d1 = some (.readlane 6#7 16#8 12#7) ∧
    decodeTableWord 32 0x2102057 = some (.shflXor 2#5 16#8 32#8) ∧
    decodeTableWord 32 0x221020d7 = some (.shflUp 1#1 2#5 16#8 32#8) ∧
    decodeTableWord 32 0x22102059 = some (.shflDn 1#1 2#5 16#8 32#8) ∧
    decodeTableWord 32 0x1020305b = some (.shflIdx 16#8 32#8 48#8) ∧
    decodeTableWord 32 0x510205d = some (.redx 5#4 16#8 32#8) ∧
    decodeTableWord 32 0x51020dd = some (.scanx 5#4 16#8 32#8) ∧
    decodeTableWord 32 0x10200661 = some (.cullbf 16#8 32#8 6#7) ∧
    decodeTableWord 32 0x102006e1 = some (.cullfr 16#8 32#8 6#7) ∧
    decodeTableWord 32 0x100663 = some (.cullsz 16#8 6#7) ∧
    decodeTableWord 32 0x102030e3 = some (.bary 16#8 32#8 48#8) := by
  and_intros <;> rfl

theorem test_decode_Scratch :
    decodeTableWord 32 0xc2040e5 = some (.spld 6#7 16#8 32#8 1#2) ∧
    decodeTableWord 32 0xc2040e7 = some (.spst 6#7 16#8 32#8 1#2) ∧
    decodeTableWord 32 0x10810069 = some (.spatXchg 2#5 16#8 32#8) ∧
    decodeTableWord 32 0x108100e9 = some (.spatCas 2#5 16#8 32#8) ∧
    decodeTableWord 32 0x10810169 = some (.spatIadd 2#5 16#8 32#8) ∧
    decodeTableWord 32 0x108101e9 = some (.spatIminI 2#5 16#8 32#8) ∧
    decodeTableWord 32 0x10810269 = some (.spatImaxI 2#5 16#8 32#8) ∧
    decodeTableWord 32 0x108102e9 = some (.spatIminN 2#5 16#8 32#8) ∧
    decodeTableWord 32 0x10810369 = some (.spatImaxN 2#5 16#8 32#8) ∧
    decodeTableWord 32 0x108103e9 = some (.spatAnd 2#5 16#8 32#8) ∧
    decodeTableWord 32 0x10810469 = some (.spatOr 2#5 16#8 32#8) ∧
    decodeTableWord 32 0x108104e9 = some (.spatXor 2#5 16#8 32#8) ∧
    decodeTableWord 32 0x10810569 = some (.spatFadd 2#5 16#8 32#8) ∧
    decodeTableWord 32 0x108105e9 = some (.spatFmin 2#5 16#8 32#8) ∧
    decodeTableWord 32 0x10810669 = some (.spatFmax 2#5 16#8 32#8) ∧
    decodeTableWord 32 0xc30a26d = some (.spmap 6#7 12#7 20#7) ∧
    decodeTableWord 32 0x32ed = some (.spunmap 6#7) ∧
    decodeTableWord 32 0x336d = some (.spwb 6#7) := by
  and_intros <;> rfl

theorem test_decode_Carding :
    decodeTableWord 32 0x3081006b = some (.ctins 1#2 2#2 16#8 32#8) ∧
    decodeTableWord 32 0x288100eb = some (.ctprb 1#1 1#2 16#8 32#8) ∧
    decodeTableWord 32 0x2881016b = some (.ctdel 1#1 1#2 16#8 32#8) ∧
    decodeTableWord 32 0x308101eb = some (.ctacc 1#2 2#2 16#8 32#8) ∧
    decodeTableWord 32 0x18606d = some (.ctinit 6#7 12#7) ∧
    decodeTableWord 32 0x30ed = some (.ctfree 6#7) ∧
    decodeTableWord 32 0xc00616d = some (.ctstat 6#7 12#7) ∧
    decodeTableWord 32 0xc30a1ed = some (.ctdrain 6#7 12#7 20#7) := by
  and_intros <;> rfl

theorem test_decode_Tasks :
    decodeTableWord 32 0xc30a2f5 = some (.post 6#7 12#7 20#7) ∧
    decodeTableWord 32 0x180375 = some (.depdec 6#7) ∧
    decodeTableWord 32 0x33f5 = some (.ringarr 6#7) ∧
    decodeTableWord 32 0x186475 = some (.ringwait 6#7 12#7) ∧
    decodeTableWord 32 0x1864f5 = some (.mboxsend 6#7 12#7) :=
  ⟨rfl, rfl, rfl, rfl, rfl⟩

theorem test_decode_Copy :
    decodeTableWord 32 0x3077 = some (.cpTensor 6#7) ∧
    decodeTableWord 32 0x30f7 = some (.cpGather 6#7) ∧
    decodeTableWord 32 0x3177 = some (.cpScatter 6#7) ∧
    decodeTableWord 32 0x31f7 = some (.cpMcast 6#7) ∧
    decodeTableWord 32 0x3277 = some (.cpPack 6#7) ∧
    decodeTableWord 32 0x32f7 = some (.cpUnpack 6#7) ∧
    decodeTableWord 32 0x3377 = some (.cpFill 6#7) ∧
    decodeTableWord 32 0x33f7 = some (.cpCancel 6#7) ∧
    decodeTableWord 32 0x186477 = some (.barinit 6#7 12#7) ∧
    decodeTableWord 32 0x1864f7 = some (.barexp 6#7 12#7) ∧
    decodeTableWord 32 0xc30a577 = some (.barwait 6#7 12#7 20#7) ∧
    decodeTableWord 32 0x1865f7 = some (.bartest 6#7 12#7) := by
  and_intros <;> rfl

theorem test_decode_Matrix :
    decodeTableWord 32 0x1494d079 = some (.mma 2#5 1#1 0#1 2#3 5#4 3#4 2#3) ∧
    decodeTableWord 32 0x328007b = some (.oclaim 6#7 5#4) ∧
    decodeTableWord 32 0x2800fb = some (.orelease 5#4) ∧
    decodeTableWord 32 0x328017b = some (.osetfmt 6#7 5#4) ∧
    decodeTableWord 32 0x31801fb = some (.aclaim 6#7 3#3) ∧
    decodeTableWord 32 0x18027b = some (.arelease 3#3) ∧
    decodeTableWord 32 0x1802fb = some (.ainit 3#3) ∧
    decodeTableWord 32 0x431802fb = some (.ainitSet 6#7 3#3) ∧
    decodeTableWord 32 0x831802fb = some (.ainitSlot 6#7 3#3) ∧
    decodeTableWord 32 0x318837b = some (.ald 6#7 3#3 16#8) ∧
    decodeTableWord 32 0x4318837b = some (.aldCol 6#7 3#3 16#8) ∧
    decodeTableWord 32 0xc018837b = some (.aldStat 3#3 16#8) ∧
    decodeTableWord 32 0x31883fb = some (.ast 6#7 3#3 16#8) ∧
    decodeTableWord 32 0x431883fb = some (.astCol 6#7 3#3 16#8) ∧
    decodeTableWord 32 0x328847b = some (.qbfp 6#7 5#4 16#8) ∧
    decodeTableWord 32 0x32884fb = some (.ofill 6#7 5#4 16#8) ∧
    decodeTableWord 32 0x328857b = some (.oread 6#7 5#4 16#8) ∧
    decodeTableWord 32 0x8028857b = some (.oreadRec 5#4 16#8) := by
  and_intros <;> rfl

theorem test_decode_Rays :
    decodeTableWord 32 0x5102007d = some (.rtrace 5#4 16#8 32#8) ∧
    decodeTableWord 32 0x510200fd = some (.rtany 5#4 16#8 32#8) ∧
    decodeTableWord 32 0x5102017d = some (.rtqry 5#4 16#8 32#8) ∧
    decodeTableWord 32 0x510201fd = some (.ltwalk 5#4 16#8 32#8) ∧
    decodeTableWord 32 0x5102027d = some (.ltpdf 5#4 16#8 32#8) ∧
    decodeTableWord 32 0x510202fd = some (.texld 5#4 16#8 32#8) ∧
    decodeTableWord 32 0x5102037d = some (.texg 5#4 16#8 32#8) := by
  and_intros <;> rfl

theorem test_decode_Reservoir :
    decodeTableWord 32 0x10203fd = some (.rngctr 16#8 32#8) ∧
    decodeTableWord 32 0x102047d = some (.rngf 16#8 32#8) ∧
    decodeTableWord 32 0x104fd = some (.rsvinit 16#8) ∧
    decodeTableWord 32 0x102057d = some (.rsvupd 16#8 32#8) ∧
    decodeTableWord 32 0x10205fd = some (.rsvmrg 16#8 32#8) ∧
    decodeTableWord 32 0x1067d = some (.rsvnorm 16#8) ∧
    decodeTableWord 32 0x510206fd = some (.rsvld 5#4 16#8 32#8) ∧
    decodeTableWord 32 0x5102077d = some (.rsvst 5#4 16#8 32#8) ∧
    decodeTableWord 32 0x500008fd = some (.brimx 5#4) := by
  and_intros <;> rfl

theorem test_decode_Reuse :
    decodeTableWord 32 0x500007fd = some (.reuse 5#4) ∧
    decodeTableWord 32 0x102087d = some (.tgtret 16#8 32#8) :=
  ⟨rfl, rfl⟩

/-! ## WellFormed: for each of its checks an ill-formed term that it refuses -/

/-- Every instruction of a list is refused. -/
def allRefused (l : List Instr) : Bool := l.all fun i => !wellFormed i

theorem test_refused_formats : allRefused [.clauseHeader 0#1 0#1 12#4 0#4 0#12, .clauseHeader 0#1 0#1 0#4 14#4 0#12, .modxLaneSelect 0xC#18,
    .modxLaneSelect 0x1A#18, .modxLaneSelect 0x200#18, .modxLaneSelect 0x400#18, .modxAddress 3#10, .modxAddress 0x280#10, .modxRounding 5#3,
    .mov16 10#5 0#6] = true := by decide

theorem test_refused_scalars : allRefused [.call 0#15 126#7, .txend 127#7, .sadd 0#7 0#7 126#7, .sclz 0#7 126#7, .sadd64 0#7 0#7 1#7, .sadd64 0#7 1#7 0#7,
    .sadd64 124#7 0#7 0#7, .sshl64 0#7 126#7 0#7, .smul64 0#7 0#7 124#7, .srd 0#7 127#7, .tlbinvRange 0#7 0#7 124#7, .tlbinvRange 1#7 0#7 0#7,
    .tlbinvCtx 0#7 126#7, .dharv 0#7 3#7 0#7, .lds 0#7 0#7 124#7, .lds 0#7 5#7 0#7, .lds64 0#7 0#7 125#7, .lds64 0#7 0#7 3#7, .sts 0#7 5#7 0#7,
    .sts64 0#7 0#7 5#7, .pref 0#7 5#7 0#7, .post 1#7 0#7 0#7, .post 0#7 1#7 0#7, .depdec 124#7, .barwait 0#7 0#7 125#7, .bartest 0#7 1#7,
    .tagalloc 0#7 124#7, .tagallocTree 0#7 0#7 125#7, .tagallocTree 125#7 0#7 0#7, .tagqry 0#7 125#7, .oclaim 124#7 0#4, .aclaim 126#7 0#3,
    .osetfmt 5#7 0#4, .ctinit 124#7 0#7, .ctstat 122#7 0#7, .ctdrain 124#7 0#7 0#7, .spmap 0#7 1#7 0#7] = true := by decide

theorem test_refused_vectors : allRefused [.iadd 0xED#8 0#8 0#8, .iadd 0#8 0xEF#8 0#8, .iadd 0#8 0#8 0xE8#8, .imad 0#8 0#8 0xF0#8, .clz 0#8 0xEC#8, .ffma 0#8 0#8 0xE8#8,
    .dadd 0#8 1#8 0#8, .dadd 0xE9#8 0#8 0#8, .dadd 0#8 0#8 0xE8#8, .icmpEq 0#8 0#8 126#7, .vote 0xEE#8 0#7, .movs 0#7 0xE9#8, .sel 0#7 0#8 0xF0#8,
    .lea 1#7 0#8 0#8, .lea 0#7 0#8 1#8, .readlane 0#7 0#8 126#7, .sext 0#8 0#8 0#8, .sext 33#8 0#8 0#8, .redx 11#4 0#8 0#8, .scanx 15#4 0#8 0#8,
    .cvtF32I32 5#3 0#8 0#8, .cvtF32F64 0#1 0#3 1#8 0#8, .cvtF64F32 0#8 1#8, .cvtI64F64 0#1 7#3 0#8 0#8, .cvtFp19F32 0#1 6#3 0#8 0#8,
    .cullbf 0#8 219#8 0#7, .cullfr 221#8 0#8 0#7, .cullsz 228#8 0#7, .bary 0#8 0#8 223#8] = true := by decide

theorem test_refused_memory : allRefused [.spld 1#7 0#8 0#8 0#2, .spld 0#7 0xED#8 0#8 0#2, .spld 0#7 0#8 0xE8#8 0#2, .spld 0#7 0#8 1#8 1#2, .spld 0#7 0#8 2#8 3#2,
    .spst 0#7 0#8 222#8 2#2, .spst 0#7 0#8 0xED#8 0#2, .spatXchg 0#5 0#8 0xEA#8, .spatCas 0#5 222#8 0#8, .spatIadd 1#5 0#8 0#8, .spatIadd 0#5 223#8 0#8,
    .ldG 0#7 0#8 0xEB#8 0#2, .ldfwd 3#7 0#8 0#8, .stG 0#7 0#8 0xE9#8 1#2, .stfwd 121#7 0#8 0#8, .stfwd 122#7 0#8 0#8, .atomGXchg 0#5 0#8 0xEA#8,
    .atomGIadd 1#5 0#8 0#8, .redGIadd 0#5 223#8] = true := by decide

theorem test_refused_engines : allRefused [.mma 21#5 0#1 0#1 0#3 0#4 0#4 0#3, .mma 5#5 0#1 0#1 1#3 0#4 0#4 0#3, .mma 0#5 0#1 0#1 0#3 0#4 0#4 4#3, .ald 0#7 0#3 231#8,
    .aldCol 0#7 0#3 223#8, .aldStat 0#3 232#8, .ast 0#7 0#3 0xEA#8, .qbfp 0#7 0#4 0xED#8, .ofill 0#7 0#4 0xEF#8, .oread 0#7 0#4 0xE9#8, .oreadRec 0#4 0xEB#8,
    .rtrace 0#4 217#8 0#8, .rtany 0#4 0#8 225#8, .rtqry 0#4 0#8 221#8, .ltwalk 0#4 218#8 0#8, .ltpdf 0#4 0#8 0xE8#8, .texld 0#4 222#8 0#8, .texg 0#4 219#8 0#8,
    .rngctr 221#8 0#8, .rngf 0#8 0xE8#8, .rsvinit 0xE1#8, .rsvupd 218#8 0#8, .rsvmrg 215#8 0#8, .rsvnorm 217#8, .rsvld 0#4 0#8 217#8, .rsvst 0#4 223#8 0#8,
    .tgtret 0xE8#8 0#8] = true := by decide

/-- The words that the spec's own examples refuse. -/
theorem test_refused_words : (∃ e, decodeUnits (.word 0x0E04146F#32) = .error e) ∧ (∃ e, decodeUnits (.word 0xEC03884D#32) = .error e) ∧
    (∃ e, decodeUnits (.word 0x0C030CAD#32) = .error e) ∧ (∃ e, decodeUnits (.word 0x6300848B#32) = .error e) ∧
    (∃ e, decodeUnits (.word 0x00003903#32) = .error e) ∧ (∃ e, decodeUnits (.word 0x0000007F#32) = .error e) :=
  ⟨⟨_, rfl⟩, ⟨_, rfl⟩, ⟨_, rfl⟩, ⟨_, rfl⟩, ⟨_, rfl⟩, ⟨_, rfl⟩⟩

/-! ## Single steps with the results that the spec's worked examples give, or a hand calculation from a rule -/

/-- A scalar register after an instruction, and a lane of a vector register. -/
def sAfter (o : Out) (r : Nat) : Option Word := match o with | .next t => some (storeRead t.g.s r) | _ => none
def vAfter (o : Out) (r : Nat) (l : List Nat) : List Word := match o with | .next t => l.map (t.g.vreg r) | _ => []
/-- Lane `l` of register `r` as the operation in flight is to write it. -/
def vLater (o : Out) (r : Nat) (l : List Nat) : List Word :=
  match o with
  | .next t => t.g.ops.flatMap fun o => o.writes.v.flatMap fun e => if e.1 = r then l.map (storeRead e.2.2) else []
  | _ => []
def withS (l : List (Nat × Word)) : State := tstG fun g => { g with s := l }
def withV (l : List (Nat × Word)) : State := tstG fun g => { g with v := l }

/-- Table 6.7: the carry leaves the low word. -/
theorem test_sadd64_teambase : sAfter (exec (.sadd64 12#7 0#7 4#7) (withS [(0, 0xFFFFF000#32), (1, 0x42#32), (12, 0x5000#32)])) 4 = some 0x4000#32 ∧
    sAfter (exec (.sadd64 12#7 0#7 4#7) (withS [(0, 0xFFFFF000#32), (1, 0x42#32), (12, 0x5000#32)])) 5 = some 0x43#32 := by decide +kernel

/-- R147: sums wrap modulo 2^32. -/
theorem test_sadd_wraps : sAfter (exec (.sadd 1#7 0#7 1#7) (withS [(0, 0xFFFFFFFF#32), (1, 2#32)])) 1 = some 1#32 := by decide +kernel

/-- Table 7.10: lanes 0 to 3 of x = L, y = 0, 1, 0, 1 and z = 0, 0, 1, 1 make the codes 0, 6, 33 and 39. -/
theorem test_ilv3_morton : vAfter (exec (.ilv3 2#8 0xEB#8 4#8) (withV [(65, 1#32), (67, 1#32), (130, 1#32), (131, 1#32)])) 4 [0, 1, 2, 3] =
    [0#32, 6#32, 33#32, 39#32] := by decide +kernel

/-- Table 7.10: the next lane's code; the lane outside exec keeps what it held. -/
theorem test_clz_morton : vAfter (exec (.clz 6#8 7#8) (withV [(192, 6#32), (193, 39#32), (194, 6#32), (195, 39#32)])) 7 [0, 1, 2, 3, 4] =
    [29#32, 26#32, 29#32, 26#32, 0#32] := by decide +kernel

/-- 04_number_formats.md, the example of FADD over eight lanes: the tree gives 16777222 and not the serial sum 2^24. -/
theorem test_redx_fadd_tree : vLater (exec (.redx 8#4 0#8 1#8) { withV ((0, 0x4B800000#32) :: (List.range 7).map fun i => (i + 1, 0x3F800000#32)) with
    p := { tst.p with exec := 0xFF#32 } }) 1 [0, 7] = [0x4B800003#32, 0x4B800003#32] := by decide +kernel

/-- The same example: SCANX of lanes 2 and 6. -/
theorem test_scanx_fadd_tree : vLater (exec (.scanx 8#4 0#8 1#8) { withV ((0, 0x4B800000#32) :: (List.range 7).map fun i => (i + 1, 0x3F800000#32)) with
    p := { tst.p with exec := 0xFF#32 } }) 1 [2, 6] = [0x4B800000#32, 0x4B800002#32] := by decide +kernel

/-- 14_reservoirs_and_reuse.md: the first candidate of the example, and Table 14.10 for RSVNORM after the merge. -/
theorem test_rsvupd_example : vAfter (exec (.rsvupd 8#8 0#8) (withV [(32 * 9, 0x500#32), (32 * 10, 0x40000000#32), (32 * 11, 0x3F000000#32), (32 * 12, 0x3F400000#32)])) 3 [0] =
    [0x40800000#32] ∧
    vAfter (exec (.rsvupd 8#8 0#8) (withV [(32 * 9, 0x500#32), (32 * 10, 0x40000000#32), (32 * 11, 0x3F000000#32), (32 * 12, 0x3F400000#32)])) 1 [0] = [0x500#32] := by
  decide +kernel

theorem test_rsvnorm_example : vAfter (exec (.rsvnorm 0#8) (withV [(64, 0x40800000#32), (96, 0x41700000#32), (160, 0x10004#32)])) 4 [0] = [0x3F700000#32] := by
  decide +kernel

/-- 04_number_formats.md, the BFP4 example with Δ = 2: the block starts, the exponents and the first mantissas. -/
theorem test_quantise_bfp4 : (let q := quantise 4 2 ((([0x40400000, 0xBFC00000, 0x3F400000, 0x3E800000, 0x42200000, 0xC1400000, 0, 0x3F000000] : List Nat) ++ List.replicate 24 0).map
      (unpack f32)); q.1 == [0, 3, 7] && q.2.1 == [129, 133, 127] && q.2.2.1.take 8 == [6, -3, 2, 0, 5, -2, 0, 4]) = true := by decide +kernel

/-- R416: a store at offset 0x32A40 beyond the mark 0x30000 raises PRIVGROW (the example of 16_translation_and_traps.md). -/
theorem test_privgrow_example : (match exec (.stG 0#7 0xEA#8 0#8 0#2) { tstG fun g => { g with sys := { g.sys with privhwm := 0x30000#32 }, s := [(0, 0x32A40#32)] } with
      ctxs := [(1, { privcfg := 0x140000#21 })] } with
    | .next t => (keyFind (t.core 3).traps 0).map fun r => (r.cause, r.infoA, r.hwmval, r.action)
    | _ => none) = some (14, 0x32A43#32, 0x30000#32, 0#32) := by decide +kernel


end Sys2Proof.Tests
end

section
/-! # O59: every step keeps the canonical form of memory (log 1)

`step` reaches memory through some eight hundred functions of the state. They are taken in the order of the model, in three layers:
- the updates that leave memory as it is, each with the equation `(… s …).mem = s.mem`;
- the updates that write memory: each goes through the store operations, which keep the canonical form (`storeWf_storeWrite` and its kind);
- the operations that answer an outcome or a result that carries states: the predicate `Leaves P` says that `P` holds of the memory of every
  state that such an answer carries. An operation that leaves memory as it is has `Leaves P` for every `P`, one that writes has it for
  `Canonical`.
`leaves_exec` joins them over the instructions, and `leaves_step` over the ways in which a step goes on. -/

namespace Sys2Proof.Machine

/-- The canonical form of memory, as a property of a memory: `MemoryInv s` is `Canonical s.mem`. -/
def Canonical (m : Memory) : Prop := Memory.wf m = true

@[simp] theorem State.mem_ite (c : Prop) [Decidable c] (s t : State) :
    (if c then s else t).mem = if c then s.mem else t.mem :=
  apply_ite State.mem c s t

/-- What every update of a fold does to memory, the fold does. -/
theorem foldl_leaves {α : Type} {P : Memory → Prop} {f : State → α → State} {l : List α} {s : State}
    (hf : ∀ s x, P s.mem → P (f s x).mem) (h : P s.mem) : P (l.foldl f s).mem :=
  List.foldlRecOn (motive := fun s => P s.mem) l f h fun s hs x _ => hf s x hs

@[simp] theorem foldl_mem {α : Type} {f : State → α → State} {l : List α} {s : State} (hf : ∀ s x, (f s x).mem = s.mem) :
    (l.foldl f s).mem = s.mem :=
  foldl_leaves (P := (· = s.mem)) (fun s x hs => (hf s x).trans hs) rfl

/-! ## Updates that leave memory as it is

`(rfl)` in brackets keeps an equation out of the definitional unfolding of `simp`, which under the binder of a fold could not use it. -/

/-! ### Named updates of the state -/

@[simp] theorem State.setWhole_mem (s : State) (g : Group) : (s.setWhole g).mem = s.mem := by
  unfold State.setWhole
  split <;> simp

@[simp] theorem State.mapGroups_mem (s : State) (f : Group → Group) : (s.mapGroups f).mem = s.mem := by simp [State.mapGroups]

@[simp] theorem State.modGroup_mem (s : State) (core slot : Nat) (f : Group → Group) : (s.modGroup core slot f).mem = s.mem := by
  simp [State.modGroup]

@[simp] theorem State.modSplit_mem (s : State) (core slot i : Nat) (f : Split → Split) : (s.modSplit core slot i f).mem = s.mem := by
  simp [State.modSplit]

@[simp] theorem State.focus_mem (s : State) (core slot i : Nat) : (s.focus core slot i).mem = s.mem := by simp [State.focus]
@[simp] theorem State.writeS_mem (s : State) (d : BitVec 7) (x : Word) : (s.writeS d x).mem = s.mem := by simp [State.writeS]
@[simp] theorem State.writeS64_mem (s : State) (d : BitVec 7) (x : Dword) : (s.writeS64 d x).mem = s.mem := by simp [State.writeS64]

@[simp] theorem State.pushSome_mem (s : State) (core : Nat) (l : List (Nat × Store 32)) : (s.pushSome core l).1.mem = s.mem := by
  induction l generalizing s with
  | nil => rfl
  | cons e r ih =>
    unfold State.pushSome
    split
    · exact ih _
    · exact ih s

@[simp] theorem State.pushSplit_mem (s : State) (core : Nat) (l : List Push) : (s.pushSplit core l).1.mem = s.mem := by
  induction l generalizing s with
  | nil => rfl
  | cons e r ih =>
    unfold State.pushSplit
    split
    · exact ih _
    · exact ih s

@[simp] theorem State.writeQ_mem (s : State) (k : Nat) (e : Store 32) : (s.writeQ k e).mem = s.mem := (rfl)
@[simp] theorem State.writeV_mem (s : State) (d : BitVec 8) (f : Lanes) : (s.writeV d f).mem = s.mem := by simp [State.writeV]
@[simp] theorem State.writeV64_mem (s : State) (d : BitVec 8) (f : Lanes64) : (s.writeV64 d f).mem = s.mem := by simp [State.writeV64]
@[simp] theorem State.popSources_mem (s : State) (codes : List (BitVec 8)) : (s.popSources codes).mem = s.mem := foldl_mem fun _ _ => rfl

@[simp] theorem State.takeSources_mem (s : State) (codes : List (BitVec 8)) : (s.takeSources codes).mem = s.mem :=
  foldl_mem fun _ _ => rfl

@[simp] theorem State.postTrap_mem (s : State) (core slot : Nat) (r : TrapRec) : (s.postTrap core slot r).mem = s.mem := by
  simp [State.postTrap]

@[simp] theorem State.haltTrap_mem (s : State) (core slot : Nat) (r : TrapRec) : (s.haltTrap core slot r).mem = s.mem := (rfl)
@[simp] theorem State.endEvaluator_mem (s : State) (job code : Nat) : (s.endEvaluator job code).mem = s.mem := (rfl)

@[simp] theorem State.trap_mem (s : State) (t : Trap) : (s.trap t).mem = s.mem := by
  unfold State.trap
  split <;> simp

@[simp] theorem State.postEngine_mem (s : State) (core agent op : Nat) (words : List Word) :
    (s.postEngine core agent op words).mem = s.mem := by simp [State.postEngine]

@[simp] theorem State.startFlag_mem (s : State) (clk : Nat) (w : Writes) (vdst sdst : List Nat) (act : Option OpAct) :
    (s.startFlag clk w vdst sdst act).mem = s.mem := (rfl)

@[simp] theorem State.startPath_mem (s : State) (k : Nat) (w : Writes) (vdst sdst : List Nat) (inRegion : Bool)
    (atomic : Option Atomic) (act : Option OpAct) (origin : Option IssuedAt) :
    (s.startPath k w vdst sdst inRegion atomic act origin).mem = s.mem := (rfl)

@[simp] theorem State.finishOp_mem (s : State) (core slot id : Nat) (w : Writes) : (s.finishOp core slot id w).mem = s.mem := by
  simp [State.finishOp]

/-! ### Slices of the L2 -/

@[simp] theorem State.writeBackLine_mem (s : State) (line : Nat) : (s.writeBackLine line).mem = s.mem := (rfl)
@[simp] theorem State.evictLine_mem (s : State) (line : Nat) : (s.evictLine line).mem = s.mem := (rfl)

@[simp] theorem State.trimSet_mem (s : State) (line n fuel : Nat) : (s.trimSet line n fuel).mem = s.mem := by
  induction fuel generalizing s with
  | zero => rfl
  | succ fuel ih =>
    simp only [State.trimSet]
    split
    · rfl
    · split
      · rw [ih, State.evictLine_mem]
      · rfl

@[simp] theorem State.touchSlice_mem (s : State) (streaming : Bool) (line : Nat) : (s.touchSlice streaming line).mem = s.mem := by
  simp [State.touchSlice]

@[simp] theorem State.makeDirty_mem (s : State) (line : Nat) : (s.makeDirty line).mem = s.mem := by simp [State.makeDirty]
@[simp] theorem State.takeWays_mem (s : State) (n : Nat) : (s.takeWays n).mem = s.mem := by simp [State.takeWays]
@[simp] theorem State.pinLine_mem (s : State) (line : Nat) : (s.pinLine line).mem = s.mem := by simp [State.pinLine]
@[simp] theorem State.unpinLine_mem (s : State) (line : Nat) : (s.unpinLine line).mem = s.mem := by simp [State.unpinLine]
@[simp] theorem State.clearBypass_mem (s : State) (slice : Nat) (mask : Word) : (s.clearBypass slice mask).mem = s.mem := (rfl)
@[simp] theorem State.markWritten_mem (s : State) (pa : Nat) : (s.markWritten pa).mem = s.mem := by simp [State.markWritten]
@[simp] theorem State.lineWritten_mem (s : State) (line : Nat) : (s.lineWritten line).mem = s.mem := by simp [State.lineWritten]
@[simp] theorem State.storeRegs_mem (s : State) (e : Nat × LineBytes) : (s.storeRegs e).mem = s.mem := by simp [State.storeRegs]

/-! ### Translation -/

@[simp] theorem State.tlbFill_mem (s : State) (core : Nat) (t : Tlb) : (s.tlbFill core t).mem = s.mem := (rfl)

@[simp] theorem State.tryAgain_mem (s : State) (key : Nat × Nat × Nat) : (s.tryAgain key).2.mem = s.mem := by
  unfold State.tryAgain
  split <;> simp

theorem mem_of_tryAgain {s t : State} {key : Nat × Nat × Nat} {b : Bool} (e : s.tryAgain key = (b, t)) : t.mem = s.mem := by
  rw [← s.tryAgain_mem key, e]

@[simp] theorem State.endTries_mem (s : State) (key : Nat × Nat × Nat) : (s.endTries key).mem = s.mem := (rfl)
@[simp] theorem State.askWalk_mem (s : State) (va : VAddr) (acc : Nat) : (s.askWalk va acc).mem = s.mem := (rfl)

/-! ### Teams, groups and barriers -/

@[simp] theorem State.modCluster_mem (s : State) (c : Nat) (f : Cluster → Cluster) : (s.modCluster c f).mem = s.mem := (rfl)
@[simp] theorem State.dropPosting_mem (s : State) (g : Group) : (s.dropPosting g).mem = s.mem := by simp [State.dropPosting]

@[simp] theorem State.discardHeld_mem (s : State) (g : Group) : (s.discardHeld g).mem = s.mem :=
  (foldl_mem fun _ _ => by simp).trans (s.dropPosting_mem g)

@[simp] theorem State.sendTrap_mem (s : State) (g : Group) (r : TrapRec) : (s.sendTrap g r).mem = s.mem := by simp [State.sendTrap]

@[simp] theorem State.stopWith_mem (s : State) (g : Group) (skip : Word × Nat) (r : TrapRec) : (s.stopWith g skip r).mem = s.mem := by
  simp [State.stopWith]

@[simp] theorem State.gangmisAt_mem (s : State) (t : Nat) (h : Held32) : (s.gangmisAt t h).mem = s.mem := by
  unfold State.gangmisAt
  (repeat' split) <;> simp

@[simp] theorem State.latchEnded_mem (s : State) (t gid : Nat) : (s.latchEnded t gid).mem = s.mem := by simp [State.latchEnded]
@[simp] theorem State.placeSoon_mem (s : State) : s.placeSoon.mem = s.mem := (rfl)

@[simp] theorem State.settle_mem (s : State) (core n : Nat) : (s.settle core n).mem = s.mem := by
  simp only [State.settle]
  (repeat' split) <;> simp

@[simp] theorem State.tokenDone_mem (s : State) (core n id : Nat) : (s.tokenDone core n id).mem = s.mem := by simp [State.tokenDone]
@[simp] theorem State.tokenGone_mem (s : State) (core id : Nat) : (s.tokenGone core id).mem = s.mem := foldl_mem fun _ _ => by simp

@[simp] theorem State.dropTurns_mem (s : State) (core : Nat) (l : List Split) : (s.dropTurns core l).mem = s.mem := by
  simp [State.dropTurns]

@[simp] theorem State.releaseHeld_mem (s : State) (g : Group) : (s.releaseHeld g).mem = s.mem :=
  (foldl_mem fun _ _ => by simp).trans (by simp)

@[simp] theorem State.releaseWait_mem (s : State) (sel : Group → Bool) (w : Wait) : (s.releaseWait sel w).mem = s.mem := by
  simp [State.releaseWait]

@[simp] theorem State.checkBarriers_mem (s : State) (t : Nat) : (s.checkBarriers t).mem = s.mem := by
  simp only [State.checkBarriers]
  split <;> simp

@[simp] theorem State.checkScopeBarriers_mem (s : State) : s.checkScopeBarriers.mem = s.mem := by simp [State.checkScopeBarriers]
@[simp] theorem State.checkWaitx_mem (s : State) (t : Nat) : (s.checkWaitx t).mem = s.mem := by simp [State.checkWaitx]

@[simp] theorem State.groupEnded_mem (s : State) (g : Group) : (s.groupEnded g).mem = s.mem := by
  simp only [State.groupEnded]
  split <;> simp

@[simp] theorem State.endGroup_mem (s : State) (core slot : Nat) : (s.endGroup core slot).mem = s.mem := by
  unfold State.endGroup
  split <;> simp

@[simp] theorem State.countFrom_mem (s : State) (t clock : Nat) : (s.countFrom t clock).mem = s.mem := (rfl)
@[simp] theorem State.endRequest_mem (s : State) (t : Nat) : (s.endRequest t).mem = s.mem := (rfl)

@[simp] theorem State.dropTeam_mem (s : State) (t : Nat) : (s.dropTeam t).mem = s.mem := by
  simp only [State.dropTeam]
  split <;> simp

@[simp] theorem State.finishTeam_mem (s : State) (t : Nat) : (s.finishTeam t).mem = s.mem := by
  simp only [State.finishTeam]
  split <;> simp

@[simp] theorem State.killCluster_mem (s : State) (t : Nat) : (s.killCluster t).mem = s.mem := by
  simp only [State.killCluster]
  split <;> simp

@[simp] theorem State.holdSlot_mem (s : State) (g : Group) : (s.holdSlot g).mem = s.mem := (rfl)

@[simp] theorem State.abortTask_mem (s : State) (t : Nat) : (s.abortTask t).mem = s.mem := by
  unfold State.abortTask
  split <;> simp

@[simp] theorem State.putHead_mem (s : State) (die : Nat) (e : Task) : (s.putHead die e).mem = s.mem := (rfl)

@[simp] theorem State.requeue_mem (s : State) (t : Nat) : (s.requeue t).mem = s.mem := by
  simp only [State.requeue]
  split <;> simp

@[simp] theorem State.stopEngines_mem (s : State) (ctx : Nat) : (s.stopEngines ctx).mem = s.mem := (rfl)

@[simp] theorem State.failContext_mem (s : State) (ctx : Nat) : (s.failContext ctx).mem = s.mem :=
  (foldl_mem fun _ _ => by simp).trans <| (foldl_mem fun _ _ => by simp).trans <| (foldl_mem fun _ _ => by simp).trans (by simp)

@[simp] theorem State.evaluatorFault_mem (s : State) (job va : Nat) : (s.evaluatorFault job va).mem = s.mem := by
  simp [State.evaluatorFault]

@[simp] theorem State.pageTrap_mem (s : State) (f : XFault) (acc : Nat) (va : VAddr) (lanes : Option Word) :
    (s.pageTrap f acc va lanes).mem = s.mem := by
  unfold State.pageTrap
  (repeat' split) <;> simp

/-! ### Transactions and regions -/

@[simp] theorem State.beginCommit_mem (s : State) : s.beginCommit.mem = s.mem := (rfl)
@[simp] theorem State.txAbortAll_mem (s : State) (bit : Nat) : (s.txAbortAll bit).mem = s.mem := (rfl)
@[simp] theorem State.txForbid_mem (s : State) : s.txForbid.mem = s.mem := (rfl)
@[simp] theorem State.holdAct_mem (s : State) (w : Wait) : (s.holdAct w).mem = s.mem := (rfl)

/-! ### Register accesses of operations -/

@[simp] theorem State.spadWrite_mem (s : State) (core at_ n v : Nat) : (s.spadWrite core at_ n v).mem = s.mem := (rfl)
@[simp] theorem State.spadPut_mem (s : State) (core at_ : Nat) (bs : List Byte) : (s.spadPut core at_ bs).mem = s.mem := (rfl)
@[simp] theorem State.reopened_mem (s : State) : s.reopened.mem = s.mem := by simp [State.reopened]

/-! ### Control -/

@[simp] theorem State.groupStopped_mem (s : State) : s.groupStopped.mem = s.mem := by simp [State.groupStopped]

@[simp] theorem State.stopCheck_mem (s : State) (core slot : Nat) : (s.stopCheck core slot).mem = s.mem := by
  unfold State.stopCheck
  (repeat' split) <;> simp

@[simp] theorem State.openClause_mem (s : State) (y sp : BitVec 1) (b a : BitVec 4) (w : BitVec 12) :
    (s.openClause y sp b a w).mem = s.mem := (rfl)

@[simp] theorem State.arrivals_mem (s : State) (core slot : Nat) : (s.arrivals core slot).mem = s.mem := by
  unfold State.arrivals
  (repeat' split) <;> simp

@[simp] theorem State.setChanged_mem (s : State) (last : Split) : (s.setChanged last).mem = s.mem := by simp [State.setChanged]
@[simp] theorem State.yielding_mem (s : State) : s.yielding.mem = s.mem := (rfl)
@[simp] theorem State.noteScope_mem (s : State) (c : BitVec 5) : (s.noteScope c).mem = s.mem := by simp [State.noteScope]

/-! ### Global memory -/

@[simp] theorem State.capacityCommit_mem (s : State) : s.capacityCommit.mem = s.mem := (rfl)
@[simp] theorem State.reserve_mem (s : State) (lines : List Nat) : (s.reserve lines).mem = s.mem := by simp [State.reserve]
@[simp] theorem State.storeServed_mem (s : State) (m off n v : Nat) : (s.storeServed m off n v).mem = s.mem := (rfl)

@[simp] theorem State.askFill_mem (s : State) (m line : Nat) : (s.askFill m line).mem = s.mem := by
  unfold State.askFill
  split <;> simp

@[simp] theorem State.loadLane_mem (s : State) (n : Nat) (inTx : Bool) (e : LaneAt) : (s.loadLane n inTx e).1.mem = s.mem := by
  unfold State.loadLane
  (repeat' split) <;> simp

@[simp] theorem State.loadLanes_mem (s : State) (n : Nat) (inTx : Bool) (l : List LaneAt) : (s.loadLanes n inTx l).1.mem = s.mem := by
  induction l generalizing s with
  | nil => rfl
  | cons e r ih => exact (ih _).trans (s.loadLane_mem n inTx e)

@[simp] theorem State.storeLane_mem (s : State) (n : Nat) (inTx : Bool) (e : LaneAt) (v : Nat) :
    (s.storeLane n inTx e v).mem = s.mem := by
  unfold State.storeLane
  (repeat' split) <;> simp

@[simp] theorem State.txCap_mem (s : State) (reads inTx : Bool) (n : Nat) (l : List LaneAt) : (s.txCap reads inTx n l).mem = s.mem := by
  unfold State.txCap
  split <;> simp

@[simp] theorem State.touchLines_mem (s : State) (l : List LaneAt) (new : List Nat) : (s.touchLines l new).mem = s.mem := by
  simp [State.touchLines]

@[simp] theorem State.returnSoon_mem (s : State) (clk id : Nat) : (s.returnSoon clk id).mem = s.mem := (rfl)

@[simp] theorem State.failOp_mem (s : State) (bad : LaneAt → Bool) (cause : Nat) (infoA : Word) (core slot : Nat) (o : Async)
    (f : IssuedAt) : (s.failOp bad cause infoA core slot o f).mem = s.mem := by
  unfold State.failOp
  (repeat' split) <;> simp

@[simp] theorem State.failOps_mem (s : State) (bad : LaneAt → Bool) (cause : Nat) (infoA : Word) (core slot : Nat) :
    (s.failOps bad cause infoA core slot).mem = s.mem := foldl_mem fun _ _ => by repeat' split <;> simp

@[simp] theorem State.txResult_mem (s : State) (d : BitVec 7) (aborted cause : Word) : (s.txResult d aborted cause).mem = s.mem := by
  simp [State.txResult]

/-! ### Scratchpads and maps -/

@[simp] theorem State.switchOff_mem (s : State) (m : Word) : (s.switchOff m).mem = s.mem := by simp [State.switchOff]

@[simp] theorem State.spStores_mem (s : State) (t n : Nat) (l : List (Nat × Nat × Nat × Nat)) : (s.spStores t n l).mem = s.mem := by
  simp [State.spStores]

@[simp] theorem State.spAtomics_mem (s : State) (t op n : Nat) (l : List (Nat × Nat × Nat × Nat)) :
    (s.spAtomics t op n l).1.mem = s.mem := by
  induction l generalizing s with
  | nil => rfl
  | cons e r ih => exact (ih _).trans (by simp)

@[simp] theorem State.sendPeers_mem (s : State) (op kind code n dst : Nat) (l : List SpLane) (data : Nat → Nat × Nat) :
    (s.sendPeers op kind code n dst l data).mem = s.mem := foldl_mem fun _ _ => rfl

@[simp] theorem State.spIssue_mem (s : State) (clk kind code n : Nat) (d : BitVec 8) (regs : Nat) (w : Writes) (peers : List SpLane)
    (data : Nat → Nat × Nat) : (s.spIssue clk kind code n d regs w peers data).mem = s.mem := by simp [State.spIssue]

@[simp] theorem State.mapFaulted_mem (s : State) (t m : Nat) (b : Bool) : (s.mapFaulted t m b).mem = s.mem := (rfl)
@[simp] theorem State.disarm_mem (s : State) (t m : Nat) : (s.disarm t m).mem = s.mem := by simp [State.disarm]

@[simp] theorem State.lateTrap_mem (s : State) (core slot split : Nat) (pc : Word) (f : XFault) (acc va : Nat) :
    (s.lateTrap core slot split pc f acc va).mem = s.mem := by
  unfold State.lateTrap
  split <;> simp

/-! ### Engines -/

@[simp] theorem State.release_mem (s : State) (core slot : Nat) (w : Wait) (f : Split → Split) :
    (s.release core slot w f).mem = s.mem := by simp [State.release]

@[simp] theorem State.hold_mem (s : State) (agent id path : Nat) : (s.hold agent id path).mem = s.mem := (rfl)
@[simp] theorem State.teamPut_mem (s : State) (t off : Nat) (bs : List Byte) : (s.teamPut t off bs).mem = s.mem := (rfl)
@[simp] theorem State.putTeamWord_mem (s : State) (t off : Nat) (x : Word) : (s.putTeamWord t off x).mem = s.mem := (rfl)
@[simp] theorem State.barCheck_mem (s : State) (t off : Nat) : (s.barCheck t off).mem = s.mem := by simp [State.barCheck]
@[simp] theorem State.credit_mem (s : State) (t off n st : Nat) : (s.credit t off n st).mem = s.mem := by simp [State.credit]

/-! ### Carding tables -/

@[simp] theorem State.modTable_mem (s : State) (t k : Nat) (f : CardTable → CardTable) : (s.modTable t k f).mem = s.mem := (rfl)
@[simp] theorem State.teamWrite_mem (s : State) (t off n v : Nat) : (s.teamWrite t off n v).mem = s.mem := (rfl)
@[simp] theorem State.modCarded_mem (s : State) (f : CardWork → CardWork) : (s.modCarded f).mem = s.mem := (rfl)
@[simp] theorem State.laneDone_mem (s : State) (l : Nat) (x : CardLane) : (s.laneDone l x).mem = s.mem := (rfl)
@[simp] theorem State.askArea_mem (s : State) (team table : Nat) : (s.askArea team table).mem = s.mem := by simp [State.askArea]
@[simp] theorem State.cardHalt_mem (s : State) (args : List Nat) : (s.cardHalt args).mem = s.mem := (rfl)

@[simp] theorem State.cardDone_mem (s : State) (clk : Nat) (w : Writes) (vdst sdst : List Nat) (act : Option OpAct) :
    (s.cardDone clk w vdst sdst act).mem = s.mem := by simp [State.cardDone]

@[simp] theorem State.drainOut_mem (s : State) (t off : Nat) (l : List (Nat × Nat × Nat)) : (s.drainOut t off l).mem = s.mem := by
  induction l generalizing s off with
  | nil => rfl
  | cons e r ih => exact (ih _ _).trans (by simp)

@[simp] theorem State.cardAnswer_mem (s : State) (core id : Nat) (kill : Bool) : (s.cardAnswer core id kill).mem = s.mem := by
  unfold State.cardAnswer
  split <;> simp

/-! ### Matrices -/

@[simp] theorem State.token_mem (s : State) (core n id : Nat) : (s.token core n id).mem = s.mem := (rfl)
@[simp] theorem State.lend_mem (s : State) (core : Nat) (lost : List Nat) : (s.lend core lost).mem = s.mem := foldl_mem fun _ _ => rfl

@[simp] theorem State.takeBack_mem (s old : State) (core : Nat) (lost : List Nat) : (s.takeBack old core lost).mem = s.mem :=
  foldl_mem fun _ _ => rfl

@[simp] theorem State.leaveOrders_mem (s : State) (core id : Nat) (names : List Nat) : (s.leaveOrders core id names).mem = s.mem := by
  simp [State.leaveOrders]

@[simp] theorem State.fillTile_mem (s : State) (core n : Nat) (data : Store 32) : (s.fillTile core n data).mem = s.mem := (rfl)

@[simp] theorem State.matrixAct_mem (s : State) (core : Nat) (act : OpAct) : (s.matrixAct core act).1.mem = s.mem := by
  unfold State.matrixAct
  split <;> simp

@[simp] theorem State.actAt_mem (s : State) (core n id : Nat) (act : OpAct) : (s.actAt core n id act).1.mem = s.mem := by
  simp [State.actAt]

@[simp] theorem State.passAll_mem (s : State) (core : Nat) (l : List Held32) : (s.passAll core l).1.mem = s.mem := by
  induction l generalizing s with
  | nil => rfl
  | cons h r ih => exact (ih _).trans (by simp)

@[simp] theorem State.releaseMma_mem (s : State) (core t : Nat) (gang : List Held32) (mask word : Word) :
    (s.releaseMma core t gang mask word).mem = s.mem := by simp [State.releaseMma]

@[simp] theorem State.writeTile_mem (s : State) (core n id : Nat) (data : Option (List Nat)) (status : Nat) :
    (s.writeTile core n id data status).mem = s.mem := by simp [State.writeTile]

/-! ### Copies -/

@[simp] theorem State.claimLines_mem (s : State) (core id : Nat) (c : CopyCmd) : (s.claimLines core id c).1.mem = s.mem := by
  simp [State.claimLines]

@[simp] theorem State.putCopy_mem (s : State) (core id : Nat) (c : CopyCmd) : (s.putCopy core id c).mem = s.mem := (rfl)

@[simp] theorem State.ownLines_mem (s : State) (core id : Nat) (c : CopyCmd) : (s.ownLines core id c).mem = s.mem := by
  simp [State.ownLines]

@[simp] theorem State.startCopies_mem (s : State) (core : Nat) : (s.startCopies core).mem = s.mem := foldl_mem fun _ _ => rfl

@[simp] theorem State.endCopy_mem (s : State) (core id : Nat) : (s.endCopy core id).mem = s.mem := by
  unfold State.endCopy
  (repeat' split) <;> simp

@[simp] theorem State.releaseCopy_mem (s : State) (core id : Nat) : (s.releaseCopy core id).mem = s.mem := by
  unfold State.releaseCopy
  split <;> simp

@[simp] theorem State.stopCopy_mem (s : State) (core id st : Nat) : (s.stopCopy core id st).mem = s.mem := by
  unfold State.stopCopy
  split <;> simp

@[simp] theorem State.postCopy_mem (s : State) (id : Nat) : (s.postCopy id).mem = s.mem := by
  simp only [State.postCopy]
  split <;> simp

@[simp] theorem State.cancelCopy_mem (s : State) (core id : Nat) (c : CopyCmd) : (s.cancelCopy core id c).mem = s.mem := by
  simp [State.cancelCopy]

@[simp] theorem State.logBytes_mem (s : State) (core id key : Nat) (bs : List Byte) : (s.logBytes core id key bs).1.mem = s.mem := by
  simp only [State.logBytes]
  split <;> simp

@[simp] theorem State.deliver_mem (s : State) (core id t off : Nat) (bs : List Byte) : (s.deliver core id t off bs).mem = s.mem := by
  simp [State.deliver]

@[simp] theorem State.slotPut_mem (s : State) (core id n off : Nat) (bs : List Byte) : (s.slotPut core id n off bs).mem = s.mem := by
  simp [State.slotPut]

@[simp] theorem State.packResult_mem (s : State) (c : CopyCmd) (n st : Nat) : (s.packResult c n st).1.mem = s.mem := by
  unfold State.packResult
  split <;> simp

@[simp] theorem State.creditRows_mem (s : State) (c : CopyCmd) (b : Box) (rows : List Nat) : (s.creditRows c b rows).mem = s.mem := by
  simp [State.creditRows]

@[simp] theorem State.giveLines_mem (s : State) (core cmd : Nat) (c : CopyCmd) : (s.giveLines core cmd c).mem = s.mem := by
  simp [State.giveLines]

@[simp] theorem State.goOnCopy_mem (s : State) (core cmd : Nat) : (s.goOnCopy core cmd).mem = s.mem := by
  unfold State.goOnCopy
  split <;> simp

@[simp] theorem State.barRead_mem (s : State) (off : Nat) (d : BitVec 7) : (s.barRead off d).mem = s.mem := (rfl)

/-! ### Reservoirs -/

@[simp] theorem State.putRun_mem (s : State) (d : BitVec 8) (n : Nat) (f : Nat → List Word) : (s.putRun d n f).mem = s.mem :=
  foldl_mem fun _ _ => rfl

@[simp] theorem State.startBrim_mem (s : State) (core id : Nat) : (s.startBrim core id).mem = s.mem := by
  unfold State.startBrim
  split <;> simp

@[simp] theorem State.signal_mem (s : State) (ctx die box : Nat) (v : Word) : (s.signal ctx die box v).mem = s.mem := by
  simp [State.signal]

@[simp] theorem State.keepCredit_mem (s : State) (grid index off : Nat) : (s.keepCredit grid index off).mem = s.mem := by
  unfold State.keepCredit
  split <;> simp

@[simp] theorem State.creditTeam_mem (s : State) (grid index off n st : Nat) : (s.creditTeam grid index off n st).mem = s.mem := by
  unfold State.creditTeam
  split <;> simp

/-! ### System registers and requests -/

@[simp] theorem State.modSys_mem (s : State) (f : GroupSys → GroupSys) : (s.modSys f).mem = s.mem := (rfl)
@[simp] theorem State.writeCtxReg_mem (s : State) (n : Nat) (x : Word) : (s.writeCtxReg n x).mem = s.mem := (rfl)

@[simp] theorem State.writeCtxState_mem (s : State) (x : Word) : (s.writeCtxState x).mem = s.mem := by
  unfold State.writeCtxState
  split <;> simp

@[simp] theorem State.writeCoreReg_mem (s : State) (n : Nat) (x : Word) : (s.writeCoreReg n x).mem = s.mem := by simp [State.writeCoreReg]

@[simp] theorem State.writeSysReg_mem (s : State) (n : Nat) (x : Word) : (s.writeSysReg n x).mem = s.mem := by
  unfold State.writeSysReg
  (repeat' split) <;> simp

@[simp] theorem State.recount_mem (s : State) (t cause : Nat) : (s.recount t cause).mem = s.mem := by simp [State.recount]
@[simp] theorem State.requeueAction_mem (s : State) (r : TrapRec) : (s.requeueAction r).mem = s.mem := by simp [State.requeueAction]

@[simp] theorem State.nextOwed_mem (s : State) (core slot : Nat) : (s.nextOwed core slot).mem = s.mem := by
  simp only [State.nextOwed]
  (repeat' split) <;> simp

@[simp] theorem State.resumeAfter_mem (s : State) (core slot : Nat) (r : TrapRec) (skip : Bool) :
    (s.resumeAfter core slot r skip).mem = s.mem := by simp [State.resumeAfter]

@[simp] theorem State.applyAction_mem (s : State) (core slot : Nat) (r : TrapRec) : (s.applyAction core slot r).mem = s.mem := by
  simp only [State.applyAction]
  split <;> simp

@[simp] theorem State.engineAnswer_mem (s : State) (core : Nat) (f : EngineFault) (kill : Bool) :
    (s.engineAnswer core f kill).mem = s.mem := by
  unfold State.engineAnswer
  (repeat' split) <;> simp

@[simp] theorem State.applyEngine_mem (s : State) (core : Nat) (f : EngineFault) : (s.applyEngine core f).mem = s.mem := by
  simp [State.applyEngine]

@[simp] theorem State.applySelected_mem (s : State) (core : Nat) : (s.applySelected core).mem = s.mem := by
  simp only [State.applySelected]
  (repeat' split) <;> simp

@[simp] theorem State.enterSoon_mem (s : State) (core : Nat) : (s.enterSoon core).mem = s.mem := by simp [State.enterSoon]
@[simp] theorem State.park_mem (s : State) : s.park.mem = s.mem := (rfl)
@[simp] theorem State.removeTlb_mem (s : State) (p : Tlb → Bool) : (s.removeTlb p).mem = s.mem := by simp [State.removeTlb]
@[simp] theorem State.markLines_mem (s : State) (p : Nat → Nat → Bool) : (s.markLines p).mem = s.mem := by simp [State.markLines]
@[simp] theorem State.ask_mem (s : State) (kind : ReqKind) (clk : Nat) (ev : Nat → Event) : (s.ask kind clk ev).mem = s.mem := (rfl)
@[simp] theorem State.removal_mem (s : State) (r : Request) (p : Tlb → Bool) : (s.removal r p).1.mem = s.mem := by simp [State.removal]
@[simp] theorem State.keepStale_mem (s : State) (r : Request) (p : Tlb → Bool) : (s.keepStale r p).mem = s.mem := (rfl)

@[simp] theorem State.answer_mem (s : State) (req : Nat) (r : Request) (v : Nat) (say : Nat → OutMsg) :
    (s.answer req r v say).mem = s.mem := by simp [State.answer]

@[simp] theorem State.leafEntry_mem (s : State) (ctx va : Nat) : (s.leafEntry ctx va).1.mem = s.mem := by
  simp only [State.leafEntry]
  split
  · simp
  · simp
  · rfl
  · split <;> rename_i e <;> simp [mem_of_tryAgain e]

/-! ### Fulling -/

@[simp] theorem State.modTag_mem (s : State) (ctx w : Nat) (f : Tag → Tag) : (s.modTag ctx w f).mem = s.mem := by
  unfold State.modTag
  split <;> simp

@[simp] theorem State.undelivered_mem (s : State) (ctx : Nat) (tag : Option Nat) : (s.undelivered ctx tag).mem = s.mem := by
  unfold State.undelivered
  split <;> simp

@[simp] theorem State.putMsg_mem (s : State) (id : Nat) (m : FMsg) : (s.putMsg id m).mem = s.mem := (rfl)
@[simp] theorem State.dropMsg_mem (s : State) (id : Nat) : (s.dropMsg id).mem = s.mem := (rfl)
@[simp] theorem State.storeSettled_mem (s : State) (node : Nat) : (s.storeSettled node).mem = s.mem := by simp [State.storeSettled]
@[simp] theorem State.askRefill_mem (s : State) (ctx : Nat) : (s.askRefill ctx).mem = s.mem := by simp [State.askRefill]
@[simp] theorem State.sweepWithin_mem (s : State) (node clk : Nat) : (s.sweepWithin node clk).mem = s.mem := by simp [State.sweepWithin]
@[simp] theorem State.sendPeer_mem (s : State) (m : FMsg) (port : Nat) : (s.sendPeer m port).mem = s.mem := by simp [State.sendPeer]

@[simp] theorem State.deliverMsg_mem (s : State) (m : FMsg) (status : Nat) (from_ : Option Nat) (extra : Nat) :
    (s.deliverMsg m status from_ extra).mem = s.mem := by
  simp only [State.deliverMsg]
  split <;> simp

@[simp] theorem State.wakeHeld_mem (s : State) (grid index : Nat) : (s.wakeHeld grid index).mem = s.mem := foldl_mem fun _ _ => rfl
@[simp] theorem State.launchMsg_mem (s : State) (m : FMsg) (origin extra : Nat) : (s.launchMsg m origin extra).mem = s.mem := (rfl)

@[simp] theorem State.forward_mem (s : State) (m : FMsg) (status extra : Nat) : (s.forward m status extra).mem = s.mem := by
  unfold State.forward
  (repeat' split) <;> simp

@[simp] theorem State.acceptMsg_mem (s : State) (m : FMsg) : (s.acceptMsg m).mem = s.mem := by
  unfold State.acceptMsg
  (repeat' split) <;> simp

@[simp] theorem State.mismatch_mem (s : State) (l r : FMsg) : (s.mismatch l r).mem = s.mem := by simp [State.mismatch]
@[simp] theorem State.meet_mem (s : State) (l r : FMsg) : (s.meet l r).mem = s.mem := by simp [State.meet]
@[simp] theorem State.dropWaiting_mem (s : State) (ctx tag : Nat) : (s.dropWaiting ctx tag).mem = s.mem := by simp [State.dropWaiting]
@[simp] theorem State.orphaned_mem (s : State) (id : Nat) (m : FMsg) : (s.orphaned id m).mem = s.mem := by simp [State.orphaned]

@[simp] theorem State.tellPeer_mem (s : State) (ctx index : Nat) (news : TagNews) : (s.tellPeer ctx index news).mem = s.mem := by
  unfold State.tellPeer
  (repeat' split) <;> simp

@[simp] theorem State.allocTags_mem (s : State) (ctx kind c ranks : Nat) (nodes : List Nat) (base n : Nat) :
    (s.allocTags ctx kind c ranks nodes base n).1.mem = s.mem := by simp [State.allocTags]

@[simp] theorem State.tagAlloc_mem (s : State) (ctx cls : Nat) (scope : BitVec 320) : (s.tagAlloc ctx cls scope).1.mem = s.mem := by
  simp only [State.tagAlloc]
  (repeat' split) <;> simp

@[simp] theorem State.freeTag_mem (s : State) (ctx index : Nat) (news : TagNews) : (s.freeTag ctx index news).mem = s.mem := by
  simp [State.freeTag]

@[simp] theorem State.cancelTag_mem (s : State) (ctx index : Nat) : (s.cancelTag ctx index).mem = s.mem := by
  unfold State.cancelTag
  split <;> simp

@[simp] theorem State.tagFree_mem (s : State) (ctx w : Nat) : (s.tagFree ctx w).mem = s.mem := by
  unfold State.tagFree
  split <;> simp

@[simp] theorem State.tagPurge_mem (s : State) (ctx : Nat) : (s.tagPurge ctx).mem = s.mem := by simp [State.tagPurge]

@[simp] theorem State.toldTag_mem (s : State) (port ctx word base ranks : Nat) (news : TagNews) :
    (s.toldTag port ctx word base ranks news).mem = s.mem := by
  unfold State.toldTag
  (repeat' split) <;> simp

/-! ### Ray units -/

@[simp] theorem State.disown_mem (s : State) (core id : Nat) : (s.disown core id).mem = s.mem := (rfl)
@[simp] theorem State.startRay_mem (s : State) (core id : Nat) : (s.startRay core id).mem = s.mem := (rfl)

/-! ### Reuse jobs -/

@[simp] theorem State.modJob_mem (s : State) (core job : Nat) (f : ReuseJob → ReuseJob) : (s.modJob core job f).mem = s.mem := (rfl)

@[simp] theorem State.startReuse_mem (s : State) (core job : Nat) : (s.startReuse core job).mem = s.mem := by
  unfold State.startReuse
  split <;> simp

@[simp] theorem State.jobFault_mem (s : State) (core job : Nat) (j : ReuseJob) (va : Nat) (f : XFault) (again : Event) :
    (s.jobFault core job j va f again).mem = s.mem := by simp [State.jobFault]

@[simp] theorem State.batchEnds_mem (s : State) (job : Nat) (j : ReuseJob) (a d : BitVec 8) : (s.batchEnds job j a d).mem = s.mem := by
  simp [State.batchEnds]

/-! ### Tasks and placement -/

@[simp] theorem State.enqueue_mem (s : State) (key : Nat) (t : Task) : (s.enqueue key t).mem = s.mem := by simp [State.enqueue]

@[simp] theorem State.refuse_mem (s : State) (t : Task) (reason : Nat) (wins : Option (List Nat)) :
    (s.refuse t reason wins).mem = s.mem := (rfl)

@[simp] theorem State.lowerPost_mem (s : State) (t : Task) : (s.lowerPost t).mem = s.mem := by
  unfold State.lowerPost
  split <;> simp

@[simp] theorem State.submit_mem (s : State) (t : Task) (clk : Nat) : (s.submit t clk).mem = s.mem := by
  unfold State.submit
  split <;> simp

@[simp] theorem State.posting_mem (s : State) (pa va target op : Nat) (arg : Option Nat) :
    (s.posting pa va target op arg).mem = s.mem := by simp [State.posting]

@[simp] theorem State.raisePost_mem (s : State) : s.raisePost.1.mem = s.mem := by
  unfold State.raisePost
  split <;> simp

@[simp] theorem State.releasePending_mem (s : State) (pa : Nat) : (s.releasePending pa).mem = s.mem := by simp [State.releasePending]
@[simp] theorem State.watch_mem (s : State) (num : Nat) : (s.watch num).mem = s.mem := by simp [State.watch]

@[simp] theorem State.payCredits_mem (s : State) (grid index num : Nat) : (s.payCredits grid index num).mem = s.mem := by
  simp [State.payCredits]

@[simp] theorem State.startTeam_mem (s : State) (t : Task) (num cluster core pos index region : Nat) (f : Fit) :
    (s.startTeam t num cluster core pos index region f).mem = s.mem := by simp [State.startTeam]

@[simp] theorem State.resumeTeam_mem (s : State) (t : Task) (v : Saved) (num cluster core : Nat) (f : Fit) :
    (s.resumeTeam t v num cluster core f).mem = s.mem := by simp [State.resumeTeam]

@[simp] theorem State.startAll_mem (s : State) (t : Task) (cluster base p : Nat) (cs : List Nat) (fits : List (Option Fit)) :
    (s.startAll t cluster base p cs fits).mem = s.mem := by
  fun_induction State.startAll with
  | case1 s p c cs f fs num t ih =>
    refine ih.trans ?_
    simp only [t]
    clear ih t
    (repeat' split) <;> simp
  | case2 => rfl

@[simp] theorem State.place_mem (s : State) (key : Nat) (t : Task) (top : Nat) (fits : List (Option Fit)) :
    (s.place key t top fits).mem = s.mem := by simp [State.place]

/-! ### Pre-emption -/

@[simp] theorem State.walkReply_mem (s : State) (core ctx page acc : Nat) (f : Split → Split) :
    (s.walkReply core ctx page acc f).mem = s.mem := by simp [State.walkReply]

@[simp] theorem State.walkHit_mem (s : State) (core ctx va acc : Nat) (t : Tlb) : (s.walkHit core ctx va acc t).mem = s.mem := by
  simp [State.walkHit]

@[simp] theorem State.walkMiss_mem (s : State) (core ctx va acc : Nat) (f : XFault) : (s.walkMiss core ctx va acc f).mem = s.mem := by
  simp [State.walkMiss]

@[simp] theorem State.releaseTeam_mem (s : State) (t : Nat) : (s.releaseTeam t).mem = s.mem := (rfl)

@[simp] theorem State.raiseAt_mem (s : State) (core slot cause sub : Nat) (aborted : Bool) (infoA action : Word) :
    (s.raiseAt core slot cause sub aborted infoA action).mem = s.mem := by
  unfold State.raiseAt
  (repeat' split) <;> simp

@[simp] theorem State.rewatch_mem (s : State) (t : Nat) : (s.rewatch t).mem = s.mem := by simp [State.rewatch]

@[simp] theorem State.pauseCounts_mem (old s : State) : (old.pauseCounts s).mem = s.mem :=
  (foldl_mem fun _ _ => by simp).trans (foldl_mem fun _ _ => rfl)

@[simp] theorem State.requestPreempt_mem (s : State) (core tslot : Nat) : (s.requestPreempt core tslot).mem = s.mem := by
  unfold State.requestPreempt
  (repeat' split) <;> simp

@[simp] theorem State.takeGroups_mem (s : State) (t : Nat) : (s.takeGroups t).mem = s.mem := by simp [State.takeGroups]

@[simp] theorem State.peerAbort_mem (s : State) (port core slot : Nat) : (s.peerAbort port core slot).mem = s.mem := by
  unfold State.peerAbort
  split <;> simp

@[simp] theorem State.loseOperands_mem (s : State) (port : Nat) : (s.loseOperands port).mem = s.mem := by simp [State.loseOperands]

/-! ### Commits -/

@[simp] theorem State.forwardHold_mem (s : State) (f : Nat × Nat) : (s.forwardHold f).mem = s.mem := by
  simp only [State.forwardHold]
  (repeat' split) <;> simp

@[simp] theorem State.releaseCommands_mem (s : State) (core : Nat) (l : List Held) : (s.releaseCommands core l).mem = s.mem :=
  (foldl_mem fun _ _ => by simp).trans <| (foldl_mem fun _ _ => by split <;> simp).trans rfl

@[simp] theorem State.dropLatch_mem (s : State) (g : Group) : (s.dropLatch g).mem = s.mem := (rfl)
@[simp] theorem State.failCommit_mem (s : State) (g : Group) : (s.failCommit g).mem = s.mem := by simp [State.failCommit]

@[simp] theorem State.commitTrap_mem (s : State) (f : XFault) (acc : Nat) (va : VAddr) : (s.commitTrap f acc va).mem = s.mem := by
  simp [State.commitTrap]

@[simp] theorem State.commitFault_mem (s : State) (g : Group) (idx : Nat) (f : XFault) (acc va : Nat) :
    (s.commitFault g idx f acc va).mem = s.mem := by simp [State.commitFault]

@[simp] theorem State.land_mem (s : State) (core slot : Nat) (o : Async) (w : Writes) : (s.land core slot o w).mem = s.mem := by
  simp [State.land]

@[simp] theorem State.cardingOut_mem (s : State) (core slot op : Nat) : (s.cardingOut core slot op).mem = s.mem := by
  simp [State.cardingOut]

/-! ### Package and links -/

@[simp] theorem State.loseAck_mem (s : State) (core slot : Nat) : (s.loseAck core slot).mem = s.mem := (rfl)
@[simp] theorem State.controlLost_mem (s : State) (g : Group) : (s.controlLost g).mem = s.mem := by simp [State.controlLost]

/-! ### Scheduling -/

@[simp] theorem State.accept_mem (s : State) (e : OnTheirWay) : (s.accept e).mem = s.mem := by
  simp only [State.accept]
  (repeat' split) <;> simp

@[simp] theorem State.acceptPushes_mem (s : State) : s.acceptPushes.mem = s.mem := by simp [State.acceptPushes]
@[simp] theorem State.refresh_mem (s : State) : s.refresh.mem = s.mem := by simp [State.refresh]
@[simp] theorem State.noteReady_mem (s : State) : s.noteReady.mem = s.mem := by simp [State.noteReady]
@[simp] theorem State.setClock_mem (s : State) (t : Nat) : (s.setClock t).mem = s.mem := by simp [State.setClock]
@[simp] theorem State.tick_mem (s : State) : s.tick.mem = s.mem := by simp [State.tick]
@[simp] theorem State.takeUp_mem (s : State) (a : Agenda) : (s.takeUp a).mem = s.mem := by simp [State.takeUp]
@[simp] theorem State.noteSnapshot_mem (s : State) : s.noteSnapshot.mem = s.mem := by simp [State.noteSnapshot]

@[simp] theorem State.afterIssue_mem (old s : State) : (old.afterIssue s).mem = s.mem := by
  simp only [State.afterIssue]
  (repeat' split) <;> simp

@[simp] theorem State.goOn_mem (s : State) : s.goOn.mem = s.mem := by
  unfold State.goOn
  split <;> simp

/-! ## Outcomes -/

/-- Every next state that an outcome answers has a memory of which `P` holds. -/
def Leaves (P : Memory → Prop) (o : Out) : Prop := ∀ t, o = .next t → P t.mem

variable {P : Memory → Prop}

@[simp] theorem leaves_next (t : State) : Leaves P (.next t) ↔ P t.mem := by simp [Leaves]
@[simp] theorem leaves_fault (r : Fault) : Leaves P (.fault r) := by simp [Leaves]
@[simp] theorem leaves_refused (r : Refusal) : Leaves P (.refused r) := by simp [Leaves]
@[simp] theorem leaves_ite (c : Prop) [Decidable c] (a b : Out) :
    Leaves P (if c then a else b) ↔ (c → Leaves P a) ∧ (¬ c → Leaves P b) := by
  split_ifs with h <;> simp [h]

theorem Leaves.ite {c : Prop} [Decidable c] {a b : Out} (ha : Leaves P a) (hb : Leaves P b) : Leaves P (if c then a else b) := by
  split_ifs <;> assumption

section
variable {s : State} {k : State → Out}
theorem leaves_issue {u : Uses} (h : P s.mem) (hk : Leaves P (k s)) : Leaves P (issue u s k) := by
  obtain ⟨t, e⟩ | ⟨w, e⟩ | e := issue_cases u s k <;> rw [e]
  · simpa using h
  · simpa using h
  · exact hk

theorem leaves_noSlot (h : P s.mem) : Leaves P (noSlot s) := by simpa [noSlot] using h

theorem leaves_withSpad {n : Nat} {ea : Lanes64} {k : List SpLane → Word → Out} (h : P s.mem) (hk : ∀ l m, Leaves P (k l m)) :
    Leaves P (withSpad n ea s k) := by
  simp [withSpad, h, hk]

theorem leaves_withFlags {f : Nat → FFlags} (h : P s.mem) (hk : ∀ t, P t.mem → Leaves P (k t)) : Leaves P (withFlags s f k) :=
  Leaves.ite (hk _ h) (by simpa using h)

theorem leaves_withTile {n : Nat} (h : P s.mem) (hk : Leaves P (k s)) : Leaves P (withTile n s k) := by
  unfold withTile
  split
  · exact hk
  · split
    · exact leaves_noSlot h
    · split
      · simpa using h
      · exact hk

theorem leaves_cardTurn (h : P s.mem) (hk : Leaves P (k s)) : Leaves P (cardTurn s k) := by
  simp [cardTurn, h, hk]

theorem leaves_withStage {r : BitVec 7} {k : Nat → Nat → Out} (h : P s.mem) (hk : ∀ a b, Leaves P (k a b)) :
    Leaves P (withStage r s k) := by
  simp [withStage, h, hk]

theorem leaves_withBar {o : BitVec 7} {k : Nat → Out} (h : P s.mem) (hk : ∀ n, Leaves P (k n)) : Leaves P (withBar o s k) := by
  simp [withBar, h, hk]

theorem leaves_withCode {addr : Word} {n : Nat} {k : Nat → Out} (h : P s.mem) (hk : ∀ n, Leaves P (k n)) :
    Leaves P (withCode s addr n k) := by
  unfold withCode
  split
  · exact hk _
  · simpa using h
  · simpa using h

theorem leaves_checkTarget {t : Word} (h : P s.mem) (hk : Leaves P (k s)) : Leaves P (checkTarget s t k) := by
  unfold checkTarget
  split
  · simpa using h
  · exact leaves_withCode h fun n => by simp [h, hk]

theorem leaves_checkTargets {l : List Word} (h : P s.mem) (hk : Leaves P (k s)) : Leaves P (checkTargets s l k) := by
  induction l with
  | nil => exact hk
  | cons t r ih => exact leaves_checkTarget h ih

theorem leaves_withRecords {w : Bool} {l : List (Nat × Nat)} (h : P s.mem) (hk : Leaves P (k s)) : Leaves P (withRecords w l s k) := by
  unfold withRecords
  split
  · simpa using h
  · split
    · simpa using h
    · simp [h, hk]

theorem leaves_withPlaces {acc n : Nat} {sc sv : Bool} {l : List (Nat × Nat)} {k : List LaneAt → Out} (h : P s.mem)
    (hk : ∀ l, Leaves P (k l)) : Leaves P (withPlaces acc n sc sv l s k) := by
  refine Leaves.ite (by simpa using h) (Leaves.ite (by simpa using h) ?_)
  split
  · simpa using h
  · simpa using h
  · simpa using h
  · exact Leaves.ite (hk _) (by simpa using h)

theorem leaves_withKeptPlaces {acc n : Nat} {l : List (Nat × Nat)} {k : List LaneAt → State → Out} (h : P s.mem)
    (hk : ∀ l t, P t.mem → Leaves P (k l t)) : Leaves P (withKeptPlaces acc n l s k) := by
  have again : ∀ t, P t.mem → Leaves P (withKeptPlaces.again acc n l k t) := fun t ht => leaves_withPlaces ht fun l => hk l _ ht
  unfold withKeptPlaces
  split
  · split
    · exact again _ (by simpa using h)
    · exact hk _ s h
  · exact again s h

theorem leaves_withCard {acc va : Nat} {k : Nat → Tlb → Out} (h : P s.mem) (hk : ∀ n t, Leaves P (k n t)) :
    Leaves P (withCard acc va s k) := by
  unfold withCard
  split
  · simp [h, hk]
  · simpa using h
  · simpa using h

theorem leaves_withKeptCard {acc va : Nat} {k : Nat → State → Out} (h : P s.mem)
    (hk : ∀ n t, P t.mem → Leaves P (k n t)) : Leaves P (withKeptCard acc va s k) := by
  have again : ∀ t, P t.mem → Leaves P (withKeptCard.again acc va k t) := fun t ht => leaves_withCard ht fun n _ => hk n _ ht
  unfold withKeptCard
  split
  · split
    · exact again _ (by simpa using h)
    · exact hk _ s h
  · exact again s h

theorem leaves_withKeptSpad {n : Nat} {ea : Lanes64} {k : List SpLane → Word → State → Out} (h : P s.mem)
    (hk : ∀ l m t, P t.mem → Leaves P (k l m t)) : Leaves P (withKeptSpad n ea s k) := by
  unfold withKeptSpad
  split
  · exact hk _ _ s h
  · exact leaves_withSpad h fun l m => hk l m _ h

theorem leaves_loadAt {n : Nat} {tx : Bool} {l : List LaneAt} {k : State → List (Nat × Nat) → Out} (h : P s.mem)
    (hk : ∀ t v, P t.mem → Leaves P (k t v)) : Leaves P (loadAt n tx l s k) := by
  unfold loadAt
  split
  · simpa using h
  · split
    · simpa using h
    · simp only [leaves_ite, leaves_next]
      exact ⟨fun _ => by simpa using h, fun _ => hk _ _ (by simpa using h)⟩

theorem leaves_storeAt {n : Nat} {tx : Bool} {v : Nat → Nat} {l : List LaneAt} (h : P s.mem)
    (hk : ∀ t, P t.mem → Leaves P (k t)) : Leaves P (storeAt n tx v l s k) := by
  unfold storeAt
  split
  · simpa using h
  · simp only [leaves_ite, leaves_next]
    refine ⟨fun _ => h, fun _ => ⟨fun _ => by simpa using h, fun _ => hk _ ?_⟩⟩
    rw [foldl_mem fun _ _ => by simp]
    simpa using h

section
variable (h : P s.mem) (hk : ∀ t, P t.mem → Leaves P (k t))
include h hk

theorem leaves_commitThen : Leaves P (commitThen s k) := by
  unfold commitThen
  repeat' split
  · exact hk _ h
  · simpa using h
  · exact hk _ h
  · exact hk _ h

theorem leaves_atCommit : Leaves P (atCommit s k) := by
  unfold atCommit
  split
  · exact leaves_commitThen (by simpa using h) hk
  · exact leaves_commitThen h hk

theorem leaves_atCommitIf {c : Bool} : Leaves P (atCommitIf c s k) := by
  unfold atCommitIf
  split
  · exact leaves_atCommit h hk
  · exact hk s h

theorem leaves_inOrder {names : List Nat} : Leaves P (inOrder names s k) := by
  simp only [inOrder]
  split
  · next id _ =>
    split
    · simpa using h
    · have hl := hk (({ s with p := { s.p with turn := none } } : State).lend s.g.core
        (names.filter fun n => s.lostAt s.g.core n id)) (by simpa using h)
      split
      · next e => rw [e] at hl; simpa using hl
      · exact hl
  · split
    · exact hk s h
    · simpa [foldl_mem] using h
end

theorem leaves_withSlotOff {r : BitVec 7} {rd : List (BitVec 8)} {n : Nat} {k : Nat → State → Out} (h : P s.mem)
    (hk : ∀ n t, P t.mem → Leaves P (k n t)) : Leaves P (withSlotOff r rd n s k) := by
  simp only [withSlotOff, leaves_ite]
  exact ⟨fun _ => leaves_noSlot h, fun _ => ⟨fun _ => by simpa using h, fun _ => ⟨fun _ => leaves_noSlot h, fun _ =>
    leaves_inOrder (by simpa using h) (hk _)⟩⟩⟩
end

/-! ## Operations that leave memory as it is

Each answers either a state with the memory it was given, or a refusal or fault. An instruction that is another name of an operation shared
by several has no lemma of its own: `leaves_exec` cites the operation's. -/

section
variable {s : State} (h : P s.mem)
include h

/-! ### Results and flags -/

theorem leaves_syncResult {pops : List (BitVec 8)} {d : BitVec 8} {f : Lanes} : Leaves P (syncResult pops d f s) := by
  simp [syncResult, h]

theorem leaves_syncResult64 {pops : List (BitVec 8)} {d : BitVec 8} {f : Lanes64} : Leaves P (syncResult64 pops d f s) := by
  simp [syncResult64, h]

theorem leaves_asyncResult {clk : Nat} {pops : List (BitVec 8)} {d : BitVec 8} {f : Lanes} {fl : Nat → FFlags} :
    Leaves P (asyncResult clk pops d f fl s) := by simp [asyncResult, h]

theorem leaves_asyncResult64 {clk : Nat} {d : BitVec 8} {f : Lanes64} {fl : Nat → FFlags} : Leaves P (asyncResult64 clk d f fl s) := by
  simp [asyncResult64, h]

theorem leaves_maskResult {pops : List (BitVec 8)} {d : BitVec 7} {f : Nat → Bool} : Leaves P (maskResult pops d f s) := by
  simp [maskResult, h]

/-! ### Control -/

theorem leaves_addPrefix {again : Bool} {f : Prefix → Prefix} : Leaves P (addPrefix again f s) := by simp [addPrefix, h]
theorem leaves_execIllegalEncoding {word : BitVec 32} : Leaves P (execIllegalEncoding word s) := by simp [execIllegalEncoding, h]

theorem leaves_execClauseHeader {y sp : BitVec 1} {b a : BitVec 4} {w : BitVec 12} : Leaves P (execClauseHeader y sp b a w s) :=
  .ite (by simpa using h) (.ite (by simpa using h) (.ite
    (.ite (leaves_atCommit h fun _ ht => by simpa using ht) (by simpa using h)) (by simpa using h)))

theorem leaves_branch {rd : List Reg} {cond : State → Bool} {o : BitVec 15} : Leaves P (branch rd cond o s) :=
  leaves_issue h (.ite (leaves_checkTarget h (by simpa using h)) (by simpa using h))

theorem leaves_execCall {o : BitVec 15} {d : BitVec 7} : Leaves P (execCall o d s) :=
  leaves_issue h (leaves_checkTarget h (by simpa using h))

theorem leaves_jumpTo {a : BitVec 7} : Leaves P (jumpTo a s) := leaves_issue h (leaves_checkTarget h (by simpa using h))
theorem leaves_execNopW : Leaves P (execNopW s) := leaves_issue h (by simp [h])

theorem leaves_execSplit {j : BitVec 2} {b a : BitVec 7} : Leaves P (execSplit j b a s) :=
  leaves_issue h (leaves_checkTargets h (.ite (by simpa using h) (by simpa using h)))

theorem leaves_execJoin {j : BitVec 2} : Leaves P (execJoin j s) := by
  refine leaves_issue h ?_
  split <;> simp [h]

theorem leaves_execExit : Leaves P (execExit s) :=
  leaves_issue h (.ite (leaves_atCommit h fun _ ht => by simpa using ht) (by simpa using h))

theorem leaves_execYield : Leaves P (execYield s) := leaves_issue h (by simp [h])
theorem leaves_execSleep {n : BitVec 6} {a : BitVec 7} : Leaves P (execSleep n a s) := leaves_issue h (by simp [h])

theorem leaves_execWaitp {p : BitVec 3} {a : BitVec 7} : Leaves P (execWaitp p a s) :=
  leaves_issue h (leaves_atCommitIf h fun _ ht => by simp [ht])

theorem leaves_writeGang {m : Word} : Leaves P (writeGang m s) := by simp [writeGang, h]
theorem leaves_execGangset {a : BitVec 7} : Leaves P (execGangset a s) := leaves_issue h (leaves_writeGang h)
theorem leaves_arriveAt {w : Wait} : Leaves P (s.arriveAt w) := by simp [State.arriveAt, h]

theorem leaves_execBarTeam {b : BitVec 4} {a : BitVec 7} : Leaves P (execBarTeam b a s) :=
  leaves_issue h (leaves_atCommit h fun _ ht => leaves_arriveAt (by simpa using ht))

theorem leaves_execBarClu {b : BitVec 2} {a : BitVec 7} : Leaves P (execBarClu b a s) :=
  leaves_issue h (leaves_atCommit h fun _ ht => leaves_arriveAt (by simpa using ht))

theorem leaves_execFence {c : BitVec 5} : Leaves P (execFence c s) :=
  leaves_issue h (leaves_atCommit (by simpa using h) fun _ ht => by simp [ht])

theorem leaves_execBarScope {c : BitVec 5} {k a : BitVec 7} : Leaves P (execBarScope c k a s) :=
  leaves_issue h (leaves_atCommit (by simpa using h) fun _ ht => .ite (by simpa using ht) (leaves_arriveAt (by simpa using ht)))

theorem leaves_execWaitx {m : BitVec 4} {a : BitVec 7} : Leaves P (execWaitx m a s) :=
  leaves_issue h (leaves_atCommit h fun _ ht => leaves_arriveAt ht)

theorem leaves_execRcommit : Leaves P (execRcommit s) := leaves_issue h (leaves_atCommit h fun _ ht => by simp [ht])

/-! ### Global memory -/

theorem leaves_execReservationLapse {line : Nat} : Leaves P (execReservationLapse line s) := by simp [execReservationLapse, h]

theorem leaves_execStG {b : BitVec 7} {a d : BitVec 8} {z : BitVec 2} : Leaves P (execStG b a d z s) := by
  dsimp only [execStG]
  exact leaves_issue h (leaves_withPlaces h fun _ => .ite (by simpa using h) (leaves_storeAt h fun _ ht => by simp [ht]))

theorem leaves_execLdfwd {b : BitVec 7} {a d : BitVec 8} : Leaves P (execLdfwd b a d s) :=
  leaves_issue h (leaves_withPlaces h fun _ => leaves_loadAt (by simpa using h) fun _ _ ht => by simp [ht])

theorem leaves_execStfwd {b : BitVec 7} {a d : BitVec 8} : Leaves P (execStfwd b a d s) :=
  leaves_issue h (leaves_withPlaces h fun _ => leaves_storeAt (by simpa using h) fun _ ht => by simp [ht])

theorem leaves_scalarLoad {n : Nat} {o b d : BitVec 7} : Leaves P (scalarLoad n o b d s) :=
  leaves_issue h (leaves_withPlaces h fun _ => leaves_loadAt (by simpa using h) fun _ _ ht => by simp [ht])

theorem leaves_scalarStore {n : Nat} {o b a : BitVec 7} : Leaves P (scalarStore n o b a s) :=
  leaves_issue h (leaves_withPlaces h fun _ => leaves_storeAt (by simpa using h) fun _ ht => by simp [ht])

theorem leaves_atomG {op : Nat} {b : BitVec 5} {a d : BitVec 8} : Leaves P (atomG op b a d s) := by
  dsimp only [atomG]
  exact leaves_issue h (leaves_withKeptPlaces h fun _ _ ht => leaves_atCommit ht fun _ hu => by simp [hu])

theorem leaves_execTxbegin : Leaves P (execTxbegin s) :=
  leaves_issue h (.ite (by simpa using h) (leaves_commitThen h fun _ ht => by simp [ht]))

theorem leaves_execTxabort {n : BitVec 6} : Leaves P (execTxabort n s) := leaves_issue h (by simp [h])

/-! ### Scratchpads and maps -/

theorem leaves_execSpld {b : BitVec 7} {a d : BitVec 8} {z : BitVec 2} : Leaves P (execSpld b a d z s) := by
  dsimp only [execSpld]
  exact leaves_issue h (leaves_withSpad h fun _ _ => by simp [h])

theorem leaves_execSpst {b : BitVec 7} {a d : BitVec 8} {z : BitVec 2} : Leaves P (execSpst b a d z s) := by
  dsimp only [execSpst]
  exact leaves_issue h (leaves_withKeptSpad h fun _ _ _ ht => leaves_atCommitIf (by simpa using ht) fun _ hu => by simp [hu])

theorem leaves_spat {op : Nat} {b : BitVec 5} {a d : BitVec 8} : Leaves P (spat op b a d s) := by
  dsimp only [spat]
  exact leaves_issue h (leaves_withKeptSpad h fun _ _ _ ht => leaves_atCommitIf ht fun _ hu => by simp [hu])

theorem leaves_execPeerScratchpadAccess {msg : Nat} : Leaves P (execPeerScratchpadAccess msg s) := by
  simp only [execPeerScratchpadAccess]
  (repeat' split) <;> simp [h]

theorem leaves_execSpmap {size va ctl : BitVec 7} : Leaves P (execSpmap size va ctl s) := leaves_issue h (by simp [h])

theorem leaves_writeBackMap {unmap : Bool} {a : BitVec 7} : Leaves P (writeBackMap unmap a s) :=
  leaves_issue h (leaves_atCommit h fun _ ht => by simp [ht])

/-! ### Carding tables -/

theorem leaves_execCtinit {d a : BitVec 7} : Leaves P (execCtinit d a s) :=
  leaves_issue h (.ite (by simpa using h) (.ite (by simpa using h) (leaves_cardTurn h (by dsimp only; split <;> simp [h]))))

theorem leaves_execCtfree {a : BitVec 7} : Leaves P (execCtfree a s) :=
  leaves_issue h (leaves_cardTurn h (by dsimp only; split <;> simp [h]))

theorem leaves_execCardingSpillAllocation {team table : Nat} {base : BitVec 64} {refuse : Bool} :
    Leaves P (execCardingSpillAllocation team table base refuse s) := by simp [execCardingSpillAllocation, h]

/-! ### Matrices -/

theorem leaves_execOclaim {d : BitVec 7} {i : BitVec 4} : Leaves P (execOclaim d i s) := by
  refine leaves_issue h ?_
  dsimp only
  (repeat' split) <;> simp [h]

theorem leaves_execOrelease {i : BitVec 4} : Leaves P (execOrelease i s) :=
  leaves_issue h (by
    dsimp only
    split
    · exact .ite (leaves_inOrder h fun _ ht => by simp [ht]) (by simp [h])
    · simp [h])

theorem leaves_execOsetfmt {r : BitVec 7} {i : BitVec 4} : Leaves P (execOsetfmt r i s) :=
  leaves_issue h (.ite (leaves_noSlot h) (.ite (leaves_noSlot h) (leaves_inOrder h fun _ ht => by simp [ht])))

theorem leaves_execOfill {r : BitVec 7} {i : BitVec 4} {d : BitVec 8} : Leaves P (execOfill r i d s) :=
  leaves_issue h (leaves_withSlotOff h fun _ _ ht => by simp [ht])

theorem leaves_execOread {r : BitVec 7} {i : BitVec 4} {d : BitVec 8} : Leaves P (execOread r i d s) :=
  leaves_issue h (leaves_withSlotOff h fun _ _ ht => leaves_syncResult ht)

theorem leaves_execOreadRec {i : BitVec 4} {d : BitVec 8} : Leaves P (execOreadRec i d s) :=
  leaves_issue h (.ite (leaves_noSlot h) (leaves_inOrder h fun _ ht => leaves_syncResult ht))

theorem leaves_execQbfp {r : BitVec 7} {i : BitVec 4} {d : BitVec 8} : Leaves P (execQbfp r i d s) :=
  leaves_issue h (.ite (leaves_noSlot h) (.ite (leaves_noSlot h) (by simp [h])))

theorem leaves_execAclaim {d : BitVec 7} {i : BitVec 3} : Leaves P (execAclaim d i s) := by
  refine leaves_issue h ?_
  dsimp only
  (repeat' split) <;> simp [h]

theorem leaves_execArelease {i : BitVec 3} : Leaves P (execArelease i s) :=
  leaves_issue h (by
    dsimp only
    split
    · exact .ite (leaves_inOrder h fun _ ht => by simp [ht]) (by simp [h])
    · simp [h])

theorem leaves_execAinit {i : BitVec 3} : Leaves P (execAinit i s) :=
  leaves_issue h (leaves_withTile h (leaves_inOrder h fun _ ht => by simp [ht]))

theorem leaves_execAinitSet {r : BitVec 7} {i : BitVec 3} : Leaves P (execAinitSet r i s) :=
  leaves_issue h (leaves_withTile h (leaves_inOrder h fun _ ht => by simp [ht]))

theorem leaves_execAinitSlot {r : BitVec 7} {i : BitVec 3} : Leaves P (execAinitSlot r i s) :=
  leaves_issue h (leaves_withTile h (.ite (leaves_noSlot h) (leaves_inOrder h fun _ ht => by simp [ht])))

theorem leaves_tileOp {clk n : Nat} {act : OpAct} {vdst : List Nat} : Leaves P (tileOp clk n act vdst s) :=
  leaves_withTile h (by simp [h])

theorem leaves_execAld {r : BitVec 7} {i : BitVec 3} {d : BitVec 8} : Leaves P (execAld r i d s) := leaves_issue h (leaves_tileOp h)
theorem leaves_execAldCol {r : BitVec 7} {i : BitVec 3} {d : BitVec 8} : Leaves P (execAldCol r i d s) := leaves_issue h (leaves_tileOp h)
theorem leaves_execAldStat {i : BitVec 3} {d : BitVec 8} : Leaves P (execAldStat i d s) := leaves_issue h (leaves_tileOp h)
theorem leaves_execAst {r : BitVec 7} {i : BitVec 3} {d : BitVec 8} : Leaves P (execAst r i d s) := leaves_issue h (leaves_tileOp h)
theorem leaves_execAstCol {r : BitVec 7} {i : BitVec 3} {d : BitVec 8} : Leaves P (execAstCol r i d s) := leaves_issue h (leaves_tileOp h)
theorem leaves_execZeroingComplete {core slot : Nat} : Leaves P (execZeroingComplete core slot s) := by simp [execZeroingComplete, h]

theorem leaves_execMma {p : BitVec 5} {t o : BitVec 1} {c : BitVec 3} {b a : BitVec 4} {k : BitVec 3} :
    Leaves P (execMma p t o c b a k s) := by
  dsimp only [execMma]
  exact leaves_issue h (.ite (by simpa using h) (.ite (by simpa [foldl_mem] using h) (.ite (by simpa using h) (by simpa using h))))

theorem leaves_execMmaStart {core mma : Nat} : Leaves P (execMmaStart core mma s) := by
  unfold execMmaStart
  split <;> simp [h]

theorem leaves_execMmaComplete {core mma : Nat} : Leaves P (execMmaComplete core mma s) := by
  unfold execMmaComplete
  (repeat' split) <;> simp [h]

/-! ### Copies -/

theorem leaves_copyCommand {kind : Nat} {m : BitVec 7} : Leaves P (copyCommand kind m s) :=
  leaves_issue h (.ite (leaves_atCommit h fun _ ht => by simp [ht]) (.ite (by simpa using h) (.ite (by simpa using h) (.ite
    (leaves_atCommit (by simpa using h) fun _ ht => by simp [ht]) (.ite (by simpa using h) (by simpa using h))))))

theorem leaves_execCpCancel {b : BitVec 7} : Leaves P (execCpCancel b s) := leaves_issue h (by simp [h])

theorem leaves_execCopyCommandStart {core cmd : Nat} : Leaves P (execCopyCommandStart core cmd s) := by
  simp only [execCopyCommandStart]
  (repeat' split) <;> simp [h]

theorem leaves_execCopyFault {core cmd : Nat} : Leaves P (execCopyFault core cmd s) := by
  unfold execCopyFault
  (repeat' split) <;> simp [h]

theorem leaves_execBarinit {e o : BitVec 7} : Leaves P (execBarinit e o s) := leaves_issue h (leaves_withBar h fun _ => by simp [h])
theorem leaves_execBarexp {n o : BitVec 7} : Leaves P (execBarexp n o s) := leaves_issue h (leaves_withBar h fun _ => by simp [h])
theorem leaves_execBartest {o d : BitVec 7} : Leaves P (execBartest o d s) := leaves_issue h (leaves_withBar h fun _ => by simp [h])
theorem leaves_barPoll {p d : BitVec 7} {off : Nat} : Leaves P (barPoll p d off s) := by simp [barPoll, h]

theorem leaves_execBarwait {p o d : BitVec 7} : Leaves P (execBarwait p o d s) :=
  leaves_issue h (by
    dsimp only
    split
    · simpa using h
    · split
      · exact leaves_atCommit h fun _ ht => leaves_barPoll ht
      · refine leaves_withBar h fun _ => leaves_atCommitIf ?_ fun _ ht => leaves_barPoll ht
        exact h)

/-! ### Reservoirs -/

theorem leaves_runResult {d : BitVec 8} {n : Nat} {f : Nat → List Word} : Leaves P (runResult d n f s) := by simp [runResult, h]
theorem leaves_execRngctr {a d : BitVec 8} : Leaves P (execRngctr a d s) := leaves_issue h (leaves_runResult h)
theorem leaves_execRngf {a d : BitVec 8} : Leaves P (execRngf a d s) := leaves_issue h (leaves_syncResult h)
theorem leaves_execRsvinit {d : BitVec 8} : Leaves P (execRsvinit d s) := leaves_issue h (leaves_runResult h)

theorem leaves_rsvResult {d : BitVec 8} {f : Nat → List Word × FFlags} : Leaves P (rsvResult d f s) :=
  leaves_withFlags h fun _ ht => leaves_runResult ht

theorem leaves_execRsvupd {a d : BitVec 8} : Leaves P (execRsvupd a d s) := leaves_issue h (leaves_rsvResult h)
theorem leaves_execRsvmrg {a d : BitVec 8} : Leaves P (execRsvmrg a d s) := leaves_issue h (leaves_rsvResult h)
theorem leaves_execRsvnorm {d : BitVec 8} : Leaves P (execRsvnorm d s) := leaves_issue h (leaves_rsvResult h)
theorem leaves_execBrimx {c : BitVec 4} : Leaves P (execBrimx c s) := leaves_issue h (by simp [h])

/-! ### System registers and requests -/

theorem leaves_readSys {n d : BitVec 7} : Leaves P (readSys n d s) := leaves_issue h (by simp [h])
theorem leaves_writeSys {n a : BitVec 7} : Leaves P (writeSys n a s) := leaves_issue h (.ite (leaves_writeGang h) (by simpa using h))
theorem leaves_execTrap {n : BitVec 6} : Leaves P (execTrap n s) := leaves_issue h (by simp [h])
theorem leaves_execBkpt {n : BitVec 6} : Leaves P (execBkpt n s) := leaves_issue h (by simp [h])
theorem leaves_execHalt : Leaves P (execHalt s) := leaves_issue h (by simp [h])
theorem leaves_execEret : Leaves P (execEret s) := leaves_issue h (by simp [h])

theorem leaves_execSupervisorEntry {core : Nat} : Leaves P (execSupervisorEntry core s) := by
  simp only [execSupervisorEntry]
  (repeat' split) <;> simp [h]

theorem leaves_execHostTrapAction {core slot : Nat} {action hwm : BitVec 32} : Leaves P (execHostTrapAction core slot action hwm s) := by
  unfold execHostTrapAction
  (repeat' split) <;> simp [h]

theorem leaves_execDebugHalt {core : Nat} : Leaves P (execDebugHalt core s) := by simp [execDebugHalt, h]

theorem leaves_execDebugResume {core : Nat} : Leaves P (execDebugResume core s) := by
  simp only [execDebugResume]
  (repeat' split) <;> simp [h]

theorem leaves_execContextSuspend {ctx : Nat} : Leaves P (execContextSuspend ctx s) := by simp [execContextSuspend, h]

theorem leaves_execContextResume {ctx : Nat} : Leaves P (execContextResume ctx s) := by
  refine .ite ?_ (by simpa using h)
  rw [leaves_next, foldl_mem fun _ _ => by simp, State.placeSoon_mem, foldl_mem fun _ _ => by simp]
  exact h

theorem leaves_execContextMarkFailed {ctx : Nat} : Leaves P (execContextMarkFailed ctx s) := by simp [execContextMarkFailed, h]
theorem leaves_invalidated {ctx : Nat} {d : BitVec 7} : Leaves P (invalidated ctx d s) := .ite (by simpa using h) (by simpa using h)

theorem leaves_execTlbinvRange {b a d : BitVec 7} : Leaves P (execTlbinvRange b a d s) :=
  leaves_issue h (.ite (leaves_invalidated h) (by simp [h]))

theorem leaves_execTlbinvCtx {a d : BitVec 7} : Leaves P (execTlbinvCtx a d s) :=
  leaves_issue h (.ite (leaves_invalidated h) (by simp [h]))

theorem leaves_execInvalidationAck {req : Nat} : Leaves P (execInvalidationAck req s) := by
  simp only [execInvalidationAck]
  (repeat' split) <;> simp [h]

theorem leaves_execShootdownRequest {ctx : Nat} {va : BitVec 80} {pages : Nat} : Leaves P (execShootdownRequest ctx va pages s) := by
  simp [execShootdownRequest, h]

theorem leaves_execDharv {b a d : BitVec 7} : Leaves P (execDharv b a d s) := leaves_issue h (by simp [h])

theorem leaves_execHarvestRequest {ctx : Nat} {va : BitVec 80} {pages : Nat} : Leaves P (execHarvestRequest ctx va pages s) := by
  simp [execHarvestRequest, h]

/-! ### Fulling -/

theorem leaves_execHeldDeliveryExpiry {msg : Nat} : Leaves P (execHeldDeliveryExpiry msg s) := by
  unfold execHeldDeliveryExpiry
  split <;> simp [h]

theorem leaves_execFsendOverflow {msg : Nat} : Leaves P (execFsendOverflow msg s) := by
  simp only [execFsendOverflow]
  (repeat' split) <;> simp [h]

theorem leaves_execOrphanExpiry {msg : Nat} : Leaves P (execOrphanExpiry msg s) := by
  unfold execOrphanExpiry
  split <;> simp [h]

theorem leaves_execSpillSweep {node : Nat} : Leaves P (execSpillSweep node s) := by
  simp only [execSpillSweep]
  (repeat' split) <;> simp [h]

theorem leaves_execFullingReload {node : Nat} : Leaves P (execFullingReload node s) := by
  simp only [execFullingReload]
  (repeat' split) <;> simp [h]

theorem leaves_execFullingSpillRefill {ctx : Nat} {capacity : BitVec 32} : Leaves P (execFullingSpillRefill ctx capacity s) := by
  simp [execFullingSpillRefill, h]

theorem leaves_execTagNodeAcknowledgement {req : Nat} : Leaves P (execTagNodeAcknowledgement req s) := by
  simp only [execTagNodeAcknowledgement]
  (repeat' split) <;> simp [h]

theorem leaves_tagReply {d : BitVec 7} : Leaves P (tagReply d s) := by simp [tagReply, h]

theorem leaves_tagAllocate {rd : List Reg} {n : State → Option Nat} {c d : BitVec 7} : Leaves P (tagAllocate rd n c d s) :=
  leaves_issue h (.ite (leaves_tagReply h) (by simp [h]))

theorem leaves_execTagfree {t : BitVec 7} : Leaves P (execTagfree t s) := leaves_issue h (by simp [h])
theorem leaves_execTagqry {t d : BitVec 7} : Leaves P (execTagqry t d s) := leaves_issue h (.ite (leaves_tagReply h) (by simp [h]))
theorem leaves_execTagpurge {a : BitVec 7} : Leaves P (execTagpurge a s) := leaves_issue h (by simp [h])

theorem leaves_execFsend {m o : BitVec 7} : Leaves P (execFsend m o s) :=
  leaves_issue h (.ite (leaves_atCommit h fun _ ht => by simp [ht]) (.ite (leaves_atCommit h fun _ ht => by simp [ht]) (by simp [h])))

/-! ### Ray units -/

theorem leaves_execRayLaneRestart {core op lane : Nat} : Leaves P (execRayLaneRestart core op lane s) := by
  unfold execRayLaneRestart
  (repeat' split) <;> simp [h]

theorem leaves_rayIssue {kind n : Nat} {c : BitVec 4} {a d : BitVec 8} : Leaves P (rayIssue kind n c a d s) :=
  leaves_issue h (by simp [h])

/-! ### Reuse jobs -/

theorem leaves_execReuse {c : BitVec 4} : Leaves P (execReuse c s) := leaves_issue h (by simp [h])

theorem leaves_execReuseBatch {core job : Nat} : Leaves P (execReuseBatch core job s) := by
  unfold execReuseBatch
  (repeat' split) <;> simp [h]

theorem leaves_execTgtret {a d : BitVec 8} : Leaves P (execTgtret a d s) := by
  refine leaves_issue h ?_
  dsimp only
  (repeat' split) <;> simp [h]

theorem leaves_execReuseJobComplete {core job : Nat} : Leaves P (execReuseJobComplete core job s) := by
  unfold execReuseJobComplete
  split <;> simp [h]

/-! ### Tasks and placement -/

theorem leaves_execPost {arg card target : BitVec 7} : Leaves P (execPost arg card target s) :=
  leaves_issue h (.ite (by simpa using h) (.ite (by simpa using h)
    (leaves_withKeptCard h fun _ _ ht => leaves_atCommit ht fun _ hu => by simp [hu])))

theorem leaves_execDepdec {b : BitVec 7} : Leaves P (execDepdec b s) := leaves_issue h (leaves_withCard h fun _ _ => by simp [h])

theorem leaves_execTaskQueueAcceptance {msg : Nat} : Leaves P (execTaskQueueAcceptance msg s) := by
  unfold execTaskQueueAcceptance
  (repeat' split) <;> simp [h]

theorem leaves_execTeamPlacement {die : Nat} : Leaves P (execTeamPlacement die s) := by
  unfold execTeamPlacement
  split <;> simp [h]

theorem leaves_execRingarr {r : BitVec 7} : Leaves P (execRingarr r s) := leaves_issue h (leaves_withStage h fun _ _ => by simp [h])

theorem leaves_execRingwait {p r : BitVec 7} : Leaves P (execRingwait p r s) :=
  leaves_issue h (leaves_withStage h fun _ _ => leaves_atCommitIf h fun _ ht => by simp [ht])

theorem leaves_execMboxsend {m v : BitVec 7} : Leaves P (execMboxsend m v s) :=
  leaves_issue h (leaves_atCommit h fun _ ht => by simp [ht])

theorem leaves_execSignalStore {sender : Sender} {die box : Nat} {v : BitVec 32} : Leaves P (execSignalStore sender die box v s) := by
  simp only [execSignalStore]
  (repeat' split) <;> simp [h]

/-! ### Pre-emption -/

theorem leaves_execWatchdog {team : Nat} : Leaves P (execWatchdog team s) := by
  unfold execWatchdog
  (repeat' split) <;> simp [h]

theorem leaves_execPreemptRequest {core : Nat} {mask : BitVec 8} : Leaves P (execPreemptRequest core mask s) := by
  simp [execPreemptRequest, h]

theorem leaves_execPreemptLimitExpiry {core tslot : Nat} : Leaves P (execPreemptLimitExpiry core tslot s) := by
  simp only [execPreemptLimitExpiry]
  (repeat' split) <;> simp [h]

theorem leaves_execPeerLinkDown {port : Nat} : Leaves P (execPeerLinkDown port s) := by simp [execPeerLinkDown, h]
theorem leaves_execPeerLinkUp {port : Nat} : Leaves P (execPeerLinkUp port s) := by simp [execPeerLinkUp, h]

/-! ### Commits -/

theorem leaves_execGlobalLoadReturn {core slot op : Nat} : Leaves P (execGlobalLoadReturn core slot op s) := by
  unfold execGlobalLoadReturn
  split <;> simp [h]

theorem leaves_execSplitPromotion {core slot split : Nat} : Leaves P (execSplitPromotion core slot split s) := by
  simp [execSplitPromotion, h]

theorem leaves_execSleepExpiry {core slot split : Nat} : Leaves P (execSleepExpiry core slot split s) := by simp [execSleepExpiry, h]
theorem leaves_execCopyRestart {core cmd : Nat} : Leaves P (execCopyRestart core cmd s) := by simp [execCopyRestart, h]

theorem leaves_execCopyResume {core cmd : Nat} {terminate : Bool} : Leaves P (execCopyResume core cmd terminate s) := by
  simp [execCopyResume, h]

/-! ### Package and links -/

theorem leaves_execAttestationRequest {nonce : BitVec 256} : Leaves P (execAttestationRequest nonce s) := by
  simp [execAttestationRequest, h]

theorem leaves_execSlPin {line : Nat} : Leaves P (execSlPin line s) := by simp [execSlPin, h]
theorem leaves_execSlUnpin {line : Nat} : Leaves P (execSlUnpin line s) := by simp [execSlUnpin, h]

theorem leaves_execSlBypassClear {slice : Nat} {mask : BitVec 32} : Leaves P (execSlBypassClear slice mask s) := by
  simp [execSlBypassClear, h]

theorem leaves_execContextBindingWrite {index ctx port remote : Nat} : Leaves P (execContextBindingWrite index ctx port remote s) := by
  simp [execContextBindingWrite, h]

theorem leaves_execFlitReplay {n : Nat} : Leaves P (execFlitReplay n s) := by simp [execFlitReplay, h]
theorem leaves_execModuleLaneFailure {n : Nat} : Leaves P (execModuleLaneFailure n s) := by simp [execModuleLaneFailure, h]
theorem leaves_execPowerThrottle {die : Nat} : Leaves P (execPowerThrottle die s) := by simp [execPowerThrottle, h]
theorem leaves_execThermalThrottle {die : Nat} : Leaves P (execThermalThrottle die s) := by simp [execThermalThrottle, h]
theorem leaves_execThermalThrottleEnd {die : Nat} : Leaves P (execThermalThrottleEnd die s) := by simp [execThermalThrottleEnd, h]
theorem leaves_execThermtrip : Leaves P (execThermtrip s) := by simp [execThermtrip, h]
theorem leaves_execDramScrub {n : Nat} : Leaves P (execDramScrub n s) := by simp [execDramScrub, h]
theorem leaves_execScrublate : Leaves P (execScrublate s) := by simp [execScrublate, h]
theorem leaves_execUcieRetraining {n : Nat} : Leaves P (execUcieRetraining n s) := by simp [execUcieRetraining, h]
theorem leaves_execGddr7Retraining {n : Nat} : Leaves P (execGddr7Retraining n s) := by simp [execGddr7Retraining, h]
theorem leaves_execAgingMonitor : Leaves P (execAgingMonitor s) := by simp [execAgingMonitor, h]
theorem leaves_execFlashWearLevelling : Leaves P (execFlashWearLevelling s) := by simp [execFlashWearLevelling, h]
theorem leaves_execTelemetry : Leaves P (execTelemetry s) := by simp [execTelemetry, h]

/-! ### Scalar operations -/

theorem leaves_scalarOp {rd : List (BitVec 7)} {d : BitVec 7} {f : State → Word} : Leaves P (scalarOp rd d f s) :=
  leaves_issue h (by simp [h])

theorem leaves_scalarOp64 {rd : List Reg} {d : BitVec 7} {f : State → Dword} : Leaves P (scalarOp64 rd d f s) :=
  leaves_issue h (by simp [h])

/-! ### Vector operations -/

theorem leaves_vecBin {mx : ModxUse} {a b d : BitVec 8} {f : State → Lanes} : Leaves P (vecBin mx a b d f s) :=
  leaves_issue h (leaves_syncResult h)

theorem leaves_vecTri {mx : ModxUse} {a b d : BitVec 8} {f : State → Lanes} : Leaves P (vecTri mx a b d f s) :=
  leaves_issue h (leaves_syncResult h)

theorem leaves_vecUn {mx : ModxUse} {a d : BitVec 8} {f : State → Lanes} : Leaves P (vecUn mx a d f s) :=
  leaves_issue h (leaves_syncResult h)

theorem leaves_half2 {f : Word → Word → Word} {b : BitVec 5} {d : BitVec 6} : Leaves P (half2 f b d s) := leaves_vecBin h
theorem leaves_execNop : Leaves P (execNop s) := leaves_issue h (by simp [h])

/-! ### Float operations -/

theorem leaves_floatSync {u : Uses} {pops : List (BitVec 8)} {d : BitVec 8} {f : State → Nat → FRes} :
    Leaves P (floatSync u pops d f s) := leaves_issue h (leaves_withFlags h fun _ ht => leaves_syncResult ht)

theorem leaves_execFdiv {b a d : BitVec 8} : Leaves P (execFdiv b a d s) := leaves_issue h (leaves_asyncResult h)

theorem leaves_floatFun {round : Bool} {clk : Nat} {g : Nat → Nat → FRes} {a d : BitVec 8} : Leaves P (floatFun round clk g a d s) :=
  leaves_issue h (leaves_asyncResult h)

theorem leaves_doubleOp {mx : ModxUse} {rd : List Reg} {clk : Nat} {d : BitVec 8} {f : State → Nat → FRes} :
    Leaves P (doubleOp mx rd clk d f s) := leaves_issue h (leaves_asyncResult64 h)

theorem leaves_compareOp {mx : ModxUse} {a b : BitVec 8} {d : BitVec 7} {f : State → Nat → Bool} {fl : State → Nat → FFlags} :
    Leaves P (compareOp mx a b d f fl s) := leaves_issue h (leaves_withFlags h fun _ ht => leaves_maskResult ht)

theorem leaves_cvtOp {neg : Bool} {sign : Word} {a d : BitVec 8} {f : Word → FRes} : Leaves P (cvtOp neg sign a d f s) :=
  leaves_floatSync h

theorem leaves_cvtFrom64 {neg : Bool} {lit : Word → Dword} {a d : BitVec 8} {f : Dword → FRes} :
    Leaves P (cvtFrom64 neg lit a d f s) := leaves_floatSync h

theorem leaves_cvtTo64 {u : Uses} {pops : List (BitVec 8)} {d : BitVec 8} {f : State → Nat → FRes} :
    Leaves P (cvtTo64 u pops d f s) := leaves_issue h (leaves_withFlags h fun _ ht => leaves_syncResult64 ht)

theorem leaves_halfFloat {f : Nat → Nat → FRes} {b : BitVec 5} {d : BitVec 6} : Leaves P (halfFloat f b d s) := leaves_floatSync h

/-! ### Operations across lanes -/

theorem leaves_execVote {a : BitVec 8} {d : BitVec 7} : Leaves P (execVote a d s) := leaves_issue h (leaves_maskResult h)
theorem leaves_execSel {x : BitVec 7} {a d : BitVec 8} : Leaves P (execSel x a d s) := leaves_issue h (leaves_syncResult h)
theorem leaves_execMovs {x : BitVec 7} {d : BitVec 8} : Leaves P (execMovs x d s) := leaves_issue h (leaves_syncResult h)
theorem leaves_execLea {x : BitVec 7} {a d : BitVec 8} : Leaves P (execLea x a d s) := leaves_issue h (leaves_syncResult64 h)
theorem leaves_execReadlane {x : BitVec 7} {a : BitVec 8} {d : BitVec 7} : Leaves P (execReadlane x a d s) := leaves_issue h (by simp [h])

theorem leaves_shuffle {rd : List Reg} {pops : List (BitVec 8)} {a d : BitVec 8} {src : State → Nat → Option Nat} {own : Bool} :
    Leaves P (shuffle rd pops a d src own s) := leaves_issue h (leaves_asyncResult h)

theorem leaves_reduction {clk : Nat} {o : BitVec 4} {a d : BitVec 8} {pick : (Nat → Nat → FRes) → (Nat → Node) → Nat → Node} :
    Leaves P (reduction clk o a d pick s) := leaves_issue h (leaves_asyncResult h)

theorem leaves_execCullbf {b a : BitVec 8} {d : BitVec 7} : Leaves P (execCullbf b a d s) := leaves_issue h (leaves_maskResult h)
theorem leaves_execCullfr {b a : BitVec 8} {d : BitVec 7} : Leaves P (execCullfr b a d s) := leaves_issue h (leaves_maskResult h)
theorem leaves_execCullsz {a : BitVec 8} {d : BitVec 7} : Leaves P (execCullsz a d s) := leaves_issue h (leaves_maskResult h)
theorem leaves_execBary {b a d : BitVec 8} : Leaves P (execBary b a d s) := leaves_issue h (leaves_withFlags h fun _ ht => by simp [ht])
end

/-! ## Updates that write memory -/

/-! ### Bytes written to memory -/

theorem canonical_publishLine {m : Memory} {e : Nat × LineBytes} (h : Canonical m) : Canonical (publishLine m e) := by
  refine storeWf_foldl _ (fun m i hm => ?_) _ h
  split
  · exact storeWf_storeWrite _ _ hm
  · exact hm

theorem canonical_lowerDep {m : Memory} {pa : Nat} (h : Canonical m) : Canonical (lowerDep m pa).1 := by
  dsimp only [lowerDep]
  split
  · exact h
  · exact wf_writeBytes _ _ _ h

section
variable {s : State} (h : Canonical s.mem)
include h

@[simp] theorem canonical_loseData {line : Nat} : Canonical (s.loseData line).mem := by
  unfold State.loseData
  split
  · exact storeWf_storePaste _ _ _ h
  · exact h

@[simp] theorem canonical_publish {fwd : Bool} {e : Nat × LineBytes} : Canonical (s.publish fwd e).mem := by
  dsimp only [State.publish]
  split
  · simpa using h
  · have hm : Canonical ((s.touchSlice (e.2.streaming && !fwd) e.1).makeDirty e.1).mem := by simpa using h
    simpa using canonical_publishLine hm

@[simp] theorem canonical_commitBytes {pa : Nat} {bs : List Byte} : Canonical (s.commitBytes pa bs).mem := by
  unfold State.commitBytes
  split
  · exact foldl_leaves (fun s l hs => by simpa using hs) h
  · refine foldl_leaves (fun s l hs => by simpa using hs) (wf_putBytes _ _ ?_)
    exact foldl_leaves (fun s l hs => by simpa using hs) h

@[simp] theorem canonical_orEntry {entry : Nat} {bits : Byte} : Canonical (s.orEntry entry bits).mem :=
  canonical_commitBytes h

@[simp] theorem canonical_poison {line : Nat} : Canonical (s.poison line).mem := by
  unfold State.poison
  split <;> simp [h]

@[simp] theorem canonical_reloadLine {line : Nat} : Canonical (s.reloadLine line).mem := by
  simp [State.reloadLine, h]

@[simp] theorem canonical_dropForward {core line : Nat} : Canonical (s.dropForward core line).mem := by
  unfold State.dropForward
  split <;> simp [h]

@[simp] theorem canonical_lowerCard {pa : Nat} : Canonical (s.lowerCard pa).mem := by
  have hm : Canonical (lowerDep ((s.makeDirty (lineOf pa)).lineWritten (lineOf pa)).mem pa).1 :=
    canonical_lowerDep (by simpa using h)
  simp only [State.lowerCard]
  split <;> simpa using hm

@[simp] theorem canonical_saveBytes {block : Nat} : Canonical (s.saveBytes block).mem := by
  have hm : ∀ (as : List Nat) (f : Nat → Byte), Canonical (storeFill s.mem as f) := fun as f => storeWf_storeFill as f h
  unfold State.saveBytes
  refine foldl_leaves (fun s i hs => by rw [State.markWritten_mem]; exact hs) ?_
  dsimp only
  apply hm

@[simp] theorem canonical_commitRegion {g : Group} {next : Region} : Canonical (s.commitRegion g next).mem := by
  simp only [State.commitRegion, State.releaseCommands_mem, State.modGroup_mem, State.modDev_mem]
  refine foldl_leaves (fun s e hs => by simpa using hs) <| foldl_leaves (fun s l hs => canonical_dropForward hs) <|
    foldl_leaves (fun s pa hs => canonical_lowerCard hs) <| foldl_leaves (fun s e hs => canonical_publish hs) h

/-! ### Reservoir records -/

@[simp] theorem canonical_writeBackRsv {r : RsvLine} : Canonical (s.writeBackRsv r).mem := by
  unfold State.writeBackRsv
  split
  · rw [State.markWritten_mem]; exact storeWf_storePaste _ _ _ h
  · exact h

@[simp] theorem canonical_rsvTake {pa slice set : Nat} : Canonical (s.rsvTake pa slice set).1.mem := by
  have hb : ∀ l : List RsvLine, Canonical (l.foldl State.writeBackRsv s).mem := fun l =>
    foldl_leaves (fun s r hs => canonical_writeBackRsv hs) h
  dsimp only [State.rsvTake]
  split
  · exact hb _
  · split
    · exact h
    · exact hb _

@[simp] theorem canonical_readRecord {l : Launch} {d plane x y : Nat} : Canonical (s.readRecord l d plane x y).1.mem := by
  simp only [State.readRecord]
  split <;> rename_i e <;> exact (e ▸ canonical_rsvTake h :)

@[simp] theorem canonical_writeRecord {l : Launch} {d plane x y : Nat} {w : List Word} : Canonical (s.writeRecord l d plane x y w).mem := by
  simp only [State.writeRecord]
  split <;> rename_i e <;> have ht := e ▸ canonical_rsvTake h
  · exact ht
  · rw [State.markWritten_mem]; exact wf_putBytes _ _ ht

@[simp] theorem canonical_setRsvWays {n : Nat} : Canonical (s.setRsvWays n).mem := by
  unfold State.setRsvWays
  refine foldl_leaves (fun s e hs => ?_) (by simpa using h)
  exact foldl_leaves (fun s r hs => canonical_writeBackRsv hs) hs

@[simp] theorem canonical_startLaunch {b : Nat} {t : Task} {l : Launch} : Canonical (s.startLaunch b t l).mem := by
  simp only [State.startLaunch, State.after_mem, State.enqueue_mem]
  split
  · rw [State.modDev_mem, foldl_mem fun _ _ => by simp]; exact h
  · refine canonical_setRsvWays ?_
    rw [State.modDev_mem, foldl_mem fun _ _ => by simp]; exact h

@[simp] theorem canonical_endLaunch {l : Nat} : Canonical (s.endLaunch l).mem := by
  unfold State.endLaunch
  split
  · exact h
  · dsimp only
    split
    · exact h
    · apply canonical_setRsvWays
      exact h

/-! ### Walks -/

@[simp] theorem canonical_walkFor {ctx va acc : Nat} : Canonical (s.walkFor ctx va acc).1.mem := by
  dsimp only [State.walkFor]
  split
  · split
    · exact h
    · split
      · exact h
      · split
        · apply canonical_orEntry
          exact h
        · exact h
  · exact h

@[simp] theorem canonical_engineVa {core ctx va acc : Nat} : Canonical (s.engineVa core ctx va acc).1.mem := by
  unfold State.engineVa
  split
  · exact canonical_walkFor h
  · split
    · split <;> exact h
    · split
      · next e =>
        have ht := e ▸ canonical_walkFor h
        simpa using ht
      · exact canonical_walkFor h
end

/-- Whatever an engine's access comes to, the memory it leaves is one of which `P` holds. -/
@[simp] def EngineAt.Leaves (P : Memory → Prop) : EngineAt → Prop
  | .ok s _ | .again s | .fault s _ => P s.mem

section
variable {s : State} (h : Canonical s.mem)
include h

theorem engineAt_leaves {core ctx va acc : Nat} {mine : Nat → Bool} :
    (s.engineAt core ctx va acc mine).Leaves Canonical := by
  simp only [State.engineAt]
  split
  · exact h
  · split <;> rename_i e <;> have hv := e ▸ canonical_engineVa h
    · (repeat' split) <;> simpa using hv
    · simpa using hv
    · exact hv
    · split <;> rename_i e' <;> simpa [mem_of_tryAgain e'] using hv
end

/-! ## Results that carry states

The memory of every state that a result may carry, for the results of cards, copies, maps, units and jobs as `EngineAt.Leaves` for those of
an access. A case split on a result gives an equation `e`, and `e ▸ …` brings the fact about the call to the state of that case. -/

@[simp] def Pieces.Leaves (P : Memory → Prop) : Pieces → Prop
  | .ok s _ | .again s | .fault s _ _ => P s.mem

@[simp] def Carded.Leaves {α : Type} (P : Memory → Prop) : Carded α → Prop
  | .ok _ s | .fatal s | .again s | .fault s _ _ | .area s => P s.mem

theorem Carded.Leaves.bind {α β : Type} {P : Memory → Prop} {c : Carded α} {f : α → State → Carded β} (hc : c.Leaves P)
    (hf : ∀ x t, P t.mem → (f x t).Leaves P) : (c.bind f).Leaves P := by
  cases c with
  | ok x s => exact hf x s hc
  | _ => exact hc

section
variable {s : State} (h : Canonical s.mem)
include h

@[simp] theorem canonical_spill {id : Nat} {m : FMsg} : Canonical (s.spill id m).mem := by
  simp only [State.spill, State.sweepWithin_mem]
  split
  · rw [State.askRefill_mem, State.putMsg_mem]
    apply canonical_commitBytes
    exact h
  · rw [State.putMsg_mem]
    apply canonical_commitBytes
    exact h

@[simp] theorem canonical_keepMsg {id : Nat} {m : FMsg} : Canonical (s.keepMsg id m).mem := by
  simp only [State.keepMsg]
  (repeat' split) <;> simp [h]

@[simp] theorem canonical_arriveMsg {id : Nat} {m : FMsg} : Canonical (s.arriveMsg id m).mem := by
  simp only [State.arriveMsg]
  (repeat' split) <;> simp [h]

@[simp] theorem canonical_fromPeer {id k : Nat} {final : Bool} {m : FMsg} : Canonical (s.fromPeer id k final m).mem := by
  simp only [State.fromPeer]
  (repeat' split) <;> simp [h]

@[simp] theorem canonical_holdDelivery {id : Nat} {m : FMsg} {clock : Bool} : Canonical (s.holdDelivery id m clock).mem := by
  simp only [State.holdDelivery]
  (repeat' split) <;> simp [h]

theorem pieces_leaves {core ctx acc : Nat} {mine : Nat → Bool} {fuel va done n : Nat} :
    (s.pieces core ctx acc mine fuel va done n).Leaves Canonical := by
  induction fuel generalizing s va done n with
  | zero => exact h
  | succ fuel ih =>
    simp only [State.pieces]
    split
    · exact h
    · split <;> rename_i e <;> have he := e ▸ engineAt_leaves h
      · exact he
      · exact he
      · split
        · next e => exact (e ▸ ih he :)
        · exact ih he

@[simp] theorem canonical_putPieces {l : List (Nat × Nat)} {bs : List Byte} : Canonical (s.putPieces l bs).mem := by
  induction l generalizing s bs with
  | nil => exact h
  | cons e l ih => exact ih (canonical_commitBytes h)

@[simp] theorem canonical_putLogged {core id : Nat} {l : List (Nat × Nat)} {bs : List Byte} :
    Canonical (s.putLogged core id l bs).mem := by
  induction l generalizing s bs with
  | nil => exact h
  | cons e l ih =>
    simp only [State.putLogged]
    apply ih
    split <;> simp [h]

@[simp] theorem canonical_readMap {b : Nat} : Canonical (s.readMap b).1.mem := by
  simp only [State.readMap]
  split <;> rename_i e <;> exact (e ▸ pieces_leaves h :)

@[simp] theorem canonical_writeInline {ctx va : Nat} {bs : List Byte} : Canonical (s.writeInline ctx va bs).1.mem := by
  simp only [State.writeInline]
  split <;> rename_i e
  · exact canonical_putPieces (e ▸ pieces_leaves h :)
  · exact (e ▸ pieces_leaves h :)
  · have hf := e ▸ pieces_leaves h
    split
    · next e => exact canonical_putPieces (e ▸ pieces_leaves h :)
    · exact hf

/-! ### Cards -/

theorem spillAt_leaves {t i acc : Nat} {c : CardTable} : (s.spillAt t c i acc).Leaves Canonical := by
  simp only [State.spillAt]
  split
  · simpa using h
  · split <;> rename_i e <;> have he := e ▸ engineAt_leaves h
    · exact he
    · exact he
    · split <;> exact he

theorem cardSet_leaves {t v : Nat} {c : CardTable} {at_ : CardAt} : (s.cardSet t c at_ v).Leaves Canonical := by
  cases at_ with
  | slot x => simpa [State.cardSet] using h
  | log i e => exact (spillAt_leaves h).bind fun pa t ht => canonical_commitBytes ht

theorem cardPlace_leaves {t k key v : Nat} {c : CardTable} : (s.cardPlace t k c key v).Leaves Canonical := by
  unfold State.cardPlace
  split
  · simpa using h
  · split
    · exact h
    · split
      · exact h
      · exact (spillAt_leaves h).bind fun pa t ht => by simp [ht]

theorem spillEntry_leaves {t i : Nat} {c : CardTable} : (s.spillEntry t c i).Leaves Canonical := by
  unfold State.spillEntry
  split
  · exact h
  · exact (spillAt_leaves h).bind fun pa t ht => by simpa using ht

theorem logFind_leaves {t key i n : Nat} {c : CardTable} : (s.logFind t c key i n).Leaves Canonical := by
  induction n generalizing s i with
  | zero => exact h
  | succ n ih =>
    refine (spillEntry_leaves h).bind fun e t ht => ?_
    split
    · exact ht
    · exact ih ht

theorem spillLog_leaves {t i n : Nat} {c : CardTable} : (s.spillLog t c i n).Leaves Canonical := by
  induction n generalizing s i with
  | zero => exact h
  | succ n ih => exact (spillEntry_leaves h).bind fun e t ht => (ih ht).bind fun l u hu => hu

theorem wholeLog_leaves {t : Nat} {c : CardTable} : (s.wholeLog t c).Leaves Canonical := spillLog_leaves h

theorem cardFind_leaves {t key : Nat} {c : CardTable} : (s.cardFind t c key).Leaves Canonical := by
  unfold State.cardFind
  split
  · exact h
  · split
    · exact logFind_leaves h
    · exact h

theorem cardRemove_leaves {t k : Nat} {c : CardTable} {at_ : CardAt} : (s.cardRemove t k c at_).Leaves Canonical := by
  cases at_ with
  | slot x => simpa [State.cardRemove] using h
  | log i e => exact (spillAt_leaves h).bind fun pa t ht => canonical_commitBytes ht

theorem cardStep_leaves {op t k key v : Nat} {opt : Bool} {fl : FFlags} : (s.cardStep op t k opt key v fl).Leaves Canonical := by
  unfold State.cardStep
  split
  · exact h
  · refine (cardFind_leaves h).bind fun found t ht => ?_
    split
    · split
      · exact ht
      · exact (cardPlace_leaves ht).bind fun ok t ht => ht
    · dsimp only
      split
      · split
        · exact (cardSet_leaves ht).bind fun _ t ht => ht
        · exact ht
      · exact ht
      · exact (cardRemove_leaves ht).bind fun _ t ht => ht
      · exact (cardSet_leaves ht).bind fun _ t ht => ht

theorem cardLanes_leaves {op t k : Nat} {opt : Bool} {keyOf valOf : Nat → Nat} {all l : List Nat} :
    (s.cardLanes op t k opt keyOf valOf all l).Leaves Canonical := by
  induction l generalizing s with
  | nil => exact h
  | cons l r ih =>
    simp only [State.cardLanes]
    split
    · exact ih h
    · split
      · exact ih (by simpa using h)
      · split <;> rename_i e <;> have hc := e ▸ cardStep_leaves h
        · exact ih (by simpa using hc)
        · exact ih (by simpa using hc)
        · exact hc
        · exact hc
        · exact hc

end

@[simp] theorem cardStop_leaves {α : Type} {c : Carded α} {table : Nat} {args : List Nat} (hc : c.Leaves Canonical) :
    Canonical (cardStop table args c).mem := by
  cases c with
  | fault s va w =>
    simp only [cardStop]
    split <;> simpa using hc
  | _ => simpa [cardStop] using hc

/-! ### Copies -/

@[simp] def RowEnd.Leaves (P : Memory → Prop) : RowEnd → Prop
  | .done s _ _ | .again s _ | .fault s _ _ _ | .stop s _ _ _ => P s.mem

@[simp] def SlotTurn.Leaves (P : Memory → Prop) : SlotTurn → Prop
  | .now s _ | .wait s _ => P s.mem
  | .gone => True

@[simp] def Unpacked.Leaves (P : Memory → Prop) : Unpacked → Prop
  | .ok s _ _ | .corrupt s | .again s | .fault s _ _ => P s.mem

@[simp] def Packed.Leaves (P : Memory → Prop) : Packed → Prop
  | .ok p | .fault p _ _ | .stop p _ => P p.s.mem
  | .again s => P s.mem

/-- What a reader of several pieces answers: the state and what it read, or a state at which it stopped. -/
@[simp] def ReadLeaves {α β : Type} (P : Memory → Prop) : Except (β × State) (State × α) → Prop
  | .ok (s, _) | .error (_, s) => P s.mem

section
variable {s : State} (h : Canonical s.mem)
include h

theorem slotTurn_leaves {core n : Nat} {c : CopyCmd} : (s.slotTurn core n c).Leaves Canonical := by
  unfold State.slotTurn
  (repeat' split) <;> simp [h]

theorem readElems_leaves {core id i : Nat} {c : CopyCmd} {b : Box} {l : List (Nat × Nat)} :
    ReadLeaves Canonical (s.readElems core id c b i l) := by
  induction l generalizing s i with
  | nil => exact h
  | cons e l ih =>
    have rest : ∀ (t : State) (bs : List Byte), Canonical t.mem → ReadLeaves (β := Option (Nat × XFault)) Canonical
        (match t.readElems core id c b (i + 1) l with
          | .ok (s, l) => .ok (s, (e.2, bs) :: l)
          | .error e => .error e) := by
      intro t bs ht
      split <;> rename_i e <;> exact (e ▸ ih ht :)
    unfold State.readElems
    split
    · split <;> rename_i e
      · exact rest _ _ (e ▸ pieces_leaves h :)
      · exact (e ▸ pieces_leaves h :)
      · exact (e ▸ pieces_leaves h :)
    · split <;> exact rest _ _ h
    · exact rest _ _ h

theorem destPieces_leaves {core id z i : Nat} {c : CopyCmd} {l : List (Nat × List Byte)} :
    ReadLeaves Canonical (s.destPieces core id c z i l) := by
  induction l generalizing s i with
  | nil => exact h
  | cons e l ih =>
    unfold State.destPieces
    split <;> rename_i e
    · exact (e ▸ pieces_leaves h :)
    · exact (e ▸ pieces_leaves h :)
    · split <;> rename_i e' <;> exact (e' ▸ ih (e ▸ pieces_leaves h :) :)

theorem chunkAt_leaves {core id n : Nat} {c : CopyCmd} {b : Box} : ReadLeaves Canonical (s.chunkAt core id c b n) := by
  simp only [State.chunkAt]
  split
  · split <;> rename_i e <;> exact (e ▸ pieces_leaves h :)
  · split <;> exact h

theorem writeElems_leaves {core id row : Nat} {c : CopyCmd} {b : Box} {l : List (Nat × List Byte)} :
    (s.writeElems core id c b row l).Leaves Canonical := by
  simp only [State.writeElems]
  split
  · split
    · exact h
    · exact foldl_leaves (fun t e ht => by simpa using ht) h
  · split <;> rename_i e
    · exact h
    · exact (e ▸ slotTurn_leaves h :)
    · have ht := e ▸ slotTurn_leaves h
      split
      · split
        · exact ht
        · split
          · exact ht
          · simpa using ht
      · split
        · exact ht
        · exact foldl_leaves (P := Canonical) (fun t e ht => by simpa using ht) ht
  · exact foldl_leaves (fun t d ht => foldl_leaves (fun t e ht => by simpa using ht) ht)
      (foldl_leaves (fun t e ht => by split <;> simpa using ht) h)
  · split <;> rename_i e
    · exact (e ▸ destPieces_leaves h :)
    · exact (e ▸ destPieces_leaves h :)
    · exact foldl_leaves (fun t e ht => canonical_putLogged ht) (e ▸ destPieces_leaves h :)

theorem plainRow_leaves {core id : Nat} {c : CopyCmd} {b : Box} : (s.plainRow core id c b).Leaves Canonical := by
  simp only [State.plainRow]
  split <;> rename_i e
  · exact (e ▸ readElems_leaves h :)
  · exact (e ▸ readElems_leaves h :)
  · have ht := e ▸ readElems_leaves h
    split
    · next e => exact (e ▸ writeElems_leaves ht :)
    · exact writeElems_leaves ht

theorem unpackRow_leaves {core id fuel n : Nat} {c : CopyCmd} {b : Box} {v : Conv} {x : Option Nat} {acc : List Nat} :
    (s.unpackRow core id c b fuel n v x acc).Leaves Canonical := by
  induction fuel generalizing s n v x acc with
  | zero => cases n <;> exact h
  | succ fuel ih =>
    cases n with
    | zero => exact h
    | succ n =>
      simp only [State.unpackRow]
      split
      · split
        · exact h
        · exact ih h
      · split <;> rename_i e <;> have ht := e ▸ chunkAt_leaves h
        · exact ht
        · exact ht
        · exact ht
        · split
          all_goals
            split
            · split
              · exact ht
              · exact ih ht
            · exact ih ht

theorem unpackStep_leaves {core id : Nat} {c : CopyCmd} {b : Box} : (s.unpackStep core id c b).Leaves Canonical := by
  unfold State.unpackStep
  split <;> rename_i e <;> have ht := e ▸ unpackRow_leaves h
  · exact ht
  · exact ht
  · exact ht
  · dsimp only
    split
    · next e => exact (e ▸ writeElems_leaves ht :)
    · exact writeElems_leaves ht
end

section
variable {p : Packing} (h : Canonical p.s.mem)
include h

theorem putChunk_leaves {core id : Nat} {c : CopyCmd} {b : Box} : (p.putChunk core id c b).Leaves Canonical := by
  simp only [Packing.putChunk]
  split
  · split
    · split
      · simpa [Packing.creditBelow] using h
      · exact h
    · exact h
  · split <;> rename_i e <;> have ht := e ▸ pieces_leaves h
    · exact canonical_putLogged ht
    · exact ht
    · exact ht

theorem sym_leaves {core id sym low lowBits n : Nat} {c : CopyCmd} {b : Box} : (p.sym core id c b sym low lowBits n).Leaves Canonical := by
  simp only [Packing.sym]
  split
  · exact h
  · split
    · split <;> exact h
    · split
      · next e =>
        have ht := e ▸ putChunk_leaves h
        split <;> exact ht
      · exact putChunk_leaves h

theorem finish_leaves {core id : Nat} {c : CopyCmd} {b : Box} : (p.finish core id c b).Leaves Canonical := by
  have last : ∀ x : Packed, x.Leaves Canonical → Packed.Leaves Canonical (match x with
      | .ok p => if p.v.elems = 0 then .ok p else p.putChunk core id c b
      | x => x) := by
    intro x hx
    split
    · split
      · exact hx
      · exact putChunk_leaves hx
    · exact hx
  have close : ∀ x : Packed, x.Leaves Canonical → Packed.Leaves Canonical (match x with
      | .ok p => .ok (p.creditBelow p.v.chunk)
      | x => x) := by
    intro x hx
    split <;> exact hx
  refine close _ (last _ ?_)
  split
  · exact h
  · apply sym_leaves
    exact h

theorem elems_leaves {core id : Nat} {c : CopyCmd} {b : Box} {l : List Nat} : (Packing.elems core id c b l p).Leaves Canonical := by
  induction l generalizing p with
  | nil => exact h
  | cons x r ih =>
    have next : ∀ x : Packed, x.Leaves Canonical → Packed.Leaves Canonical (match x with
        | .ok p => Packing.elems core id c b r p
        | x => x) := by
      intro x hx
      split
      · exact ih hx
      · exact hx
    refine next _ ?_
    split
    · apply sym_leaves
      exact h
    · split
      · apply sym_leaves
        exact h
      · exact h
end

theorem rowEnd_leaves {c : CopyCmd} {fin : Packing → RowEnd} {x : Packed} (hx : x.Leaves Canonical)
    (hf : ∀ p : Packing, Canonical p.s.mem → (fin p).Leaves Canonical) : (x.rowEnd c fin).Leaves Canonical := by
  cases x with
  | ok p => exact hf p hx
  | again s => exact hx
  | fault p va f => simpa [Packed.rowEnd] using hx
  | stop p st =>
    simp only [Packed.rowEnd]
    split <;> simpa using hx

section
variable {s : State} (h : Canonical s.mem)
include h

theorem packStep_leaves {core id : Nat} {c : CopyCmd} {b : Box} : (s.packStep core id c b).Leaves Canonical := by
  simp only [State.packStep]
  split <;> rename_i e <;> have ht := e ▸ readElems_leaves h
  · exact ht
  · exact ht
  · refine rowEnd_leaves (by apply elems_leaves; exact ht) fun p hp => ?_
    split
    · refine rowEnd_leaves (by apply finish_leaves; exact hp) fun p hp => ?_
      split <;> simpa using hp
    · exact hp

theorem cancelStep_leaves {core id : Nat} {c : CopyCmd} {b : Box} : (s.cancelStep core id c b).Leaves Canonical := by
  simp only [State.cancelStep]
  split
  · exact h
  · have ht : ((Packing.finish ({ s := s, v := c.conv, rows := c.pending } : Packing) core id c b).rowEnd c fun p =>
        RowEnd.stop p.s c p.credits barCancelled).Leaves Canonical :=
      rowEnd_leaves (by apply finish_leaves; exact h) fun p hp => hp
    split
    · next e => exact (e ▸ ht :)
    · exact ht

theorem copyRow_leaves {core id : Nat} {c : CopyCmd} {b : Box} : (s.copyRow core id c b).Leaves Canonical := by
  unfold State.copyRow
  split
  · exact cancelStep_leaves h
  · split
    · exact packStep_leaves h
    · exact unpackStep_leaves h
    · exact plainRow_leaves h
end

/-! ### Other results -/

@[simp] def EvalRead.Leaves (P : Memory → Prop) : EvalRead → Prop
  | .ok s _ | .again s | .fault s _ _ => P s.mem

@[simp] def WroteBack.Leaves (P : Memory → Prop) : WroteBack → Prop
  | .done s | .again s | .fault s _ _ => P s.mem

@[simp] def JobRead.Leaves {α : Type} (P : Memory → Prop) : JobRead α → Prop
  | .ok s _ | .again s | .fault s _ _ => P s.mem

@[simp] def Recheck.Leaves (P : Memory → Prop) : Recheck → Prop
  | .ok s | .moved s | .again s | .fault s _ _ _ => P s.mem

@[simp] def Lane.Leaves {α : Type} (P : Memory → Prop) : Lane α → Prop
  | .ok s _ | .more s _ | .again s _ | .fault s _ _ _ _ => P s.mem

theorem Lane.Leaves.bind {α β : Type} {P : Memory → Prop} {x : Lane α} {k : State → α → Lane β} (hx : x.Leaves P)
    (hk : ∀ t a, P t.mem → (k t a).Leaves P) : (x.bind k).Leaves P := by
  cases x with
  | ok s a => exact hk s a hx
  | _ => exact hx

theorem Lane.Leaves.at {α : Type} {P : Memory → Prop} {x : Lane α} {t : Trav} (hx : x.Leaves P) : (x.at t).Leaves P := by
  cases x <;> exact hx

section
variable {s : State} (h : Canonical s.mem)
include h

/-! ### Maps and evaluators -/

theorem evalReads_leaves {n : Nat} {l : List (Nat × Nat)} : (s.evalReads n l).Leaves Canonical := by
  induction l generalizing s with
  | nil => exact h
  | cons e l ih =>
    unfold State.evalReads
    split <;> rename_i e <;> have ht := e ▸ engineAt_leaves h
    · exact ht
    · exact ht
    · split
      · next e => exact (e ▸ ih ht :)
      · exact ih ht

theorem writeBack_leaves {t m n : Nat} : (s.writeBack t m n).Leaves Canonical := by
  induction n generalizing s with
  | zero => exact h
  | succ n ih =>
    simp only [State.writeBack]
    split
    · exact h
    · split
      · exact h
      · split <;> rename_i e <;> have ht := e ▸ engineAt_leaves h
        · exact ht
        · simpa using ht
        · exact ih (by rw [State.modTeam_mem]; exact foldl_leaves (fun t e ht => canonical_commitBytes ht) ht)

theorem canonical_unmapAll {t : Nat} {l : List (Nat × MapRegion)} {u : State} (hu : s.unmapAll t l = some u) : Canonical u.mem := by
  induction l generalizing s with
  | nil => cases hu; exact h
  | cons e l ih =>
    simp only [State.unmapAll] at hu
    split at hu
    · exact ih (by simpa using h) hu
    · split at hu <;> rename_i e
      · cases hu
      all_goals
        have ht : Canonical _ := (e ▸ writeBack_leaves (by simpa using h) :)
        exact ih (by simpa using ht) hu

@[simp] theorem canonical_lateAct {core slot team : Nat} {o : Async} : Canonical (s.lateAct core slot team o).mem := by
  have out : ∀ (t : State) (c : Bool) (m : Nat), Canonical t.mem → Canonical (if c then t.disarm team m else t).mem := by
    intro t c m ht
    split <;> simpa using ht
  simp only [State.lateAct]
  split
  · simpa using h
  · split
    · exact out _ _ _ h
    · split <;> rename_i e <;> have ht := e ▸ writeBack_leaves h
      · simpa using ht
      · exact out _ _ _ ht
      · exact out _ _ _ ht
  · simpa using h
  · split
    · simpa using h
    · split <;> simpa using h
  · simpa using h

@[simp] theorem canonical_finishWriteBack {core slot m split : Nat} {o : Async} {unmap : Bool} {pc : Word} :
    Canonical (s.finishWriteBack core slot o m unmap split pc).mem := by
  simp only [State.finishWriteBack]
  split
  · exact h
  · split
    · simpa using h
    · split <;> rename_i e <;> have ht := e ▸ writeBack_leaves h
      · simpa using ht
      · simpa using ht
      · rw [State.finishOp_mem]; split <;> simpa using ht

/-! ### Regions and walks -/

theorem recheck_leaves {core : Nat} {l : List (Nat × Nat × Nat × Nat)} : (s.recheck core l).Leaves Canonical := by
  induction l generalizing s with
  | nil => exact h
  | cons e l ih =>
    obtain ⟨acc, line, va, ctx⟩ := e
    simp only [State.recheck]
    split <;> rename_i e <;> have hv := e ▸ canonical_engineVa h
    · split
      · exact ih (by simpa using hv)
      · simpa using hv
    · simpa using hv
    · exact hv
    · split <;> rename_i e' <;> simpa [mem_of_tryAgain e'] using hv

@[simp] theorem canonical_prefetch {va : Nat} : Canonical (s.prefetch va).mem := by
  unfold State.prefetch
  split
  · simpa using h
  · exact h
  · split <;> rename_i e <;> have hv := e ▸ canonical_engineVa h <;> simpa using hv

@[simp] theorem canonical_tryWalk {core ctx va acc : Nat} {again : Event} : Canonical (s.tryWalk core ctx va acc again).mem := by
  simp only [State.tryWalk]
  split
  · split <;> simpa using h
  · split <;> rename_i e <;> have hv := e ▸ canonical_walkFor h
    · simpa using hv
    · simpa using hv
    · simpa using hv
    · split <;> rename_i e' <;> simpa [mem_of_tryAgain e'] using hv

@[simp] theorem canonical_reach {ctx win off : Nat} : Canonical (s.reach ctx win off).1.mem := by
  unfold State.reach
  split
  · exact h
  · split <;> rename_i e <;> exact (e ▸ engineAt_leaves h :)

theorem canonical_harvestLeaf {entry p m : Nat} {r : State × Nat} (hr : s.harvestLeaf entry p m = some r) : Canonical r.1.mem := by
  simp only [State.harvestLeaf] at hr
  split at hr
  · cases hr
  · cases hr
    split
    · apply canonical_orEntry
      exact h
    · exact h

@[simp] theorem canonical_harvest {ctx win fuel pg n c : Nat} : Canonical (s.harvest ctx win fuel pg n c).s.mem := by
  induction fuel generalizing s pg n c with
  | zero => exact h
  | succ fuel ih =>
    have hl := s.leafEntry_mem ctx (win * 2 ^ 64 + pg % 2 ^ 48 * 65536)
    unfold State.harvest
    split
    · exact h
    · split <;> rename_i e <;> rw [e] at hl <;> dsimp only at hl
      · rwa [hl]
      · exact ih (by rwa [hl])
      · dsimp only
        split
        · rwa [hl]
        · next e => exact ih (canonical_harvestLeaf (by rwa [hl]) e)

@[simp] theorem canonical_complete {id recVa cardVa : Nat} {g : Grid} {rec card : Reach} :
    Canonical (s.complete id g rec card recVa cardVa).mem := by
  have hr : ∀ (t : State) (ws : List Byte), Canonical t.mem → Canonical (State.mem <| match rec with
      | .pa pa => t.commitBytes pa ws
      | .fault => t.say (.completionFault g.task.ctx g.task.cardVa recVa)
      | _ => t) := by
    intro t ws ht
    split
    · exact canonical_commitBytes ht
    · rwa [State.say_mem]
    · exact ht
  have hc : ∀ t : State, Canonical t.mem → Canonical (State.mem <| match card with
      | .pa pa => t.lowerCard pa
      | .fault => t.say (.completionFault g.task.ctx g.task.cardVa cardVa)
      | _ => t) := by
    intro t ht
    split
    · exact canonical_lowerCard ht
    · rwa [State.say_mem]
    · exact ht
  apply canonical_endLaunch
  split
  · rw [State.say_mem]
    apply hc
    apply hr
    exact h
  · apply hc
    apply hr
    exact h

/-! ### Ray units -/

theorem unitRead_leaves {core id ctx va n : Nat} : (s.unitRead core id ctx va n).Leaves Canonical := by
  unfold State.unitRead
  split <;> rename_i e <;> exact (e ▸ engineAt_leaves h :)

theorem branchProb_leaves {core id left : Nat} {o : RayOp} {p n : Nat → Nat} : (s.branchProb core id o left p n).Leaves Canonical :=
  (unitRead_leaves h).bind fun _ _ ht => (unitRead_leaves ht).bind fun _ _ hu => hu

theorem lightWalk_leaves {core id fuel node x pdf : Nat} {o : RayOp} {p n : Nat → Nat} :
    (s.lightWalk core id o p n fuel node x pdf).Leaves Canonical := by
  induction fuel generalizing s node x pdf with
  | zero =>
    unfold State.lightWalk
    refine (unitRead_leaves h).bind fun t b ht => ?_
    dsimp only
    split <;> exact ht
  | succ fuel ih =>
    unfold State.lightWalk
    refine (unitRead_leaves h).bind fun t b ht => ?_
    dsimp only
    split
    · exact ht
    · exact (branchProb_leaves ht).bind fun _ _ hu => ih hu

theorem walkLane_leaves {core id : Nat} {o : RayOp} {lane : RayLane} : (s.walkLane core id o lane).Leaves Canonical := by
  simp only [State.walkLane]
  split
  · exact h
  · exact lightWalk_leaves h

theorem texel_leaves {core id l : Nat} {o : RayOp} {x y : Int} : (s.texel core id o l x y).Leaves Canonical :=
  (unitRead_leaves h).bind fun _ _ ht => ht

theorem bilinear_leaves {core id l u v : Nat} {o : RayOp} : (s.bilinear core id o l u v).Leaves Canonical :=
  (texel_leaves h).bind fun _ _ h => (texel_leaves h).bind fun _ _ h => (texel_leaves h).bind fun _ _ h =>
    (texel_leaves h).bind fun _ _ h => h

theorem texLane_leaves {core id : Nat} {o : RayOp} {lane : RayLane} : (s.texLane core id o lane).Leaves Canonical := by
  simp only [State.texLane]
  split
  · exact h
  · split
    · refine (bilinear_leaves h).bind fun t a ht => ?_
      split
      · exact ht
      · exact (bilinear_leaves ht).bind fun _ _ hu => hu
    · split
      · exact (bilinear_leaves h).bind fun _ _ hu => hu
      · exact (texel_leaves h).bind fun _ _ hu => hu

theorem queryLane_leaves {core id : Nat} {o : RayOp} {lane : RayLane} : (s.queryLane core id o lane).Leaves Canonical := by
  simp only [State.queryLane]
  split
  · exact h
  · split
    · split
      · exact h
      · exact (unitRead_leaves h).bind fun _ _ hu => hu
    · split
      · exact h
      · refine (unitRead_leaves h).bind fun t b ht => ?_
        split <;> exact ht

theorem lightPath_leaves {core id fuel node : Nat} {o : RayOp} {acc : List (Nat × Bool)} :
    (s.lightPath core id o fuel node acc).Leaves Canonical := by
  induction fuel generalizing s node acc with
  | zero =>
    unfold State.lightPath
    refine (unitRead_leaves h).bind fun t b ht => ?_
    dsimp only
    split <;> exact ht
  | succ fuel ih =>
    unfold State.lightPath
    refine (unitRead_leaves h).bind fun t b ht => ?_
    dsimp only
    split
    · exact ht
    · exact (unitRead_leaves ht).bind fun _ _ hu => ih hu

theorem pathPdf_leaves {core id pdf : Nat} {o : RayOp} {p n : Nat → Nat} {l : List (Nat × Bool)} :
    (s.pathPdf core id o p n l pdf).Leaves Canonical := by
  induction l generalizing s pdf with
  | nil => exact h
  | cons e l ih => exact (branchProb_leaves h).bind fun _ _ hu => ih hu

theorem pdfLane_leaves {core id : Nat} {o : RayOp} {lane : RayLane} : (s.pdfLane core id o lane).Leaves Canonical := by
  simp only [State.pdfLane]
  split
  · exact h
  · refine (unitRead_leaves h).bind fun t b ht => (lightPath_leaves ht).bind fun t b ht => ?_
    split
    · exact ht
    · exact (pathPdf_leaves ht).bind fun _ _ hu => hu

theorem leaf_leaves {core id n pid : Nat} {o : RayOp} {c : InstCtx} {t : Trav} : (s.leaf core id o c n pid t).Leaves Canonical := by
  induction n generalizing s pid t with
  | zero => exact h
  | succ n ih =>
    refine ((unitRead_leaves h).at).bind fun u b hu => ?_
    dsimp only
    split
    · exact hu
    · split
      · exact ih hu
      · split
        · split
          · exact hu
          · exact ih hu
        · exact ih hu

theorem writeBlock_leaves {core id ctx va : Nat} : (s.writeBlock core id ctx va).Leaves Canonical := by
  simp only [State.writeBlock]
  split <;> rename_i e <;> have ht := e ▸ pieces_leaves h
  · apply canonical_putPieces
    exact ht
  · exact ht
  · exact ht

theorem pushTrav_leaves {core id l : Nat} {o : RayOp} {t : Trav} {e : TravEntry} : (s.pushTrav core id o l t e).Leaves Canonical := by
  simp only [State.pushTrav]
  split
  · exact h
  · split
    · exact h
    · exact ((writeBlock_leaves h).at).bind fun _ _ hu => hu

theorem pushAll_leaves {core id l : Nat} {o : RayOp} {t : Trav} {r : List TravEntry} : (s.pushAll core id o l t r).Leaves Canonical := by
  induction r generalizing s t with
  | nil => exact h
  | cons e r ih =>
    refine (pushTrav_leaves h).bind fun u w hu => ?_
    split
    · exact ih hu
    · exact hu

theorem visit_leaves {core id l idx : Nat} {o : RayOp} {t : Trav} {c : InstCtx} : (s.visit core id o l t c idx).Leaves Canonical := by
  refine ((unitRead_leaves h).at).bind fun u b hu => ?_
  split
  · exact hu
  · exact pushAll_leaves hu

theorem popTrav_leaves {core id l : Nat} {o : RayOp} {t : Trav} {e : TravEntry} {rest : List TravEntry} :
    (s.popTrav core id o l t e rest).Leaves Canonical := by
  simp only [State.popTrav]
  split
  · exact h
  · split
    · exact visit_leaves h
    · exact leaf_leaves h
    · refine ((unitRead_leaves h).at).bind fun u b hu => ?_
      split
      · exact hu
      · split
        · exact hu
        · exact visit_leaves hu

theorem traverse_leaves {core id l fuel : Nat} {o : RayOp} {tmax : Word} {t : Trav} :
    (s.traverse core id o l tmax fuel t).Leaves Canonical := by
  induction fuel generalizing s t with
  | zero => exact h
  | succ fuel ih =>
    unfold State.traverse
    dsimp only
    split
    · exact h
    · split <;> rename_i e <;> have ht := e ▸ popTrav_leaves h
      · exact ih ht
      · exact ht
      · exact ht
      · exact ht
      · split <;> exact ht

theorem rayLane_leaves {core id l : Nat} {o : RayOp} {lane : RayLane} : (s.rayLane core id o l lane).Leaves Canonical := by
  simp only [State.rayLane]
  split
  · exact h
  · split
    · exact h
    · exact traverse_leaves h

theorem unitLane_leaves {core id l : Nat} {o : RayOp} {lane : RayLane} : (s.unitLane core id o l lane).Leaves Canonical := by
  unfold State.unitLane
  split
  · exact queryLane_leaves h
  · exact walkLane_leaves h
  · exact pdfLane_leaves h
  · exact texLane_leaves h
  · exact texLane_leaves h
  · exact rayLane_leaves h

@[simp] theorem canonical_workLanes {core id : Nat} {o : RayOp} {l : List (Nat × RayLane)} :
    Canonical (s.workLanes core id o l).1.mem := by
  induction l generalizing s with
  | nil => exact h
  | cons e l ih =>
    simp only [State.workLanes]
    split
    · exact ih h
    · split
      · exact ih h
      · split <;> rename_i e <;> have ht : Canonical _ := (e ▸ unitLane_leaves h :)
        · exact ih ht
        · exact ih ht
        · exact ih ht
        · split
          · exact ih ht
          · split
            · exact ih (by simpa using ht)
            · exact ih ht

/-! ### Reuse jobs -/

theorem motionOf_leaves {core job x y : Nat} {j : ReuseJob} : (s.motionOf core job j x y).Leaves Canonical := by
  unfold State.motionOf
  dsimp only
  split <;> rename_i e <;> exact (e ▸ pieces_leaves h :)

theorem candidate_leaves {core job pix i plane : Nat} {j : ReuseJob} {x y : Int} :
    (s.candidate core job j pix i plane x y).Leaves Canonical := by
  simp only [State.candidate]
  split
  · exact h
  · split
    · exact h
    · split
      · exact h
      · split <;> exact canonical_readRecord h

theorem candidates_leaves {core job pix : Nat} {j : ReuseJob} {l : List (Nat × Nat × Int × Int)} :
    (s.candidates core job j pix l).Leaves Canonical := by
  induction l generalizing s with
  | nil => exact h
  | cons e l ih =>
    unfold State.candidates
    split <;> rename_i e <;> have ht := e ▸ candidate_leaves h
    · exact ht
    · exact ht
    · split
      · next e => exact (e ▸ ih ht :)
      · exact ih ht

theorem pixelCands_leaves {core job pix x y : Nat} {j : ReuseJob} : (s.pixelCands core job j pix x y).Leaves Canonical := by
  simp only [State.pixelCands]
  split
  · split <;> rename_i e <;> have ht := e ▸ motionOf_leaves h
    · exact ht
    · exact ht
    · exact candidates_leaves ht
  · exact candidates_leaves h

theorem allCands_leaves {core job pix : Nat} {j : ReuseJob} {l : List (Nat × Nat)} : (s.allCands core job j pix l).Leaves Canonical := by
  induction l generalizing s pix with
  | nil => exact h
  | cons e l ih =>
    unfold State.allCands
    split <;> rename_i e <;> have ht := e ▸ pixelCands_leaves h
    · exact ht
    · exact ht
    · split
      · next e => exact (e ▸ ih ht :)
      · exact ih ht
end

/-! ### Boot -/
theorem canonical_runStages {s : State} (h : Canonical s.mem) {l : List Nat} : Canonical (runStages l s).mem := by
  induction l generalizing s with
  | nil =>
    unfold runStages
    generalize Config.supervisorHeader = hd, Config.bootImage 4 = bs
    exact wf_putBytes _ _ h
  | cons n r ih =>
    rw [runStages]
    split
    · exact ih (by rw [State.modDev_mem]; exact h)
    · dsimp only
      rwa [State.say_mem]

/-! ## Operations that may write memory -/

section
variable {s : State} (h : Canonical s.mem)
include h

theorem leaves_evalLoad {n : Nat} {l : List (Nat × Nat)} {w : List (Nat × Nat) → Writes} : Leaves Canonical (evalLoad n l w s) := by
  unfold evalLoad
  refine .ite (by simpa using h) ?_
  split <;> rename_i e <;> have ht := (e ▸ evalReads_leaves h :) <;> simpa using ht

theorem leaves_execLdG {b : BitVec 7} {a d : BitVec 8} {z : BitVec 2} : Leaves Canonical (execLdG b a d z s) := by
  dsimp only [execLdG]
  exact leaves_issue h (.ite (leaves_evalLoad h) (leaves_withPlaces h fun l => leaves_loadAt h fun t v ht => by simpa using ht))

theorem leaves_execPref {o b x : BitVec 7} : Leaves Canonical (execPref o b x s) := leaves_issue h (by simp [h])

theorem leaves_cardKey {op : Nat} {opt nv : Bool} {t : BitVec 2} {a d : BitVec 8} :
    Leaves Canonical (cardKey op opt nv t a d s) := by
  refine leaves_issue h ?_
  dsimp only
  split
  · simpa using h
  · split
    · simpa using h
    · refine leaves_issue h (leaves_cardTurn h ?_)
      split
      · next e =>
        have hl := e ▸ cardLanes_leaves h
        simpa using hl
      · simpa using cardStop_leaves (cardLanes_leaves h)

theorem leaves_execCtstat {d a : BitVec 7} : Leaves Canonical (execCtstat d a s) := by
  refine leaves_issue h (leaves_cardTurn h ?_)
  dsimp only
  split
  · simpa using h
  · split
    · next e =>
      have ht := e ▸ wholeLog_leaves h
      simpa using ht
    · next e =>
      have ht := e ▸ wholeLog_leaves h
      simpa using ht
    · rw [leaves_next]
      exact cardStop_leaves (wholeLog_leaves h)

theorem leaves_execCtdrain {cur out ctl : BitVec 7} : Leaves Canonical (execCtdrain cur out ctl s) := by
  refine leaves_issue h ?_
  dsimp only
  refine .ite (by simpa using h) (.ite (by simpa using h) (leaves_cardTurn h (.ite (by simpa using h) ?_)))
  split
  · simpa using h
  · split
    · next e =>
      have ht := e ▸ wholeLog_leaves h
      simpa using ht
    · next e =>
      have ht := e ▸ wholeLog_leaves h
      simpa using ht
    · rw [leaves_next]
      exact cardStop_leaves (wholeLog_leaves h)

theorem leaves_execTxend {d : BitVec 7} : Leaves Canonical (execTxend d s) := by
  refine leaves_issue h ?_
  split
  · exact leaves_atCommit h fun t ht => by simpa using ht
  · refine .ite (leaves_atCommit h fun t ht => by simpa using ht) (.ite (by simpa using h) (leaves_commitThen h fun t ht => ?_))
    refine .ite (by simpa using ht) ?_
    dsimp only
    split
    · simpa using ht
    · rw [leaves_next, State.retire_mem, State.txResult_mem]
      exact foldl_leaves (fun t e ht => foldl_leaves (fun t e ht => canonical_publish ht) ht) ht

theorem leaves_execAtomicCommit {core slot op : Nat} : Leaves Canonical (execAtomicCommit core slot op s) := by
  unfold execAtomicCommit
  split
  · simpa using h
  · dsimp only
    split
    · simpa using h
    · refine .ite (by simpa using h) ?_
      have hc : ∀ (l : List Nat) (news : List (Nat × Nat)) (f : State → Nat → State) (size : Nat), (∀ t x, (f t x).mem = t.mem) →
          Canonical (news.foldl (fun s e => s.commitBytes e.1 (leBytes size e.2)) (l.foldl f s)).mem := by
        intro l news f size hf
        refine foldl_leaves (fun t e ht => canonical_commitBytes ht) ?_
        rwa [foldl_mem hf]
      refine .ite ?_ ?_
      · rw [leaves_next, State.finishOp_mem, State.modGroup_mem]
        exact hc _ _ _ _ fun t x => by simp
      · rw [leaves_next, State.after_mem, State.modGroup_mem]
        exact hc _ _ _ _ fun t x => by simp

theorem leaves_execLineFill {team map line : Nat} : Leaves Canonical (execLineFill team map line s) := by
  simp only [execLineFill]
  split
  · simpa using h
  · refine .ite (by simpa using h) (.ite (by simpa using h) ?_)
    split <;> rename_i e <;> have ht := (e ▸ engineAt_leaves h :) <;> simpa using ht

theorem leaves_regionCommit {capacity : Bool} {core slot : Nat} : Leaves Canonical (regionCommit capacity core slot s) := by
  simp only [regionCommit]
  split
  · simpa using h
  · split
    · simpa using h
    · refine .ite (by simpa using h) (.ite (by simpa using h) ?_)
      split
      · simpa using h
      · split <;> rename_i e <;> have ht := e ▸ recheck_leaves h
        · simpa using ht
        · simpa using ht
        · simpa using ht
        · refine .ite (.ite ?_ ?_) (by simpa using ht)
          · rw [leaves_next, State.modCluster_mem]
            exact canonical_commitRegion (by rwa [State.modSplit_mem])
          · rw [leaves_next]
            exact canonical_commitRegion (by rwa [State.modSplit_mem])

theorem leaves_execFlagOperationComplete {core slot op : Nat} : Leaves Canonical (execFlagOperationComplete core slot op s) := by
  simp only [execFlagOperationComplete]
  split
  · split <;> simp [h]
  · refine .ite (by simpa using h) (.ite (by simpa using h) ?_)
    split
    · simpa using h
    · simpa using canonical_finishWriteBack h
    · simpa using h
    · split
      · refine .ite ?_ ?_ <;> simpa using h
      · simpa using h
    · simpa using h

theorem leaves_execCopyRowComplete {core cmd : Nat} : Leaves Canonical (execCopyRowComplete core cmd s) := by
  simp only [execCopyRowComplete]
  split
  · simpa using h
  · refine .ite (by simpa using h) ?_
    split <;> rename_i e <;> have ht := e ▸ copyRow_leaves (by simpa using h)
    · refine .ite ?_ (.ite ?_ ?_) <;> simpa using ht
    · simpa using ht
    · split <;> simpa using ht
    · simpa using ht

theorem leaves_execFsendRetry {msg : Nat} : Leaves Canonical (execFsendRetry msg s) := by
  unfold execFsendRetry
  (repeat' split) <;> simp [h]

theorem leaves_execFullingOperandArrival {msg : Nat} : Leaves Canonical (execFullingOperandArrival msg s) := by
  unfold execFullingOperandArrival
  (repeat' split) <;> simp [h]

theorem leaves_execFullingDelivery {msg : Nat} : Leaves Canonical (execFullingDelivery msg s) := by
  simp only [execFullingDelivery]
  (repeat' split) <;> simp [h]

theorem leaves_execRsvld {c : BitVec 4} {a d : BitVec 8} : Leaves Canonical (execRsvld c a d s) := by
  refine leaves_issue h (leaves_withRecords h (leaves_runResult ?_))
  exact List.foldlRecOn (motive := fun st : State × Keyed (List Word) => Canonical st.1.mem) _ _ h
    fun st hst e _ => canonical_readRecord hst

theorem leaves_execRsvst {c : BitVec 4} {a d : BitVec 8} : Leaves Canonical (execRsvst c a d s) := by
  refine leaves_issue h (leaves_withRecords h ?_)
  rw [leaves_next, State.retire_mem]
  exact foldl_leaves (fun t e ht => canonical_writeRecord ht) h

theorem leaves_execBrimArrival {core op : Nat} : Leaves Canonical (execBrimArrival core op s) := by
  simp only [execBrimArrival]
  split
  · simpa using h
  · refine .ite (by simpa using h) (.ite (by simpa using h) ?_)
    rw [leaves_next, State.finishOp_mem, State.modCore_mem]
    have hx : ∀ (l : Launch) (px : List (Nat × Nat)) (die plane : Nat), Canonical (px.foldl (fun s e =>
          (s.readRecord l die plane e.1 e.2).1.writeRecord l (1 - die) plane e.1 e.2
            ((s.readRecord l die plane e.1 e.2).2.set 5 (wordAt (s.readRecord l die plane e.1 e.2).2 5 ||| 0x800000#32))) s).mem :=
      fun l px die plane => foldl_leaves (fun t e ht => canonical_writeRecord (canonical_readRecord ht)) h
    split
    · rw [State.signal_mem, State.modDev_mem]; exact hx _ _ _ _
    · rw [State.creditTeam_mem, State.modDev_mem]; exact hx _ _ _ _

theorem leaves_execRayUnitComplete {core op : Nat} : Leaves Canonical (execRayUnitComplete core op s) := by
  simp only [execRayUnitComplete]
  split
  · simpa using h
  · refine .ite (by simpa using h) (.ite ?_ (.ite ?_ ?_))
    · split <;> simp [h]
    · simp [h]
    · simp [h]

theorem leaves_execReuseJobStart {core job : Nat} : Leaves Canonical (execReuseJobStart core job s) := by
  unfold execReuseJobStart
  split
  · simpa using h
  · refine .ite (by simpa using h) (.ite (by simpa using h) ?_)
    split <;> rename_i e <;> have ht := (e ▸ allCands_leaves h :) <;> simpa using ht

theorem leaves_execReuseMerge {core job : Nat} : Leaves Canonical (execReuseMerge core job s) := by
  simp only [execReuseMerge]
  split
  · simpa using h
  · refine .ite (by simpa using h) (.ite (by simpa using h) (.ite (by simpa using h) (.ite (by simpa using h) ?_)))
    (repeat' split) <;> simp [h]

theorem leaves_execDirtyHarvestComplete {req : Nat} : Leaves Canonical (execDirtyHarvestComplete req s) := by
  simp only [execDirtyHarvestComplete]
  (repeat' split) <;> simp [h]

theorem leaves_execPageWalk {core ctx kind : Nat} {va : BitVec 80} : Leaves Canonical (execPageWalk core ctx va kind s) := by
  simp [execPageWalk, h]

theorem leaves_execMigratingRetry {core ctx kind : Nat} {va : BitVec 80} : Leaves Canonical (execMigratingRetry core ctx va kind s) := by
  simp [execMigratingRetry, h]

theorem leaves_execGridEnd {grid : Nat} : Leaves Canonical (execGridEnd grid s) := by
  simp only [execGridEnd]
  split
  · simpa using h
  · refine .ite (by simpa using h) (.ite (by simpa using h) (.ite (by simp [h]) ?_))
    rw [leaves_next]
    exact canonical_complete (canonical_reach (canonical_reach h))

theorem leaves_execLaunchMessage {block : Nat} : Leaves Canonical (execLaunchMessage block s) := by
  simp only [execLaunchMessage]
  split
  · simpa using h
  · have hm : ∀ (c : Bool) (b : Nat), Canonical (if c then (s, Except.ok 0) else s.readMap b).1.mem := by
      intro c b
      split
      · exact h
      · exact canonical_readMap h
    split <;> rename_i e <;> replace hm : Canonical _ := e ▸ hm _ _
    · rwa [leaves_next, State.after_mem]
    · rwa [leaves_next, State.refuse_mem]
    · split
      · rwa [leaves_next, State.refuse_mem]
      · split
        · simpa using hm
        · split <;> rename_i e <;> have hw := e ▸ canonical_writeInline hm
          · simpa using hw
          · rw [leaves_next]
            apply canonical_startLaunch
            exact hw

theorem leaves_execTeamEnd {team : Nat} : Leaves Canonical (execTeamEnd team s) := by
  simp only [execTeamEnd]
  split
  · simpa using h
  · refine .ite (by simpa using h) (.ite (by simpa using h) (.ite (by simpa using h) ?_))
    split
    · simpa using h
    · next e =>
      have hu := canonical_unmapAll (by simpa using h) e
      simpa using hu

theorem leaves_execPreemptSave {core tslot : Nat} : Leaves Canonical (execPreemptSave core tslot s) := by
  have hsave : ∀ l : List (Nat × Nat),
      Canonical (l.foldl (fun s e => (((s.saveBytes e.2).takeGroups e.1).releaseTeam e.1).dropTeam e.1) s).mem :=
    fun l => foldl_leaves (fun t e ht => by simp [ht]) h
  simp only [execPreemptSave]
  split
  · simpa using h
  · split
    · split
      · simpa using h
      · refine .ite (by simpa using h) ?_
        rw [leaves_next, State.putHead_mem]
        exact hsave _
    · simpa using h

theorem leaves_execSramScrub {line : Nat} : Leaves Canonical (execSramScrub line s) := by
  simp only [execSramScrub]
  refine .ite (by simpa using h) (.ite (by simp [h]) ?_)
  rw [leaves_next]
  split
  · apply canonical_poison
    exact h
  · exact h

theorem leaves_execUncorrectableFlit {link line core slot : Nat} {control : Bool} :
    Leaves Canonical (execUncorrectableFlit link line core slot control s) := by
  have hk : ∀ t, Canonical t.mem → Leaves Canonical (if link < 8 then execPeerLinkDown link t else .next t) :=
    fun t ht => .ite (leaves_execPeerLinkDown ht) (by simpa using ht)
  apply hk
  split
  · dsimp only
    split <;> simp [h]
  · simpa using h

theorem leaves_outsideAccess {pa msg : Nat} {write : Bool} {again : Event} : Leaves Canonical (outsideAccess pa msg write again s) := by
  simp only [outsideAccess]
  split
  · simpa using h
  · refine .ite (by simpa using h) (.ite (by simpa using h) (.ite (by simpa using h) ?_))
    rw [leaves_next]
    apply canonical_commitBytes
    exact h

theorem leaves_execPeerPortRequest {port pa msg : Nat} {write : Bool} : Leaves Canonical (execPeerPortRequest port pa msg write s) :=
  .ite (by simpa using h) (leaves_outsideAccess h)
end

theorem leaves_execReset {s : State} : Leaves Canonical (execReset s) := by
  rw [execReset, leaves_next]
  exact canonical_runStages (by rfl)

/-! ## The step -/

/-- Every instruction and every event keeps the canonical form; the cases are grouped by the operation that gives them their meaning. -/
theorem leaves_exec {i : Instr} {s : State} (h : Canonical s.mem) : Leaves Canonical (exec i s) := by
  cases i <;> dsimp only [exec]
  case clauseHeader => exact leaves_execClauseHeader h
  case modxLaneSelect | modxNegateAbs | modxAddress | modxRounding | modxSetb | modxSaturate => exact leaves_addPrefix h
  case nop => exact leaves_execNop h
  case mov16 | clz | popc | brev | ctz | iabs | ineg | iaddi | shli | shri | sari | sext | fclass => exact leaves_vecUn h
  case iadd16 | isub16 | and16 | or16 | xor16 | shl16 | shr16 | sar16 | iminI16 | imaxI16 => exact leaves_half2 h
  case fadd16 | fsub16 | fmul16 | fmin16 | fmax16 => exact leaves_halfFloat h
  case bra | brez | brnez | brzS | brnzS | brnegS => exact leaves_branch h
  case call => exact leaves_execCall h
  case nopW => exact leaves_execNopW h
  case ret | jmpi => exact leaves_jumpTo h
  case exit => exact leaves_execExit h
  case split => exact leaves_execSplit h
  case join => exact leaves_execJoin h
  case yield => exact leaves_execYield h
  case sleep => exact leaves_execSleep h
  case waitp => exact leaves_execWaitp h
  case barTeam => exact leaves_execBarTeam h
  case barClu => exact leaves_execBarClu h
  case barScope => exact leaves_execBarScope h
  case waitx => exact leaves_execWaitx h
  case gangset => exact leaves_execGangset h
  case trap => exact leaves_execTrap h
  case eret => exact leaves_execEret h
  case halt => exact leaves_execHalt h
  case bkpt => exact leaves_execBkpt h
  case rcommit => exact leaves_execRcommit h
  case txbegin => exact leaves_execTxbegin h
  case txend => exact leaves_execTxend h
  case txabort => exact leaves_execTxabort h
  case fence => exact leaves_execFence h
  case sadd | ssub | smul | smulhI | smulhN | sminI | smaxI | sminN | smaxN | sand | sor | sxor | sandn | sshl | sshr | ssar
      | scmpEq | scmpNe | scmpLtI | scmpLeI | scmpLtN | scmpLeN | ssel | sclz | spopc | sbrev | sctz | saddi | sandi | sshli
      | sshri | slti => exact leaves_scalarOp h
  case sadd64 | ssub64 | sshl64 | sshr64 | smul64 => exact leaves_scalarOp64 h
  case srd | sysClockRead => exact leaves_readSys h
  case swr | sysGangWrite | sysFpflagsWrite | sysFaultmaskClear | contextRegisterWrite => exact leaves_writeSys h
  case preemptRequest => exact leaves_execPreemptRequest h
  case contextSuspend => exact leaves_execContextSuspend h
  case contextResume => exact leaves_execContextResume h
  case contextMarkFailed => exact leaves_execContextMarkFailed h
  case tlbinvRange => exact leaves_execTlbinvRange h
  case tlbinvCtx => exact leaves_execTlbinvCtx h
  case dharv => exact leaves_execDharv h
  case tagpurge => exact leaves_execTagpurge h
  case iadd | isub | imul | imulhI | imulhN | iminI | imaxI | iminN | imaxN | and | or | xor | andn | shl | shr | sar | rol
      | bfe | ilv2 | dilv2 | dilv3 => exact leaves_vecBin h
  case imad | bfi | ilv3 => exact leaves_vecTri h
  case frcp | frsq | fsqrt | fexp2 | flog2 | fsin | fcos => exact leaves_floatFun h
  case ffract | frintRne | frintRtz | frintRdn | frintRup | fadd | fsub | fmul | ffma | fmin | fmax | fcpys | hadd2 | hmul2
      | hfma2 | bfma2 => exact leaves_floatSync h
  case fdiv => exact leaves_execFdiv h
  case dadd | dmul | dfma | ddiv => exact leaves_doubleOp h
  case icmpEq | icmpNe | icmpLtI | icmpLeI | icmpLtN | icmpLeN | fcmpEq | fcmpNe | fcmpLt | fcmpLe | fcmpUn => exact leaves_compareOp h
  case vote => exact leaves_execVote h
  case sel => exact leaves_execSel h
  case movs => exact leaves_execMovs h
  case lea => exact leaves_execLea h
  case readlane => exact leaves_execReadlane h
  case shflXor | shflUp | shflDn | shflIdx => exact leaves_shuffle h
  case redx | scanx => exact leaves_reduction h
  case cvtF32I32 | cvtF32N32 | cvtI32F32 | cvtN32F32 | cvtF16F32 | cvtF32F16 | cvtBf16F32 | cvtF32Bf16 | cvtI16I32
      | cvtN16N32 | cvtI8I32 | cvtN8N32 | cvtFp19F32 | cvtF32Fp19 => exact leaves_cvtOp h
  case cvtF64F32 | cvtF64I32 | cvtF64N32 | cvtI64F64 | cvtN64F64 | cvtF64I64 | cvtF64N64 => exact leaves_cvtTo64 h
  case cvtF32F64 | cvtI32F64 | cvtN32F64 => exact leaves_cvtFrom64 h
  case cullbf => exact leaves_execCullbf h
  case cullfr => exact leaves_execCullfr h
  case cullsz => exact leaves_execCullsz h
  case bary => exact leaves_execBary h
  case spld => exact leaves_execSpld h
  case spst => exact leaves_execSpst h
  case spatXchg | spatCas | spatIadd | spatIminI | spatImaxI | spatIminN | spatImaxN | spatAnd | spatOr | spatXor | spatFadd
      | spatFmin | spatFmax => exact leaves_spat h
  case ctins | ctprb | ctdel | ctacc => exact leaves_cardKey h
  case ctinit => exact leaves_execCtinit h
  case ctfree => exact leaves_execCtfree h
  case ctstat => exact leaves_execCtstat h
  case ctdrain => exact leaves_execCtdrain h
  case spmap => exact leaves_execSpmap h
  case spunmap | spwb => exact leaves_writeBackMap h
  case ldG => exact leaves_execLdG h
  case ldfwd => exact leaves_execLdfwd h
  case stG => exact leaves_execStG h
  case stfwd => exact leaves_execStfwd h
  case atomGXchg | atomGCas | atomGIadd | atomGIminI | atomGImaxI | atomGIminN | atomGImaxN | atomGAnd | atomGOr | atomGXor
      | atomGFadd | atomGFmin | atomGFmax | redGIadd | redGIminI | redGImaxI | redGIminN | redGImaxN | redGAnd | redGOr
      | redGXor | redGFadd | redGFmin | redGFmax => exact leaves_atomG h
  case lds | lds64 => exact leaves_scalarLoad h
  case sts | sts64 => exact leaves_scalarStore h
  case pref => exact leaves_execPref h
  case post => exact leaves_execPost h
  case depdec => exact leaves_execDepdec h
  case ringarr => exact leaves_execRingarr h
  case ringwait => exact leaves_execRingwait h
  case mboxsend => exact leaves_execMboxsend h
  case cpTensor | cpGather | cpScatter | cpMcast | cpPack | cpUnpack | cpFill => exact leaves_copyCommand h
  case cpCancel => exact leaves_execCpCancel h
  case barinit => exact leaves_execBarinit h
  case barexp => exact leaves_execBarexp h
  case barwait => exact leaves_execBarwait h
  case bartest => exact leaves_execBartest h
  case tagalloc | tagallocTree => exact leaves_tagAllocate h
  case tagfree => exact leaves_execTagfree h
  case fsend => exact leaves_execFsend h
  case tagqry => exact leaves_execTagqry h
  case mma => exact leaves_execMma h
  case oclaim => exact leaves_execOclaim h
  case orelease => exact leaves_execOrelease h
  case osetfmt => exact leaves_execOsetfmt h
  case aclaim => exact leaves_execAclaim h
  case arelease => exact leaves_execArelease h
  case ainit => exact leaves_execAinit h
  case ainitSet => exact leaves_execAinitSet h
  case ainitSlot => exact leaves_execAinitSlot h
  case ald => exact leaves_execAld h
  case aldCol => exact leaves_execAldCol h
  case aldStat => exact leaves_execAldStat h
  case ast => exact leaves_execAst h
  case astCol => exact leaves_execAstCol h
  case qbfp => exact leaves_execQbfp h
  case ofill => exact leaves_execOfill h
  case oread => exact leaves_execOread h
  case oreadRec => exact leaves_execOreadRec h
  case rtrace | rtany | rtqry | ltwalk | ltpdf | texld | texg => exact leaves_rayIssue h
  case rngctr => exact leaves_execRngctr h
  case rngf => exact leaves_execRngf h
  case rsvinit => exact leaves_execRsvinit h
  case rsvupd => exact leaves_execRsvupd h
  case rsvmrg => exact leaves_execRsvmrg h
  case rsvnorm => exact leaves_execRsvnorm h
  case rsvld => exact leaves_execRsvld h
  case rsvst => exact leaves_execRsvst h
  case reuse => exact leaves_execReuse h
  case tgtret => exact leaves_execTgtret h
  case brimx => exact leaves_execBrimx h
  case splitPromotion => exact leaves_execSplitPromotion h
  case sleepExpiry => exact leaves_execSleepExpiry h
  case flagOperationComplete => exact leaves_execFlagOperationComplete h
  case globalLoadReturn => exact leaves_execGlobalLoadReturn h
  case regionCommit | capacityCommit => exact leaves_regionCommit h
  case reservationLapse => exact leaves_execReservationLapse h
  case atomicCommit => exact leaves_execAtomicCommit h
  case lineFill => exact leaves_execLineFill h
  case peerScratchpadAccess => exact leaves_execPeerScratchpadAccess h
  case copyCommandStart => exact leaves_execCopyCommandStart h
  case copyRowComplete => exact leaves_execCopyRowComplete h
  case copyFault => exact leaves_execCopyFault h
  case copyRestart => exact leaves_execCopyRestart h
  case copyResume => exact leaves_execCopyResume h
  case mmaStart => exact leaves_execMmaStart h
  case mmaComplete => exact leaves_execMmaComplete h
  case signalStore => exact leaves_execSignalStore h
  case fullingOperandArrival => exact leaves_execFullingOperandArrival h
  case fullingSpillRefill => exact leaves_execFullingSpillRefill h
  case fullingReload => exact leaves_execFullingReload h
  case fsendRetry => exact leaves_execFsendRetry h
  case fsendOverflow => exact leaves_execFsendOverflow h
  case orphanExpiry => exact leaves_execOrphanExpiry h
  case spillSweep => exact leaves_execSpillSweep h
  case fullingDelivery => exact leaves_execFullingDelivery h
  case heldDeliveryExpiry => exact leaves_execHeldDeliveryExpiry h
  case teamPlacement => exact leaves_execTeamPlacement h
  case launchMessage => exact leaves_execLaunchMessage h
  case teamEnd => exact leaves_execTeamEnd h
  case gridEnd => exact leaves_execGridEnd h
  case pageWalk => exact leaves_execPageWalk h
  case migratingRetry => exact leaves_execMigratingRetry h
  case invalidationAck => exact leaves_execInvalidationAck h
  case supervisorEntry => exact leaves_execSupervisorEntry h
  case hostTrapAction => exact leaves_execHostTrapAction h
  case preemptSave => exact leaves_execPreemptSave h
  case preemptLimitExpiry => exact leaves_execPreemptLimitExpiry h
  case watchdog => exact leaves_execWatchdog h
  case debugHalt => exact leaves_execDebugHalt h
  case debugResume => exact leaves_execDebugResume h
  case peerLinkDown => exact leaves_execPeerLinkDown h
  case peerLinkUp => exact leaves_execPeerLinkUp h
  case flitReplay => exact leaves_execFlitReplay h
  case uncorrectableFlit => exact leaves_execUncorrectableFlit h
  case moduleLaneFailure => exact leaves_execModuleLaneFailure h
  case powerThrottle => exact leaves_execPowerThrottle h
  case thermalThrottle => exact leaves_execThermalThrottle h
  case thermtrip => exact leaves_execThermtrip h
  case reset => exact leaves_execReset
  case attestationRequest => exact leaves_execAttestationRequest h
  case slPin => exact leaves_execSlPin h
  case slUnpin => exact leaves_execSlUnpin h
  case slBypassClear => exact leaves_execSlBypassClear h
  case contextBindingWrite => exact leaves_execContextBindingWrite h
  case controlNodeMemoryAccess => exact leaves_outsideAccess h
  case shootdownRequest => exact leaves_execShootdownRequest h
  case harvestRequest => exact leaves_execHarvestRequest h
  case cardingSpillAllocation => exact leaves_execCardingSpillAllocation h
  case dramScrub => exact leaves_execDramScrub h
  case sramScrub => exact leaves_execSramScrub h
  case scrublate => exact leaves_execScrublate h
  case ucieRetraining => exact leaves_execUcieRetraining h
  case gddr7Retraining => exact leaves_execGddr7Retraining h
  case agingMonitor => exact leaves_execAgingMonitor h
  case flashWearLevelling => exact leaves_execFlashWearLevelling h
  case telemetry => exact leaves_execTelemetry h
  case rayUnitComplete => exact leaves_execRayUnitComplete h
  case rayLaneRestart => exact leaves_execRayLaneRestart h
  case reuseJobStart => exact leaves_execReuseJobStart h
  case reuseBatch => exact leaves_execReuseBatch h
  case reuseMerge => exact leaves_execReuseMerge h
  case reuseJobComplete => exact leaves_execReuseJobComplete h
  case brimArrival => exact leaves_execBrimArrival h
  case illegalEncoding => exact leaves_execIllegalEncoding h
  case tagNodeAcknowledgement => exact leaves_execTagNodeAcknowledgement h
  case dirtyHarvestComplete => exact leaves_execDirtyHarvestComplete h
  case zeroingComplete => exact leaves_execZeroingComplete h
  case taskQueueAcceptance => exact leaves_execTaskQueueAcceptance h
  case thermalThrottleEnd => exact leaves_execThermalThrottleEnd h
  case peerPortRequest => exact leaves_execPeerPortRequest h

/-- A fetch leaves a memory of which `P` holds, whether an instruction is to run or not. -/
@[simp] def Fetch.Leaves (P : Memory → Prop) : Fetch → Prop
  | .run _ s | .done s => P s.mem

theorem fetched_leaves {s : State} {n : Nat} {k : Nat → Fetch} (h : P s.mem) (hk : ∀ v, (k v).Leaves P) :
    (fetched s n k).Leaves P := by
  unfold fetched
  split
  · exact hk _
  · simpa using h
  · simpa using h

theorem beforeDecode_mem {s t : State} {w : Word} {short : Bool} (ht : s.beforeDecode w short = some t) : t.mem = s.mem := by
  unfold State.beforeDecode at ht
  repeat' split at ht
  all_goals cases ht
  all_goals simp

theorem fetchInstr_leaves {s : State} (h : P s.mem) : s.fetchInstr.Leaves P := by
  unfold State.fetchInstr
  refine fetched_leaves h fun v => ?_
  split
  · dsimp only
    split
    · next e => simpa [beforeDecode_mem e] using h
    · split <;> exact h
  · refine fetched_leaves h fun w => ?_
    dsimp only
    split
    · next e => simpa [beforeDecode_mem e] using h
    · split
      · exact h
      · split
        · exact h
        · exact fetched_leaves h fun v => h

theorem leaves_stepIssue {s : State} (h : Canonical s.mem) : Leaves Canonical (stepIssue s) := by
  have hf := fetchInstr_leaves h
  unfold stepIssue
  split <;> rename_i e <;> rw [e] at hf
  · simpa using hf
  · next i t =>
    have hx : Leaves Canonical (exec i t.noteSnapshot) := leaves_exec (by simpa using hf)
    split
    · next e => simpa [e] using hx
    · exact hx

theorem leaves_stepEvent {s : State} (h : Canonical s.mem) (ev : Event) : Leaves Canonical (stepEvent s ev) := leaves_exec h

theorem leaves_stepMove {s : State} (h : Canonical s.mem) (m : Move) : Leaves Canonical (stepMove s m) := by
  cases m with
  | agenda a => exact leaves_stepEvent (by simpa using h) _
  | promote core slot split => exact leaves_stepEvent h _
  | issue core slot split => exact leaves_stepIssue (by simpa using h)

theorem leaves_stepStopped {s : State} (h : Canonical s.mem) : Leaves Canonical (stepStopped s) := by
  unfold stepStopped
  split
  · exact leaves_stepEvent (by simpa using h) _
  · exact leaves_fault _

theorem leaves_outcome {old : State} {o : Out} (h : Leaves P o) : Leaves P (outcome old o) := by
  cases o with
  | next t => simpa [outcome] using h
  | fault r => exact leaves_fault r
  | refused r => exact leaves_refused r

theorem leaves_step {s : State} (h : Canonical s.mem) : Leaves Canonical (step s) := by
  unfold step
  split
  · exact leaves_stepStopped h
  · split
    · apply leaves_outcome
      apply leaves_stepMove
      exact h
    · simpa using h

/-- Settles O59: the form of memory that `leaves_step` keeps is the one that `MemoryInv` asks. -/
theorem memoryFormIsKept : Obligations.MemoryFormIsKept := fun _ _ h e => leaves_step h _ e

end Sys2Proof.Machine
end

section
/-! # O58: the state after reset (Tables 6.5, 16.7 and 17.2)

A register of Tables 6.5 and 16.7 is a field of the issuing group, of its context or of its core. Reset touches no context and no core, so
that each one reads as `Ctx.reset` or `Core.reset`; it forms no cluster, so that scope entry 1 is the core alone; and it leaves no trap
record, so that the words of the selected one read as 0. -/

namespace Sys2Proof.Machine

/-! ## What each kind of register reads as -/

/-- Scope entry 1 of a team that runs in no cluster names its core alone (R158). -/
theorem State.scopeMask_one_of_no_cluster {s : State} {team : Nat} (h : s.clusterOf team = none) (c core : Nat) :
    s.scopeMask c core team 1 = 1#320 <<< core := by
  simp [State.scopeMask, h]

theorem State.scopeMask_die (s : State) (c core team : Nat) :
    s.scopeMask c core team 2 = BitVec.ofNat 320 ((2 ^ 160 - 1) * 2 ^ (160 * (core / 160))) := by
  apply BitVec.eq_of_toNat_eq
  simp only [State.scopeMask, dieOf, BitVec.toNat_shiftLeft, BitVec.toNat_ofNat, Nat.shiftLeft_eq, Nat.mod_mul_mod]

theorem not_zero_eq_ofNat (w : Nat) : ~~~0#w = BitVec.ofNat w (2 ^ w - 1) := by
  apply BitVec.eq_of_toNat_eq
  simp

theorem State.scopeMask_module (s : State) (c core team : Nat) : s.scopeMask c core team 3 = BitVec.ofNat 320 (2 ^ 320 - 1) :=
  not_zero_eq_ofNat 320

/-- Scope entries 4 to 31 are the context's own (R158, R233). -/
theorem State.scopeMask_of_four_le (s : State) (c core team : Nat) {e : Nat} (h : 4 ≤ e) :
    s.scopeMask c core team e = storeRead (s.ctx c).scopes e := by
  obtain ⟨n, rfl⟩ := Nat.exists_eq_add_of_le' h
  rfl

theorem State.sysReg_mcset (s : State) {k : Nat} (h : k < 16) :
    s.sysReg (0x30 + k) = (storeRead s.g.sys.mcset k).setWidth 32 := by
  unfold State.sysReg
  rw [if_neg (by omega), if_pos (by omega), Nat.add_sub_cancel_left]

theorem State.sysReg_trec (s : State) (k : Nat) : s.sysReg (0x70 + k) = (s.core s.g.core).trecWord s.g.core k := by
  unfold State.sysReg
  rw [if_neg (by omega), if_neg (by omega), if_neg (by omega), if_pos (by omega), Nat.add_sub_cancel_left]

/-! ## The state after reset -/

@[simp] theorem State.reset_ctx (c : Nat) : State.reset.ctx c = Ctx.reset := rfl

@[simp] theorem State.reset_core (c : Nat) : State.reset.core c = Core.reset := rfl

@[simp] theorem State.reset_clusterOf (team : Nat) : State.reset.clusterOf team = none := rfl

/-- Reset selects group slot 0, which holds no record (R420). -/
@[simp] theorem Core.reset_trecWord (core n : Nat) : Core.reset.trecWord core n = 0#32 := rfl

/-- The multicast sets, and the words of the selected trap record. -/
theorem State.reset_sysReg_mcset_and_trec (k : Nat) (h : k < 16) :
    State.reset.sysReg (0x30 + k) = 0#32 ∧ State.reset.sysReg (0x70 + k) = 0#32 := by
  constructor
  · rw [State.sysReg_mcset _ h]
    rfl
  · rw [State.sysReg_trec, State.reset_core, Core.reset_trecWord]

theorem State.reset_scopeMask_of_four_le (c core team : Nat) {e : Nat} (h : 4 ≤ e) :
    State.reset.scopeMask c core team e = 0#320 := by
  rw [State.scopeMask_of_four_le _ _ _ _ h, State.reset_ctx]
  exact storeRead_nil e

/-- Settles O58, register by register: the scope entries, the multicast sets and the record words are the lemmas above; each
register of the two tables is computed, and what is left reads off the fields of `State.reset`. -/
theorem resetState : Obligations.ResetState := by
  refine ⟨rfl, rfl, rfl, rfl, rfl, rfl, rfl, rfl, rfl, rfl, ?registers, rfl, rfl, rfl,
    State.reset_sysReg_mcset_and_trec, fun c core team => ⟨rfl, ?cluster, ?die, ?module, ?own⟩, fun _ e => storeRead_nil e⟩
  case registers => decide
  case cluster => exact State.scopeMask_one_of_no_cluster (State.reset_clusterOf team) c core
  case die => exact State.scopeMask_die _ c core team
  case module => exact State.scopeMask_module _ c core team
  case own => exact fun e h => State.reset_scopeMask_of_four_le c core team h

end Sys2Proof.Machine
end

section
/-! # O9: the conversions (R69, R90 to R92)

Every conversion has one of three shapes: from 32 bits to 32 (`cvtOp`), from 64 bits to 32 (`cvtFrom64`), to a pair (`cvtTo64`). Each shape
is followed once, for any function of a lane: the checks pass, no enabled flag is raised, the flags are ORed in and the result is written.
Conversions of one shape differ in that function alone. -/

namespace Sys2Proof.Machine

/-- A synchronous float instruction whose checks pass and that raises no enabled flag writes its results and ORs its flags (R46, R87, R89). -/
theorem floatSync_completes {u : Uses} {pops : List (BitVec 8)} {d : BitVec 8} {f : State → Nat → FRes} {s : State}
    (hu : passes u s = true) (he : enabledLanes s.p.exec s.g.sys.fpen (fun l => (f s l).2) = 0#32) :
    Completes (floatSync u pops d f s)
      (VectorResult pops d (fun l => BitVec.ofNat 32 (f s l).1) (orFlags s.p.exec fun l => (f s l).2) s) := by
  unfold floatSync
  rw [issue_passes _ hu, withFlags_none _ he]
  exact syncResult_raise pops d _ _ s

section
variable {a d : BitVec 8} {s : State}

/-- A conversion from 32 bits to 32. -/
theorem cvtOp_completes {neg : Bool} {sign : Word} {f : Word → FRes} (hu : passes (use1 { selA := true, negA := neg } a d) s = true)
    (he : enabledLanes s.p.exec s.g.sys.fpen (fun l => (f (s.fsrcA sign a l)).2) = 0#32) :
    Completes (cvtOp neg sign a d f s) (VectorResult [a] d (fun l => BitVec.ofNat 32 (f (s.fsrcA sign a l)).1)
      (orFlags s.p.exec fun l => (f (s.fsrcA sign a l)).2) s) :=
  floatSync_completes hu he

/-- A conversion from 64 bits to 32: its source is a pair, never a queue, so that it pops nothing. -/
theorem cvtFrom64_completes {neg : Bool} {lit : Word → Dword} {f : Dword → FRes}
    (hu : passes { rd := [.v a 2], wr := [.v d 1], modx := { selA := true, negA := neg } } s = true)
    (he : enabledLanes s.p.exec s.g.sys.fpen (fun l => (f (s.dsrcA lit a l)).2) = 0#32) :
    Completes (cvtFrom64 neg lit a d f s) (VectorResult [] d (fun l => BitVec.ofNat 32 (f (s.dsrcA lit a l)).1)
      (orFlags s.p.exec fun l => (f (s.dsrcA lit a l)).2) s) :=
  floatSync_completes hu he

/-- A conversion to 64 bits: the halves of the pair are written in one step (R46). -/
theorem cvtTo64_completes {u : Uses} {pops : List (BitVec 8)} {f : State → Nat → FRes} (hu : passes u s = true)
    (he : enabledLanes s.p.exec s.g.sys.fpen (fun l => (f s l).2) = 0#32) :
    Completes (cvtTo64 u pops d f s) (VectorResult64 pops d (fun l => lo32 (BitVec.ofNat 64 (f s l).1))
      (fun l => hi32 (BitVec.ofNat 64 (f s l).1)) (orFlags s.p.exec fun l => (f s l).2) s) := by
  rw [cvtTo64, issue_passes _ hu, withFlags_none _ he]
  exact syncResult64_raise pops d _ _ s

end

/-- Settles O9, in the statement's groups of equal operands: each conversion is an instance of the lemma of its shape. -/
theorem conversionResults : Obligations.ConversionResults := by
  refine ⟨fun s a d t r => ⟨fun hu => ?int32, fun hu => ?float32⟩,
    fun s a d t r => ⟨fun hu => ?from64, fun hu => ?float32To64, fun hu => ?int32To64, fun hu => ?float64ToInt64, fun hu => ?int64To64⟩⟩
  case int32 =>
    rw [exec_cvtF32I32, exec_cvtF32N32, exec_cvtI16I32, exec_cvtN16N32, exec_cvtI8I32, exec_cvtN8N32]
    and_intros <;> exact fun he => cvtOp_completes hu he
  case float32 =>
    rw [exec_cvtI32F32, exec_cvtN32F32, exec_cvtF16F32, exec_cvtF32F16, exec_cvtBf16F32, exec_cvtF32Bf16, exec_cvtFp19F32,
      exec_cvtF32Fp19]
    and_intros <;> exact fun he => cvtOp_completes hu he
  case from64 =>
    rw [exec_cvtF32F64, exec_cvtI32F64, exec_cvtN32F64]
    and_intros <;> exact fun he => cvtFrom64_completes hu he
  case float32To64 =>
    rw [exec_cvtF64F32]
    exact fun he => cvtTo64_completes hu he
  case int32To64 =>
    rw [exec_cvtF64I32, exec_cvtF64N32]
    and_intros <;> exact fun he => cvtTo64_completes hu he
  case float64ToInt64 =>
    rw [exec_cvtI64F64, exec_cvtN64F64]
    and_intros <;> exact fun he => cvtTo64_completes hu he
  case int64To64 =>
    rw [exec_cvtF64I64, exec_cvtF64N64]
    and_intros <;> exact fun he => cvtTo64_completes hu he

end Sys2Proof.Machine
end
